-- ==== Sys2Proof/Word.lean ====
section
/-! DEFINITION. The word types of the HK7 model and the sorted key table that every sparse piece of state uses. -/

namespace Sys2Proof

/-- The content of a register of up to 64 bits (R7, R8); a 32-bit register holds 0 above bit 31 (R477). -/
abbrev Word := BitVec 64

/-- One byte (R5). -/
abbrev Byte := BitVec 8

/-- The 4-bit tag that travels beside every 64-bit word (R189, R196). -/
abbrev Tag := BitVec 4

/-- A 64-bit word with its tag (R189, R196). -/
structure TWord where
  /-- The tag beside the word (R196). -/
  tag : Tag := 0
  /-- The 64 data bits. -/
  val : Word := 0
  deriving DecidableEq, Repr

/-- Sparse data by key: pairs in strictly rising key order. -/
abbrev Tab (α : Type) := List (Nat × α)

end Sys2Proof
end

