-- ==== Sys2Proof/Machine/Tab.lean ====
section
/-! DEFINITION. Operations on sorted key tables, bit fields, little-endian and big-endian bytes, and saturating counts. -/

namespace Sys2Proof

namespace Tab

/-- The entry at key `k`, if the table lists one. -/
def find? {α : Type} : Tab α → Nat → Option α
  | [], _ => none
  | (j, v) :: t, k => if j = k then some v else find? t k

/-- Store `v` at key `k`, keeping keys strictly rising. -/
def put {α : Type} : Tab α → Nat → α → Tab α
  | [], k, v => [(k, v)]
  | (j, u) :: t, k, v =>
    if k < j then (k, v) :: (j, u) :: t
    else if k = j then (k, v) :: t
    else (j, u) :: put t k v

/-- Remove key `k`. -/
def del {α : Type} : Tab α → Nat → Tab α
  | [], _ => []
  | (j, u) :: t, k => if j = k then del t k else (j, u) :: del t k

/-- The entry at `k`, or `d` where none is listed. -/
def getD {α : Type} (t : Tab α) (k : Nat) (d : α) : α := (find? t k).getD d

/-- Store `v` at `k`; the value `d`, which an unlisted key reads as, is never listed. -/
def putD {α : Type} [DecidableEq α] (d : α) (t : Tab α) (k : Nat) (v : α) : Tab α :=
  if v = d then del t k else put t k v

/-- Change the entry at `k`, if listed. -/
def modify {α : Type} (t : Tab α) (k : Nat) (f : α → α) : Tab α :=
  match find? t k with
  | some v => put t k (f v)
  | none => t

/-- Whether key `k` is listed. -/
def has {α : Type} (t : Tab α) (k : Nat) : Bool := (find? t k).isSome

/-- Change every entry. -/
def mapVal {α : Type} (t : Tab α) (f : Nat → α → α) : Tab α := t.map fun p => (p.1, f p.1 p.2)

/-- Keep the entries that satisfy `p`. -/
def keep {α : Type} (t : Tab α) (p : Nat → α → Bool) : Tab α := t.filter fun q => p q.1 q.2

/-- The keys in rising order. -/
def keys {α : Type} (t : Tab α) : List Nat := t.map Prod.fst

/-- The keys whose entries satisfy `p`, in rising order. -/
def keysWhere {α : Type} (t : Tab α) (p : Nat → α → Bool) : List Nat := (t.keep p).map Prod.fst

/-- The first entry that satisfies `p`. -/
def first? {α : Type} (t : Tab α) (p : Nat → α → Bool) : Option (Nat × α) := List.find? (fun q => p q.1 q.2) t

/-- Whether some entry satisfies `p`. -/
def exists? {α : Type} (t : Tab α) (p : Nat → α → Bool) : Bool := (first? t p).isSome

/-- Keys strictly rise from `b` on. -/
def sortedFrom {α : Type} : Nat → Tab α → Bool
  | _, [] => true
  | b, (j, _) :: t => decide (b ≤ j) && sortedFrom (j + 1) t

/-- The canonical form: keys strictly rise and no listed entry is `d`. -/
def wf {α : Type} [DecidableEq α] (d : α) (t : Tab α) : Bool :=
  sortedFrom 0 t && t.all fun p => decide (p.2 ≠ d)

end Tab

/-! ### Bit fields -/

/-- Bits `hi:lo` of `v` as a number (R5). -/
def bits (v : Word) (hi lo : Nat) : Nat := (v.toNat >>> lo) % 2 ^ (hi + 1 - lo)

/-- `v` with bits `hi:lo` replaced by `x` (R5). -/
def setBits (v : Word) (hi lo x : Nat) : Word :=
  let m := 2 ^ (hi + 1 - lo)
  BitVec.ofNat 64 ((v.toNat >>> (hi + 1)) <<< (hi + 1) + (x % m) <<< lo + v.toNat % 2 ^ lo)

/-- Bit `i` of `v`. -/
def bit (v : Word) (i : Nat) : Bool := v.getLsbD i

/-- Bits `hi:lo` of a number. -/
def nbits (v hi lo : Nat) : Nat := (v >>> lo) % 2 ^ (hi + 1 - lo)

/-- Bit `i` of a number. -/
def nbit (v i : Nat) : Bool := v.testBit i

/-- 1 for true and 0 for false. -/
def b2n (b : Bool) : Nat := if b then 1 else 0

/-- A count of `n` bits that saturates at its all-ones value (R483). -/
def satAdd (n a k : Nat) : Nat := min (a + k) (2 ^ n - 1)

/-- `a` rounded up to a multiple of `b`, divided by `b`. -/
def ceilDiv (a b : Nat) : Nat := (a + b - 1) / b

/-- The two's complement reading of the low `n` bits of `v`. -/
def sext (n v : Nat) : Int :=
  let u := v % 2 ^ n
  if 2 ^ (n - 1) ≤ u then (u : Int) - (2 ^ n : Nat) else u

/-- A signed number as a 64-bit word, modulo 2^64 (R210). -/
def ofInt (x : Int) : Word := BitVec.ofInt 64 x

/-! ### Bytes -/

/-- `n` bytes of `v`, least significant first (R5). -/
def leBytes : Nat → Nat → List Byte
  | 0, _ => []
  | n + 1, v => BitVec.ofNat 8 v :: leBytes n (v / 256)

/-- The number that little-endian bytes hold (R5). -/
def ofLE : List Byte → Nat
  | [] => 0
  | b :: t => b.toNat + 256 * ofLE t

/-- `n` bytes of `v`, most significant first (the wire order of R62, R169 and R371). -/
def beBytes (n v : Nat) : List Byte := (leBytes n v).reverse

/-- The number that big-endian bytes hold. -/
def ofBE (l : List Byte) : Nat := ofLE l.reverse

/-- The `n` bytes of `l` from offset `i` on, little-endian. -/
def leAt (l : List Byte) (i n : Nat) : Nat := ofLE ((l.drop i).take n)

/-- `n` zero bytes. -/
def zeros (n : Nat) : List Byte := List.replicate n 0

/-- The numbers from `a` up, `n` of them. -/
def upto (a n : Nat) : List Nat := (List.range n).map (a + ·)

/-- Replace element `i` of a list. -/
def listSet {α : Type} (l : List α) (i : Nat) (v : α) : List α := l.set i v

/-- The number of 1 bits among the low `n` bits of `v`. -/
def popcount : Nat → Nat → Nat
  | 0, _ => 0
  | n + 1, v => v % 2 + popcount n (v / 2)

/-- The low `n` bits of `v` in reverse order. -/
def revBits : Nat → Nat → Nat
  | 0, _ => 0
  | n + 1, v => (v % 2) * 2 ^ n + revBits n (v / 2)

end Sys2Proof
end

