-- ==== Sys2Proof/Machine/Regs.lean ====
section
/-! DEFINITION. The register map of R473 to R478: every register by name, its fields, access types and reset values (R7, R8), and where each lies. -/

namespace Sys2Proof

/-- Every register of R473, named BLOCK_REGISTER; a wide register has one name for each 8-byte word (R478). -/
inductive RegName where
  | SYS_READY | SYS_MODE | SYS_MODETS | SYS_MODEREQ | IDREV_IDREV | IDREV_SERNO_W0 | IDREV_SERNO_W1 | BOOT_STAT
  | BOOT_CTL | PWR_VID | PWR_THERM | PWR_LPCTL | KPR_MEAS | KPR_RSTCTL | KPR_RSTCNT | KPR_KCTL | KPR_KSTAT | KPR_KCMD
  | KPR_EXTDATA | KPR_EXTEND | MOR_CLS | MOR_CLSTS | MOR_SUMMARY | MOR_CTL | MOR_LOGBASE | MOR_LOGCTL | MOR_LOGHEAD
  | MOR_LOGTAIL | MOR_DROPCNT | MOR_FATAL | DBG_GRANT | DBG_EXPIRE | DBG_STAT | DBG_HALT | DBG_BP | TRC_CTL
  | TRC_SRCEN0 | TRC_SRCEN1 | TRC_SRCEN2 | TRC_SRCEN3 | TRC_RINGBASE | TRC_RINGCTL | TRC_RINGHEAD | TRC_RINGTAIL
  | TIM_NOW | TIM_SET | TIM_CTL | TIM_STAT | TIM_FREQ | TIM_OFFSET | TIM_PPSOUT | SAS_CTL | SAS_STAT | SAS_SLOT
  | SAS_CMDQ | SAS_SMP | SAS_TCMB | SAS_DISCCNT | SAS_VICTCNT | SAS_DRIFTCNT | SAS_CRCERR | PLK_CTL | PLK_STAT
  | PLK_CLAIM | PLK_SEG | PLK_SASSEG | PLK_CHSPLIT | PLK_RETCTL | PLK_CMD | PLK_SHNS | PLK_REPLAYCNT | PLK_NAKCNT
  | PLK_HBMISS | KDF_CMD | KDF_CTL | KDF_EPBASE | KDF_PURPCTL | KDF_ROOTID | KDF_HITCNT | KDF_MISSCNT | KDF_RKDATA
  | KDF_RKCMD | WLD_CMD | WLD_TBASE | WLD_SEL | WLD_STAT | WLD_CNT | WLD_SVCCTL | WLD_LOADCMD | OWN_RGNA | OWN_RGNB
  | OWN_TBASE | OWN_CTL | OWN_CMD | OWN_CMDADDR | OWN_PINOWN | PMU_CRNSEL | PMU_CRNCNT | PMU_CRNFIX | PMU_FLOBANK
  | PMU_FLOSEL | PMU_FLOCNT | PMU_FLOFIX | PMU_ENGSEL | PMU_ENGCNT | PMU_PRTSEL | PMU_PRTCNT | PMU_CMD | PMU_SNAPTS
  | PMU_SNAPV | PMU_WBASE | CIO_CFG | CIO_STAT | CIO_CAP | CIO_CAPINFO | CIO_CMP | CIO_CMPPER | CIO_TMRNEXT | CIO_PWM
  | CIO_TMRCTL | CIO_BIND | CIO_LOOP | CHN_CTXBASE | CHN_CTXCMD | CHN_DISPCTL | CHN_TOCTL | CHN_AUDCMD | CHN_AUDSTAT
  | CHN_AUDTS | CHN_AUDV | CHN_CRPCTL | CHN_KACTL | CHN_JBASE | CHN_JMBASE | CHN_JCTL | CHN_JNS | CHN_JSTAT
  | CHN_REPLAYCTL | CHN_ENGMAP | CHN_UCLOAD | CHN_UCSTAT | CHN_UCREV | CHN_IFCTL | NEVE_SPILLCTL | NEVE_SPILLBASE
  | NEVE_SPILLSIZE | NEVE_SPILLFULL | NEVE_ALLOCSTAT | NEVE_NOBUFCNT | CMP_SAVEBASE | CMP_ENGSTAT | CMP_RAWCNT
  | CMP_SUSPCNT | CMP_EXTNOBUF | CMP_DECFAIL | CIP_IVCTL | CIP_IVFLOOR | CIP_AUTHFAIL | CIP_SUSPCNT | CIP_SUSPFULL
  | FLO_KTBASE | FLO_XWORD | FLO_XCHG | FLO_L2MASK | FLO_L2DEF | FLO_CORESTAT | FLO_SEGCNT | FLO_SWITCHCNT
  | FLO_KFAULTCNT | FLO_HTBASE | FLO_HTCTL | FLO_L2CTL | FLO_PFCTL | FLO_PFDROP | FLO_MAP | CRN_IROUTE | CRN_IPI
  | CRN_UCREV | CRN_UCLOAD | CRN_UCSTAT | CRN_CKCTL | CRN_RETRYCNT | CRN_L2CTL | CRN_L1CMD | CRN_PFCTL | CRN_PFDROP
  | CRN_ATOMCTL | CRN_PAIRCTL | CRN_PAIRSTAT | CRN_MAP | SNP_CTL | SNP_SLICECTL | COH_CTL | COH_DIRCNT | COH_VBFULL
  | ETH_PORTCFG | ETH_ADDR_W0 | ETH_ADDR_W1 | ETH_ADDR_W2 | ETH_ADDR_W3 | ETH_QPBASE | ETH_QPCMD | ETH_QPDROP
  | ETH_TXTS_W0 | ETH_TXTS_W1 | PCI_PORTCFG | PCI_CTRLMAP | MEMH_CFG | MEMH_ECCCNT | MEMH_UECNT | MEMB_CFG
  | MEMB_ECCCNT | MEMB_UECNT
  deriving DecidableEq, Repr

/-- Access types (R8). -/
inductive Acc where
  | ro | rw | w1c | w1s | wo | rc
  deriving DecidableEq, Repr

/-- One field of a register: its bits, access type, reset value and reserved encodings (R7, R8, R11). -/
structure Fld where
  /-- The register. -/
  reg : RegName
  /-- Highest bit. -/
  hi : Nat
  /-- Lowest bit. -/
  lo : Nat
  /-- Access type. -/
  acc : Acc
  /-- Reset value; 0 for the marks X, S and F until the field is written, sampled or loaded (R7). -/
  rst : Nat := 0
  /-- Ranges of reserved encodings (R11). -/
  resv : List (Nat × Nat) := []
  deriving DecidableEq, Repr

/-! ### Fields by register -/

namespace F

/-- SYS.READY.PARTNER (R13). -/
def SYS_READY_PARTNER : Fld := ⟨.SYS_READY, 12, 12, .ro, 0, []⟩
/-- SYS.READY.SUBSYS (R13). -/
def SYS_READY_SUBSYS : Fld := ⟨.SYS_READY, 11, 0, .ro, 0, []⟩
/-- SYS.MODE.TRANS (R22). -/
def SYS_MODE_TRANS : Fld := ⟨.SYS_MODE, 31, 24, .ro, 0, []⟩
/-- SYS.MODE.PREV (R22). -/
def SYS_MODE_PREV : Fld := ⟨.SYS_MODE, 23, 16, .ro, 0, []⟩
/-- SYS.MODE.FATAL (R22). -/
def SYS_MODE_FATAL : Fld := ⟨.SYS_MODE, 15, 15, .ro, 0, []⟩
/-- SYS.MODE.PAIRSTRAP (R22). -/
def SYS_MODE_PAIRSTRAP : Fld := ⟨.SYS_MODE, 14, 14, .ro, 0, []⟩
/-- SYS.MODE.CHG (R22). -/
def SYS_MODE_CHG : Fld := ⟨.SYS_MODE, 13, 13, .w1c, 0, []⟩
/-- SYS.MODE.REFUSED (R22). -/
def SYS_MODE_REFUSED : Fld := ⟨.SYS_MODE, 12, 12, .w1c, 0, []⟩
/-- SYS.MODE.RECOV (R22). -/
def SYS_MODE_RECOV : Fld := ⟨.SYS_MODE, 11, 11, .ro, 0, []⟩
/-- SYS.MODE.CUR (R22). -/
def SYS_MODE_CUR : Fld := ⟨.SYS_MODE, 7, 0, .ro, 1, []⟩
/-- SYS.MODETS.TS (R22). -/
def SYS_MODETS_TS : Fld := ⟨.SYS_MODETS, 63, 0, .ro, 0, []⟩
/-- SYS.MODEREQ.TARGET (R22). -/
def SYS_MODEREQ_TARGET : Fld := ⟨.SYS_MODEREQ, 7, 0, .wo, 0, []⟩
/-- IDREV.IDREV.VENDOR (R479). -/
def IDREV_IDREV_VENDOR : Fld := ⟨.IDREV_IDREV, 63, 48, .ro, 0, []⟩
/-- IDREV.IDREV.PART (R479). -/
def IDREV_IDREV_PART : Fld := ⟨.IDREV_IDREV, 47, 32, .ro, 0, []⟩
/-- IDREV.IDREV.MAJOR (R479). -/
def IDREV_IDREV_MAJOR : Fld := ⟨.IDREV_IDREV, 31, 24, .ro, 0, []⟩
/-- IDREV.IDREV.MINOR (R479). -/
def IDREV_IDREV_MINOR : Fld := ⟨.IDREV_IDREV, 23, 16, .ro, 0, []⟩
/-- IDREV.IDREV.CONFIG (R479). -/
def IDREV_IDREV_CONFIG : Fld := ⟨.IDREV_IDREV, 15, 8, .ro, 0, []⟩
/-- IDREV.IDREV.TSHLVL (R479). -/
def IDREV_IDREV_TSHLVL : Fld := ⟨.IDREV_IDREV, 7, 0, .ro, 0, []⟩
/-- IDREV.SERNO_W0.SERIAL (R479). -/
def IDREV_SERNO_W0_SERIAL : Fld := ⟨.IDREV_SERNO_W0, 63, 0, .ro, 0, []⟩
/-- IDREV.SERNO_W1.LOT (R479). -/
def IDREV_SERNO_W1_LOT : Fld := ⟨.IDREV_SERNO_W1, 63, 32, .ro, 0, []⟩
/-- IDREV.SERNO_W1.WAFER (R479). -/
def IDREV_SERNO_W1_WAFER : Fld := ⟨.IDREV_SERNO_W1, 31, 24, .ro, 0, []⟩
/-- IDREV.SERNO_W1.DIEX (R479). -/
def IDREV_SERNO_W1_DIEX : Fld := ⟨.IDREV_SERNO_W1, 23, 16, .ro, 0, []⟩
/-- IDREV.SERNO_W1.DIEY (R479). -/
def IDREV_SERNO_W1_DIEY : Fld := ⟨.IDREV_SERNO_W1, 15, 8, .ro, 0, []⟩
/-- BOOT.STAT.STEP (R452). -/
def BOOT_STAT_STEP : Fld := ⟨.BOOT_STAT, 31, 28, .ro, 0, []⟩
/-- BOOT.STAT.FAIL (R452). -/
def BOOT_STAT_FAIL : Fld := ⟨.BOOT_STAT, 27, 24, .ro, 0, []⟩
/-- BOOT.STAT.SLOTFAIL (R452). -/
def BOOT_STAT_SLOTFAIL : Fld := ⟨.BOOT_STAT, 17, 16, .ro, 0, []⟩
/-- BOOT.STAT.BOOTED (R452). -/
def BOOT_STAT_BOOTED : Fld := ⟨.BOOT_STAT, 15, 15, .ro, 0, []⟩
/-- BOOT.STAT.SLOT (R452). -/
def BOOT_STAT_SLOT : Fld := ⟨.BOOT_STAT, 14, 14, .ro, 0, []⟩
/-- BOOT.CTL.GO (R452). -/
def BOOT_CTL_GO : Fld := ⟨.BOOT_CTL, 31, 31, .wo, 0, []⟩
/-- BOOT.CTL.ERR (R452). -/
def BOOT_CTL_ERR : Fld := ⟨.BOOT_CTL, 30, 30, .w1c, 0, []⟩
/-- BOOT.CTL.FIRST (R452). -/
def BOOT_CTL_FIRST : Fld := ⟨.BOOT_CTL, 29, 29, .rw, 0, []⟩
/-- BOOT.CTL.PWAIT (R452). -/
def BOOT_CTL_PWAIT : Fld := ⟨.BOOT_CTL, 15, 0, .rw, 2000, []⟩
/-- PWR.VID.MESH (R463). -/
def PWR_VID_MESH : Fld := ⟨.PWR_VID, 23, 16, .ro, 0, []⟩
/-- PWR.VID.CORE (R463). -/
def PWR_VID_CORE : Fld := ⟨.PWR_VID, 15, 8, .ro, 0, []⟩
/-- PWR.THERM.TRIP (R472). -/
def PWR_THERM_TRIP : Fld := ⟨.PWR_THERM, 31, 31, .ro, 0, []⟩
/-- PWR.THERM.WARN (R472). -/
def PWR_THERM_WARN : Fld := ⟨.PWR_THERM, 30, 30, .w1c, 0, []⟩
/-- PWR.THERM.WARNTH (R472). -/
def PWR_THERM_WARNTH : Fld := ⟨.PWR_THERM, 26, 16, .rw, 200, [(221, 1023)]⟩
/-- PWR.THERM.TMAX (R472). -/
def PWR_THERM_TMAX : Fld := ⟨.PWR_THERM, 10, 0, .ro, 0, []⟩
/-- PWR.LPCTL.DOZE (R427). -/
def PWR_LPCTL_DOZE : Fld := ⟨.PWR_LPCTL, 15, 0, .rw, 100, []⟩
/-- KPR.MEAS.WORD (R187). -/
def KPR_MEAS_WORD : Fld := ⟨.KPR_MEAS, 63, 0, .ro, 0, []⟩
/-- KPR.RSTCTL.GO (R187). -/
def KPR_RSTCTL_GO : Fld := ⟨.KPR_RSTCTL, 31, 31, .wo, 0, []⟩
/-- KPR.RSTCTL.DONE (R187). -/
def KPR_RSTCTL_DONE : Fld := ⟨.KPR_RSTCTL, 30, 30, .wo, 0, []⟩
/-- KPR.RSTCTL.RUN (R187). -/
def KPR_RSTCTL_RUN : Fld := ⟨.KPR_RSTCTL, 29, 29, .ro, 0, []⟩
/-- KPR.RSTCTL.LIMIT (R187). -/
def KPR_RSTCTL_LIMIT : Fld := ⟨.KPR_RSTCTL, 15, 0, .rw, 2000, [(0, 0)]⟩
/-- KPR.RSTCNT.COUNT (R187). -/
def KPR_RSTCNT_COUNT : Fld := ⟨.KPR_RSTCNT, 31, 0, .ro, 0, []⟩
/-- KPR.KCTL.HOLD (R358). -/
def KPR_KCTL_HOLD : Fld := ⟨.KPR_KCTL, 23, 8, .rw, 30, [(0, 0)]⟩
/-- KPR.KCTL.RANKB (R358). -/
def KPR_KCTL_RANKB : Fld := ⟨.KPR_KCTL, 7, 4, .rw, 7, []⟩
/-- KPR.KCTL.RANKA (R358). -/
def KPR_KCTL_RANKA : Fld := ⟨.KPR_KCTL, 3, 0, .rw, 8, []⟩
/-- KPR.KSTAT.ACTIVE (R358). -/
def KPR_KSTAT_ACTIVE : Fld := ⟨.KPR_KSTAT, 63, 63, .ro, 0, []⟩
/-- KPR.KSTAT.FSTATE (R358). -/
def KPR_KSTAT_FSTATE : Fld := ⟨.KPR_KSTAT, 62, 61, .ro, 0, []⟩
/-- KPR.KSTAT.CLAIMB (R358). -/
def KPR_KSTAT_CLAIMB : Fld := ⟨.KPR_KSTAT, 31, 16, .ro, 0, []⟩
/-- KPR.KSTAT.CLAIMA (R358). -/
def KPR_KSTAT_CLAIMA : Fld := ⟨.KPR_KSTAT, 15, 0, .ro, 0, []⟩
/-- KPR.KCMD.BUSY (R358). -/
def KPR_KCMD_BUSY : Fld := ⟨.KPR_KCMD, 31, 31, .ro, 0, []⟩
/-- KPR.KCMD.ERR (R358). -/
def KPR_KCMD_ERR : Fld := ⟨.KPR_KCMD, 30, 30, .w1c, 0, []⟩
/-- KPR.KCMD.HANDOVER (R358). -/
def KPR_KCMD_HANDOVER : Fld := ⟨.KPR_KCMD, 29, 29, .wo, 0, []⟩
/-- KPR.EXTDATA.WORD (R442). -/
def KPR_EXTDATA_WORD : Fld := ⟨.KPR_EXTDATA, 63, 0, .wo, 0, []⟩
/-- KPR.EXTEND.BUSY (R442). -/
def KPR_EXTEND_BUSY : Fld := ⟨.KPR_EXTEND, 31, 31, .ro, 0, []⟩
/-- KPR.EXTEND.ERR (R442). -/
def KPR_EXTEND_ERR : Fld := ⟨.KPR_EXTEND, 30, 30, .w1c, 0, []⟩
/-- KPR.EXTEND.GO (R442). -/
def KPR_EXTEND_GO : Fld := ⟨.KPR_EXTEND, 29, 29, .wo, 0, []⟩
/-- KPR.EXTEND.INDEX (R442). -/
def KPR_EXTEND_INDEX : Fld := ⟨.KPR_EXTEND, 1, 0, .rw, 3, []⟩
/-- MOR.CLS.PEND (R353). -/
def MOR_CLS_PEND : Fld := ⟨.MOR_CLS, 63, 63, .w1c, 0, []⟩
/-- MOR.CLS.OVERFLOW (R353). -/
def MOR_CLS_OVERFLOW : Fld := ⟨.MOR_CLS, 62, 62, .w1c, 0, []⟩
/-- MOR.CLS.ESC (R353). -/
def MOR_CLS_ESC : Fld := ⟨.MOR_CLS, 61, 61, .ro, 0, []⟩
/-- MOR.CLS.LEVEL (R353). -/
def MOR_CLS_LEVEL : Fld := ⟨.MOR_CLS, 57, 56, .ro, 0, []⟩
/-- MOR.CLS.SOURCE (R353). -/
def MOR_CLS_SOURCE : Fld := ⟨.MOR_CLS, 55, 44, .ro, 0, []⟩
/-- MOR.CLS.SUBCODE (R353). -/
def MOR_CLS_SUBCODE : Fld := ⟨.MOR_CLS, 43, 36, .ro, 0, []⟩
/-- MOR.CLS.COUNT (R353). -/
def MOR_CLS_COUNT : Fld := ⟨.MOR_CLS, 31, 0, .ro, 0, []⟩
/-- MOR.CLSTS.TS (R353). -/
def MOR_CLSTS_TS : Fld := ⟨.MOR_CLSTS, 63, 0, .ro, 0, []⟩
/-- MOR.SUMMARY.PEND (R353). -/
def MOR_SUMMARY_PEND : Fld := ⟨.MOR_SUMMARY, 63, 0, .ro, 0, []⟩
/-- MOR.CTL.LOGEN (R353). -/
def MOR_CTL_LOGEN : Fld := ⟨.MOR_CTL, 31, 31, .rw, 0, []⟩
/-- MOR.CTL.NOTIFY (R353). -/
def MOR_CTL_NOTIFY : Fld := ⟨.MOR_CTL, 1, 0, .rw, 1, [(0, 0), (3, 3)]⟩
/-- MOR.LOGBASE.BASE (R353). -/
def MOR_LOGBASE_BASE : Fld := ⟨.MOR_LOGBASE, 45, 12, .rw, 0, []⟩
/-- MOR.LOGCTL.SIZE (R353). -/
def MOR_LOGCTL_SIZE : Fld := ⟨.MOR_LOGCTL, 4, 0, .rw, 12, [(0, 7), (21, 31)]⟩
/-- MOR.LOGHEAD.IDX (R353). -/
def MOR_LOGHEAD_IDX : Fld := ⟨.MOR_LOGHEAD, 19, 0, .ro, 0, []⟩
/-- MOR.LOGTAIL.IDX (R353). -/
def MOR_LOGTAIL_IDX : Fld := ⟨.MOR_LOGTAIL, 19, 0, .rw, 0, []⟩
/-- MOR.DROPCNT.COUNT (R353). -/
def MOR_DROPCNT_COUNT : Fld := ⟨.MOR_DROPCNT, 31, 0, .rc, 0, []⟩
/-- MOR.FATAL.WORD (R353). -/
def MOR_FATAL_WORD : Fld := ⟨.MOR_FATAL, 63, 0, .ro, 0, []⟩
/-- DBG.GRANT.LEVEL (R429). -/
def DBG_GRANT_LEVEL : Fld := ⟨.DBG_GRANT, 63, 62, .rw, 0, [(3, 3)]⟩
/-- DBG.GRANT.HALTLIM (R429). -/
def DBG_GRANT_HALTLIM : Fld := ⟨.DBG_GRANT, 61, 48, .rw, 0, []⟩
/-- DBG.GRANT.WORLD (R429). -/
def DBG_GRANT_WORLD : Fld := ⟨.DBG_GRANT, 47, 32, .rw, 0, []⟩
/-- DBG.GRANT.CODE (R429). -/
def DBG_GRANT_CODE : Fld := ⟨.DBG_GRANT, 31, 0, .wo, 0, []⟩
/-- DBG.EXPIRE.S (R429). -/
def DBG_EXPIRE_S : Fld := ⟨.DBG_EXPIRE, 31, 0, .rw, 0, []⟩
/-- DBG.STAT.LOCK (R429). -/
def DBG_STAT_LOCK : Fld := ⟨.DBG_STAT, 31, 31, .ro, 0, []⟩
/-- DBG.STAT.SESSION (R429). -/
def DBG_STAT_SESSION : Fld := ⟨.DBG_STAT, 30, 30, .ro, 0, []⟩
/-- DBG.STAT.LOCKOUT (R429). -/
def DBG_STAT_LOCKOUT : Fld := ⟨.DBG_STAT, 29, 29, .ro, 0, []⟩
/-- DBG.HALT.HALTED (R434). -/
def DBG_HALT_HALTED : Fld := ⟨.DBG_HALT, 31, 31, .ro, 0, []⟩
/-- DBG.HALT.REQ (R434). -/
def DBG_HALT_REQ : Fld := ⟨.DBG_HALT, 30, 30, .wo, 0, []⟩
/-- DBG.HALT.RESUME (R434). -/
def DBG_HALT_RESUME : Fld := ⟨.DBG_HALT, 29, 29, .wo, 0, []⟩
/-- DBG.HALT.STEP (R434). -/
def DBG_HALT_STEP : Fld := ⟨.DBG_HALT, 28, 28, .wo, 0, []⟩
/-- DBG.HALT.AUTOREL (R434). -/
def DBG_HALT_AUTOREL : Fld := ⟨.DBG_HALT, 27, 27, .w1c, 0, []⟩
/-- DBG.BP.EN (R434). -/
def DBG_BP_EN : Fld := ⟨.DBG_BP, 63, 63, .rw, 0, []⟩
/-- DBG.BP.PC (R434). -/
def DBG_BP_PC : Fld := ⟨.DBG_BP, 47, 2, .rw, 0, []⟩
/-- TRC.CTL.EN (R427). -/
def TRC_CTL_EN : Fld := ⟨.TRC_CTL, 31, 31, .rw, 0, []⟩
/-- TRC.CTL.WRAP (R427). -/
def TRC_CTL_WRAP : Fld := ⟨.TRC_CTL, 30, 30, .rw, 1, []⟩
/-- TRC.CTL.DRAIN (R427). -/
def TRC_CTL_DRAIN : Fld := ⟨.TRC_CTL, 29, 29, .rw, 0, []⟩
/-- TRC.CTL.WFILT (R427). -/
def TRC_CTL_WFILT : Fld := ⟨.TRC_CTL, 15, 0, .rw, 65535, []⟩
/-- TRC.SRCEN0.CORE (R427). -/
def TRC_SRCEN0_CORE : Fld := ⟨.TRC_SRCEN0, 31, 0, .rw, 0, []⟩
/-- TRC.SRCEN1.CORE (R427). -/
def TRC_SRCEN1_CORE : Fld := ⟨.TRC_SRCEN1, 3, 0, .rw, 0, []⟩
/-- TRC.SRCEN2.ENG (R427). -/
def TRC_SRCEN2_ENG : Fld := ⟨.TRC_SRCEN2, 63, 0, .rw, 0, []⟩
/-- TRC.SRCEN3.ENG (R427). -/
def TRC_SRCEN3_ENG : Fld := ⟨.TRC_SRCEN3, 3, 0, .rw, 0, []⟩
/-- TRC.RINGBASE.BASE (R427). -/
def TRC_RINGBASE_BASE : Fld := ⟨.TRC_RINGBASE, 45, 12, .rw, 0, []⟩
/-- TRC.RINGCTL.SIZE (R427). -/
def TRC_RINGCTL_SIZE : Fld := ⟨.TRC_RINGCTL, 4, 0, .rw, 8, [(17, 31)]⟩
/-- TRC.RINGHEAD.OFF (R427). -/
def TRC_RINGHEAD_OFF : Fld := ⟨.TRC_RINGHEAD, 27, 0, .ro, 0, []⟩
/-- TRC.RINGTAIL.OFF (R427). -/
def TRC_RINGTAIL_OFF : Fld := ⟨.TRC_RINGTAIL, 27, 0, .rw, 0, []⟩
/-- TIM.NOW.NS (R365). -/
def TIM_NOW_NS : Fld := ⟨.TIM_NOW, 63, 0, .ro, 0, []⟩
/-- TIM.SET.NS (R365). -/
def TIM_SET_NS : Fld := ⟨.TIM_SET, 63, 0, .wo, 0, []⟩
/-- TIM.CTL.EN (R365). -/
def TIM_CTL_EN : Fld := ⟨.TIM_CTL, 31, 31, .rw, 0, []⟩
/-- TIM.CTL.SRC (R365). -/
def TIM_CTL_SRC : Fld := ⟨.TIM_CTL, 27, 26, .rw, 0, []⟩
/-- TIM.CTL.SRC2 (R365). -/
def TIM_CTL_SRC2 : Fld := ⟨.TIM_CTL, 25, 24, .rw, 0, []⟩
/-- TIM.CTL.GAIN (R365). -/
def TIM_CTL_GAIN : Fld := ⟨.TIM_CTL, 23, 20, .rw, 3, []⟩
/-- TIM.CTL.STEPTHR (R365). -/
def TIM_CTL_STEPTHR : Fld := ⟨.TIM_CTL, 15, 0, .rw, 20, [(0, 0)]⟩
/-- TIM.STAT.LOCKED (R365). -/
def TIM_STAT_LOCKED : Fld := ⟨.TIM_STAT, 31, 31, .ro, 0, []⟩
/-- TIM.STAT.HOLDOVER (R365). -/
def TIM_STAT_HOLDOVER : Fld := ⟨.TIM_STAT, 30, 30, .ro, 0, []⟩
/-- TIM.STAT.ACTIVE (R365). -/
def TIM_STAT_ACTIVE : Fld := ⟨.TIM_STAT, 29, 28, .ro, 0, []⟩
/-- TIM.STAT.REFFAULT (R365). -/
def TIM_STAT_REFFAULT : Fld := ⟨.TIM_STAT, 27, 27, .w1c, 0, []⟩
/-- TIM.FREQ.FREQ (R365). -/
def TIM_FREQ_FREQ : Fld := ⟨.TIM_FREQ, 31, 0, .ro, 0, []⟩
/-- TIM.OFFSET.GO (R365). -/
def TIM_OFFSET_GO : Fld := ⟨.TIM_OFFSET, 63, 63, .wo, 0, []⟩
/-- TIM.OFFSET.INTERVAL (R365). -/
def TIM_OFFSET_INTERVAL : Fld := ⟨.TIM_OFFSET, 62, 48, .rw, 1000, [(0, 0)]⟩
/-- TIM.OFFSET.ERROR (R365). -/
def TIM_OFFSET_ERROR : Fld := ⟨.TIM_OFFSET, 39, 0, .rw, 0, []⟩
/-- TIM.PPSOUT.EN (R365). -/
def TIM_PPSOUT_EN : Fld := ⟨.TIM_PPSOUT, 31, 31, .rw, 1, []⟩
/-- TIM.PPSOUT.WIDTH (R365). -/
def TIM_PPSOUT_WIDTH : Fld := ⟨.TIM_PPSOUT, 19, 0, .rw, 100, []⟩
/-- SAS.CTL.EN (R379). -/
def SAS_CTL_EN : Fld := ⟨.SAS_CTL, 31, 31, .rw, 0, []⟩
/-- SAS.CTL.PHASE (R379). -/
def SAS_CTL_PHASE : Fld := ⟨.SAS_CTL, 25, 16, .rw, 0, [(1000, 1023)]⟩
/-- SAS.CTL.IDLELIM (R379). -/
def SAS_CTL_IDLELIM : Fld := ⟨.SAS_CTL, 15, 0, .rw, 1000, []⟩
/-- SAS.STAT.MASTER (R379). -/
def SAS_STAT_MASTER : Fld := ⟨.SAS_STAT, 31, 31, .ro, 0, []⟩
/-- SAS.STAT.BEACON (R379). -/
def SAS_STAT_BEACON : Fld := ⟨.SAS_STAT, 30, 30, .ro, 0, []⟩
/-- SAS.STAT.QFULL (R379). -/
def SAS_STAT_QFULL : Fld := ⟨.SAS_STAT, 29, 29, .w1c, 0, []⟩
/-- SAS.SLOT.STATE (R379). -/
def SAS_SLOT_STATE : Fld := ⟨.SAS_SLOT, 63, 62, .ro, 0, []⟩
/-- SAS.SLOT.PIN (R379). -/
def SAS_SLOT_PIN : Fld := ⟨.SAS_SLOT, 61, 61, .rw, 0, []⟩
/-- SAS.SLOT.DRIFT (R379). -/
def SAS_SLOT_DRIFT : Fld := ⟨.SAS_SLOT, 60, 60, .w1c, 0, []⟩
/-- SAS.SLOT.DISC (R379). -/
def SAS_SLOT_DISC : Fld := ⟨.SAS_SLOT, 59, 58, .ro, 0, []⟩
/-- SAS.SLOT.ADV (R379). -/
def SAS_SLOT_ADV : Fld := ⟨.SAS_SLOT, 55, 48, .ro, 0, []⟩
/-- SAS.SLOT.UID (R379). -/
def SAS_SLOT_UID : Fld := ⟨.SAS_SLOT, 47, 0, .rw, 0, []⟩
/-- SAS.CMDQ.SLOT (R379). -/
def SAS_CMDQ_SLOT : Fld := ⟨.SAS_CMDQ, 63, 56, .wo, 0, []⟩
/-- SAS.CMDQ.CODE (R379). -/
def SAS_CMDQ_CODE : Fld := ⟨.SAS_CMDQ, 55, 48, .wo, 0, []⟩
/-- SAS.CMDQ.INDEX (R379). -/
def SAS_CMDQ_INDEX : Fld := ⟨.SAS_CMDQ, 47, 40, .wo, 0, []⟩
/-- SAS.CMDQ.VALUE (R379). -/
def SAS_CMDQ_VALUE : Fld := ⟨.SAS_CMDQ, 31, 0, .wo, 0, []⟩
/-- SAS.SMP.EN (R379). -/
def SAS_SMP_EN : Fld := ⟨.SAS_SMP, 63, 63, .rw, 0, []⟩
/-- SAS.SMP.SIZE (R379). -/
def SAS_SMP_SIZE : Fld := ⟨.SAS_SMP, 62, 58, .rw, 10, [(0, 3), (17, 31)]⟩
/-- SAS.SMP.BASE (R379). -/
def SAS_SMP_BASE : Fld := ⟨.SAS_SMP, 45, 12, .rw, 0, []⟩
/-- SAS.TCMB.EN (R379). -/
def SAS_TCMB_EN : Fld := ⟨.SAS_TCMB, 31, 31, .rw, 0, []⟩
/-- SAS.TCMB.CORE (R379). -/
def SAS_TCMB_CORE : Fld := ⟨.SAS_TCMB, 30, 26, .rw, 0, []⟩
/-- SAS.TCMB.OFF (R379). -/
def SAS_TCMB_OFF : Fld := ⟨.SAS_TCMB, 16, 11, .rw, 0, []⟩
/-- SAS.DISCCNT.COUNT (R379). -/
def SAS_DISCCNT_COUNT : Fld := ⟨.SAS_DISCCNT, 31, 0, .rc, 0, []⟩
/-- SAS.VICTCNT.COUNT (R379). -/
def SAS_VICTCNT_COUNT : Fld := ⟨.SAS_VICTCNT, 31, 0, .rc, 0, []⟩
/-- SAS.DRIFTCNT.COUNT (R379). -/
def SAS_DRIFTCNT_COUNT : Fld := ⟨.SAS_DRIFTCNT, 31, 0, .rc, 0, []⟩
/-- SAS.CRCERR.COUNT (R379). -/
def SAS_CRCERR_COUNT : Fld := ⟨.SAS_CRCERR, 31, 0, .rc, 0, []⟩
/-- PLK.CTL.EN (R336). -/
def PLK_CTL_EN : Fld := ⟨.PLK_CTL, 31, 31, .rw, 1, []⟩
/-- PLK.CTL.WIT (R336). -/
def PLK_CTL_WIT : Fld := ⟨.PLK_CTL, 23, 20, .rw, 0, []⟩
/-- PLK.CTL.RANK (R336). -/
def PLK_CTL_RANK : Fld := ⟨.PLK_CTL, 19, 16, .rw, 0, []⟩
/-- PLK.CTL.VMAX (R336). -/
def PLK_CTL_VMAX : Fld := ⟨.PLK_CTL, 2, 0, .rw, 2, [(0, 0), (3, 7)]⟩
/-- PLK.STAT.LINK (R336). -/
def PLK_STAT_LINK : Fld := ⟨.PLK_STAT, 31, 29, .ro, 0, []⟩
/-- PLK.STAT.PAIRED (R336). -/
def PLK_STAT_PAIRED : Fld := ⟨.PLK_STAT, 28, 28, .ro, 0, []⟩
/-- PLK.STAT.VERSEL (R336). -/
def PLK_STAT_VERSEL : Fld := ⟨.PLK_STAT, 27, 25, .ro, 0, []⟩
/-- PLK.STAT.SILENT (R336). -/
def PLK_STAT_SILENT : Fld := ⟨.PLK_STAT, 24, 24, .ro, 0, []⟩
/-- PLK.STAT.DECIDE (R336). -/
def PLK_STAT_DECIDE : Fld := ⟨.PLK_STAT, 23, 23, .w1c, 0, []⟩
/-- PLK.STAT.REASON (R336). -/
def PLK_STAT_REASON : Fld := ⟨.PLK_STAT, 22, 20, .ro, 0, []⟩
/-- PLK.STAT.RESYNC (R336). -/
def PLK_STAT_RESYNC : Fld := ⟨.PLK_STAT, 19, 19, .ro, 0, []⟩
/-- PLK.STAT.PAIRFAIL (R336). -/
def PLK_STAT_PAIRFAIL : Fld := ⟨.PLK_STAT, 18, 18, .w1c, 0, []⟩
/-- PLK.CLAIM.OWN (R336). -/
def PLK_CLAIM_OWN : Fld := ⟨.PLK_CLAIM, 31, 16, .ro, 0, []⟩
/-- PLK.CLAIM.PARTNER (R336). -/
def PLK_CLAIM_PARTNER : Fld := ⟨.PLK_CLAIM, 15, 0, .ro, 0, []⟩
/-- PLK.SEG.HOME (R336). -/
def PLK_SEG_HOME : Fld := ⟨.PLK_SEG, 8, 8, .ro, 0, []⟩
/-- PLK.SEG.GATES (R336). -/
def PLK_SEG_GATES : Fld := ⟨.PLK_SEG, 5, 2, .ro, 0, []⟩
/-- PLK.SEG.SERVE (R336). -/
def PLK_SEG_SERVE : Fld := ⟨.PLK_SEG, 1, 0, .ro, 0, []⟩
/-- PLK.SASSEG.SEG (R336). -/
def PLK_SASSEG_SEG : Fld := ⟨.PLK_SASSEG, 3, 0, .rw, 3, []⟩
/-- PLK.CHSPLIT.SPLIT (R336). -/
def PLK_CHSPLIT_SPLIT : Fld := ⟨.PLK_CHSPLIT, 19, 0, .rw, 524288, []⟩
/-- PLK.RETCTL.AUTO (R336). -/
def PLK_RETCTL_AUTO : Fld := ⟨.PLK_RETCTL, 31, 31, .rw, 1, []⟩
/-- PLK.RETCTL.HOLD (R336). -/
def PLK_RETCTL_HOLD : Fld := ⟨.PLK_RETCTL, 30, 16, .rw, 30, [(0, 0)]⟩
/-- PLK.RETCTL.DRAIN (R336). -/
def PLK_RETCTL_DRAIN : Fld := ⟨.PLK_RETCTL, 15, 0, .rw, 1000, []⟩
/-- PLK.CMD.BUSY (R336). -/
def PLK_CMD_BUSY : Fld := ⟨.PLK_CMD, 31, 31, .ro, 0, []⟩
/-- PLK.CMD.ERR (R336). -/
def PLK_CMD_ERR : Fld := ⟨.PLK_CMD, 30, 30, .w1c, 0, []⟩
/-- PLK.CMD.OP (R336). -/
def PLK_CMD_OP : Fld := ⟨.PLK_CMD, 27, 24, .wo, 0, [(4, 15)]⟩
/-- PLK.SHNS.EN (R336). -/
def PLK_SHNS_EN : Fld := ⟨.PLK_SHNS, 63, 63, .rw, 0, []⟩
/-- PLK.SHNS.PORT (R336). -/
def PLK_SHNS_PORT : Fld := ⟨.PLK_SHNS, 42, 40, .rw, 0, []⟩
/-- PLK.SHNS.NSID (R336). -/
def PLK_SHNS_NSID : Fld := ⟨.PLK_SHNS, 39, 8, .rw, 0, []⟩
/-- PLK.REPLAYCNT.COUNT (R336). -/
def PLK_REPLAYCNT_COUNT : Fld := ⟨.PLK_REPLAYCNT, 31, 0, .rc, 0, []⟩
/-- PLK.NAKCNT.COUNT (R336). -/
def PLK_NAKCNT_COUNT : Fld := ⟨.PLK_NAKCNT, 31, 0, .rc, 0, []⟩
/-- PLK.HBMISS.COUNT (R336). -/
def PLK_HBMISS_COUNT : Fld := ⟨.PLK_HBMISS, 31, 0, .rc, 0, []⟩
/-- KDF.CMD.BUSY (R139). -/
def KDF_CMD_BUSY : Fld := ⟨.KDF_CMD, 63, 63, .ro, 0, []⟩
/-- KDF.CMD.ERR (R139). -/
def KDF_CMD_ERR : Fld := ⟨.KDF_CMD, 62, 62, .w1c, 0, []⟩
/-- KDF.CMD.OP (R139). -/
def KDF_CMD_OP : Fld := ⟨.KDF_CMD, 59, 56, .wo, 0, [(6, 15)]⟩
/-- KDF.CMD.PURP (R139). -/
def KDF_CMD_PURP : Fld := ⟨.KDF_CMD, 55, 48, .rw, 0, []⟩
/-- KDF.CMD.EPOCH (R139). -/
def KDF_CMD_EPOCH : Fld := ⟨.KDF_CMD, 47, 32, .rw, 0, []⟩
/-- KDF.CMD.WORLD (R139). -/
def KDF_CMD_WORLD : Fld := ⟨.KDF_CMD, 15, 0, .rw, 0, []⟩
/-- KDF.CTL.EN (R139). -/
def KDF_CTL_EN : Fld := ⟨.KDF_CTL, 0, 0, .rw, 0, []⟩
/-- KDF.EPBASE.BASE (R139). -/
def KDF_EPBASE_BASE : Fld := ⟨.KDF_EPBASE, 45, 20, .rw, 0, []⟩
/-- KDF.PURPCTL.PERIOD (R139). -/
def KDF_PURPCTL_PERIOD : Fld := ⟨.KDF_PURPCTL, 63, 32, .rw, 0, []⟩
/-- KDF.PURPCTL.GRACE (R139). -/
def KDF_PURPCTL_GRACE : Fld := ⟨.KDF_PURPCTL, 31, 16, .rw, 0, []⟩
/-- KDF.ROOTID.ID (R139). -/
def KDF_ROOTID_ID : Fld := ⟨.KDF_ROOTID, 31, 0, .ro, 0, []⟩
/-- KDF.HITCNT.COUNT (R139). -/
def KDF_HITCNT_COUNT : Fld := ⟨.KDF_HITCNT, 31, 0, .rc, 0, []⟩
/-- KDF.MISSCNT.COUNT (R139). -/
def KDF_MISSCNT_COUNT : Fld := ⟨.KDF_MISSCNT, 31, 0, .rc, 0, []⟩
/-- KDF.RKDATA.WORD (R443). -/
def KDF_RKDATA_WORD : Fld := ⟨.KDF_RKDATA, 63, 0, .wo, 0, []⟩
/-- KDF.RKCMD.BUSY (R443). -/
def KDF_RKCMD_BUSY : Fld := ⟨.KDF_RKCMD, 31, 31, .ro, 0, []⟩
/-- KDF.RKCMD.ERR (R443). -/
def KDF_RKCMD_ERR : Fld := ⟨.KDF_RKCMD, 30, 30, .w1c, 0, []⟩
/-- KDF.RKCMD.GO (R443). -/
def KDF_RKCMD_GO : Fld := ⟨.KDF_RKCMD, 29, 29, .wo, 0, []⟩
/-- KDF.RKCMD.BLANK (R443). -/
def KDF_RKCMD_BLANK : Fld := ⟨.KDF_RKCMD, 28, 28, .ro, 0, []⟩
/-- WLD.CMD.BUSY (R165). -/
def WLD_CMD_BUSY : Fld := ⟨.WLD_CMD, 63, 63, .ro, 0, []⟩
/-- WLD.CMD.ERR (R165). -/
def WLD_CMD_ERR : Fld := ⟨.WLD_CMD, 62, 62, .w1c, 0, []⟩
/-- WLD.CMD.OP (R165). -/
def WLD_CMD_OP : Fld := ⟨.WLD_CMD, 59, 56, .wo, 0, [(7, 15)]⟩
/-- WLD.CMD.SLOT (R165). -/
def WLD_CMD_SLOT : Fld := ⟨.WLD_CMD, 55, 44, .rw, 0, []⟩
/-- WLD.CMD.WORLD (R165). -/
def WLD_CMD_WORLD : Fld := ⟨.WLD_CMD, 15, 0, .rw, 0, []⟩
/-- WLD.TBASE.BASE (R165). -/
def WLD_TBASE_BASE : Fld := ⟨.WLD_TBASE, 45, 18, .rw, 0, []⟩
/-- WLD.SEL.WORLD (R166). -/
def WLD_SEL_WORLD : Fld := ⟨.WLD_SEL, 15, 0, .rw, 0, []⟩
/-- WLD.STAT.WSTATE (R166). -/
def WLD_STAT_WSTATE : Fld := ⟨.WLD_STAT, 63, 56, .ro, 0, []⟩
/-- WLD.STAT.THROTTLE (R166). -/
def WLD_STAT_THROTTLE : Fld := ⟨.WLD_STAT, 51, 51, .ro, 0, []⟩
/-- WLD.STAT.NOBUFW (R166). -/
def WLD_STAT_NOBUFW : Fld := ⟨.WLD_STAT, 50, 50, .ro, 0, []⟩
/-- WLD.STAT.NOCTXW (R166). -/
def WLD_STAT_NOCTXW : Fld := ⟨.WLD_STAT, 49, 49, .ro, 0, []⟩
/-- WLD.STAT.NOSLOTW (R166). -/
def WLD_STAT_NOSLOTW : Fld := ⟨.WLD_STAT, 48, 48, .ro, 0, []⟩
/-- WLD.STAT.OPENCH (R166). -/
def WLD_STAT_OPENCH : Fld := ⟨.WLD_STAT, 43, 24, .ro, 0, []⟩
/-- WLD.STAT.PAGES (R166). -/
def WLD_STAT_PAGES : Fld := ⟨.WLD_STAT, 23, 0, .ro, 0, []⟩
/-- WLD.CNT.COUNT (R166). -/
def WLD_CNT_COUNT : Fld := ⟨.WLD_CNT, 63, 0, .ro, 0, []⟩
/-- WLD.SVCCTL.HOLD (R170). -/
def WLD_SVCCTL_HOLD : Fld := ⟨.WLD_SVCCTL, 15, 0, .rw, 20, [(0, 0)]⟩
/-- WLD.LOADCMD.BUSY (R171). -/
def WLD_LOADCMD_BUSY : Fld := ⟨.WLD_LOADCMD, 63, 63, .ro, 0, []⟩
/-- WLD.LOADCMD.ERR (R171). -/
def WLD_LOADCMD_ERR : Fld := ⟨.WLD_LOADCMD, 62, 62, .w1c, 0, []⟩
/-- WLD.LOADCMD.DESC (R171). -/
def WLD_LOADCMD_DESC : Fld := ⟨.WLD_LOADCMD, 45, 6, .wo, 0, []⟩
/-- OWN.RGNA.EN (R175). -/
def OWN_RGNA_EN : Fld := ⟨.OWN_RGNA, 63, 63, .rw, 0, []⟩
/-- OWN.RGNA.MTYPE (R175). -/
def OWN_RGNA_MTYPE : Fld := ⟨.OWN_RGNA, 62, 61, .rw, 0, [(2, 3)]⟩
/-- OWN.RGNA.START (R175). -/
def OWN_RGNA_START : Fld := ⟨.OWN_RGNA, 45, 21, .rw, 0, []⟩
/-- OWN.RGNB.INDEX (R175). -/
def OWN_RGNB_INDEX : Fld := ⟨.OWN_RGNB, 63, 32, .rw, 0, []⟩
/-- OWN.RGNB.SIZE (R175). -/
def OWN_RGNB_SIZE : Fld := ⟨.OWN_RGNB, 24, 0, .rw, 0, []⟩
/-- OWN.TBASE.BASE (R175). -/
def OWN_TBASE_BASE : Fld := ⟨.OWN_TBASE, 45, 12, .rw, 0, []⟩
/-- OWN.CTL.EN (R175). -/
def OWN_CTL_EN : Fld := ⟨.OWN_CTL, 0, 0, .w1s, 0, []⟩
/-- OWN.CMD.BUSY (R178). -/
def OWN_CMD_BUSY : Fld := ⟨.OWN_CMD, 63, 63, .ro, 0, []⟩
/-- OWN.CMD.ERR (R178). -/
def OWN_CMD_ERR : Fld := ⟨.OWN_CMD, 62, 62, .w1c, 0, []⟩
/-- OWN.CMD.OP (R178). -/
def OWN_CMD_OP : Fld := ⟨.OWN_CMD, 61, 58, .wo, 0, [(7, 15)]⟩
/-- OWN.CMD.RIGHTS (R178). -/
def OWN_CMD_RIGHTS : Fld := ⟨.OWN_CMD, 57, 54, .rw, 0, []⟩
/-- OWN.CMD.KSEL (R178). -/
def OWN_CMD_KSEL : Fld := ⟨.OWN_CMD, 53, 50, .rw, 0, []⟩
/-- OWN.CMD.WORLD (R178). -/
def OWN_CMD_WORLD : Fld := ⟨.OWN_CMD, 49, 34, .rw, 0, []⟩
/-- OWN.CMD.COUNT (R178). -/
def OWN_CMD_COUNT : Fld := ⟨.OWN_CMD, 19, 0, .rw, 0, [(0, 0)]⟩
/-- OWN.CMDADDR.ADDR (R178). -/
def OWN_CMDADDR_ADDR : Fld := ⟨.OWN_CMDADDR, 45, 12, .rw, 0, []⟩
/-- OWN.PINOWN.WORLD (R183). -/
def OWN_PINOWN_WORLD : Fld := ⟨.OWN_PINOWN, 31, 16, .rw, 65535, []⟩
/-- OWN.PINOWN.DRIVE (R183). -/
def OWN_PINOWN_DRIVE : Fld := ⟨.OWN_PINOWN, 1, 1, .rw, 0, []⟩
/-- OWN.PINOWN.SENSE (R183). -/
def OWN_PINOWN_SENSE : Fld := ⟨.OWN_PINOWN, 0, 0, .rw, 0, []⟩
/-- PMU.CRNSEL.EN (R416). -/
def PMU_CRNSEL_EN : Fld := ⟨.PMU_CRNSEL, 63, 63, .rw, 0, []⟩
/-- PMU.CRNSEL.MODE (R416). -/
def PMU_CRNSEL_MODE : Fld := ⟨.PMU_CRNSEL, 62, 61, .rw, 0, []⟩
/-- PMU.CRNSEL.THR (R416). -/
def PMU_CRNSEL_THR : Fld := ⟨.PMU_CRNSEL, 23, 12, .rw, 0, []⟩
/-- PMU.CRNSEL.EVENT (R416). -/
def PMU_CRNSEL_EVENT : Fld := ⟨.PMU_CRNSEL, 10, 0, .rw, 0, []⟩
/-- PMU.CRNCNT.OVF (R416). -/
def PMU_CRNCNT_OVF : Fld := ⟨.PMU_CRNCNT, 63, 63, .w1c, 0, []⟩
/-- PMU.CRNCNT.OVIE (R416). -/
def PMU_CRNCNT_OVIE : Fld := ⟨.PMU_CRNCNT, 62, 62, .rw, 0, []⟩
/-- PMU.CRNCNT.COUNT (R416). -/
def PMU_CRNCNT_COUNT : Fld := ⟨.PMU_CRNCNT, 47, 0, .rw, 0, []⟩
/-- PMU.CRNFIX.OVF (R416). -/
def PMU_CRNFIX_OVF : Fld := ⟨.PMU_CRNFIX, 63, 63, .w1c, 0, []⟩
/-- PMU.CRNFIX.OVIE (R416). -/
def PMU_CRNFIX_OVIE : Fld := ⟨.PMU_CRNFIX, 62, 62, .rw, 0, []⟩
/-- PMU.CRNFIX.COUNT (R416). -/
def PMU_CRNFIX_COUNT : Fld := ⟨.PMU_CRNFIX, 47, 0, .rw, 0, []⟩
/-- PMU.FLOBANK.B (R476). -/
def PMU_FLOBANK_B : Fld := ⟨.PMU_FLOBANK, 5, 0, .rw, 0, []⟩
/-- PMU.FLOSEL.EN (R416). -/
def PMU_FLOSEL_EN : Fld := ⟨.PMU_FLOSEL, 63, 63, .rw, 0, []⟩
/-- PMU.FLOSEL.MODE (R416). -/
def PMU_FLOSEL_MODE : Fld := ⟨.PMU_FLOSEL, 62, 61, .rw, 0, []⟩
/-- PMU.FLOSEL.THR (R416). -/
def PMU_FLOSEL_THR : Fld := ⟨.PMU_FLOSEL, 23, 12, .rw, 0, []⟩
/-- PMU.FLOSEL.EVENT (R416). -/
def PMU_FLOSEL_EVENT : Fld := ⟨.PMU_FLOSEL, 10, 0, .rw, 0, []⟩
/-- PMU.FLOCNT.OVF (R416). -/
def PMU_FLOCNT_OVF : Fld := ⟨.PMU_FLOCNT, 63, 63, .w1c, 0, []⟩
/-- PMU.FLOCNT.OVIE (R416). -/
def PMU_FLOCNT_OVIE : Fld := ⟨.PMU_FLOCNT, 62, 62, .rw, 0, []⟩
/-- PMU.FLOCNT.COUNT (R416). -/
def PMU_FLOCNT_COUNT : Fld := ⟨.PMU_FLOCNT, 47, 0, .rw, 0, []⟩
/-- PMU.FLOFIX.OVF (R416). -/
def PMU_FLOFIX_OVF : Fld := ⟨.PMU_FLOFIX, 63, 63, .w1c, 0, []⟩
/-- PMU.FLOFIX.OVIE (R416). -/
def PMU_FLOFIX_OVIE : Fld := ⟨.PMU_FLOFIX, 62, 62, .rw, 0, []⟩
/-- PMU.FLOFIX.COUNT (R416). -/
def PMU_FLOFIX_COUNT : Fld := ⟨.PMU_FLOFIX, 47, 0, .rw, 0, []⟩
/-- PMU.ENGSEL.EN (R416). -/
def PMU_ENGSEL_EN : Fld := ⟨.PMU_ENGSEL, 63, 63, .rw, 0, []⟩
/-- PMU.ENGSEL.MODE (R416). -/
def PMU_ENGSEL_MODE : Fld := ⟨.PMU_ENGSEL, 62, 61, .rw, 0, []⟩
/-- PMU.ENGSEL.THR (R416). -/
def PMU_ENGSEL_THR : Fld := ⟨.PMU_ENGSEL, 23, 12, .rw, 0, []⟩
/-- PMU.ENGSEL.EVENT (R416). -/
def PMU_ENGSEL_EVENT : Fld := ⟨.PMU_ENGSEL, 10, 0, .rw, 0, []⟩
/-- PMU.ENGCNT.OVF (R416). -/
def PMU_ENGCNT_OVF : Fld := ⟨.PMU_ENGCNT, 63, 63, .w1c, 0, []⟩
/-- PMU.ENGCNT.OVIE (R416). -/
def PMU_ENGCNT_OVIE : Fld := ⟨.PMU_ENGCNT, 62, 62, .rw, 0, []⟩
/-- PMU.ENGCNT.COUNT (R416). -/
def PMU_ENGCNT_COUNT : Fld := ⟨.PMU_ENGCNT, 47, 0, .rw, 0, []⟩
/-- PMU.PRTSEL.EN (R416). -/
def PMU_PRTSEL_EN : Fld := ⟨.PMU_PRTSEL, 63, 63, .rw, 0, []⟩
/-- PMU.PRTSEL.MODE (R416). -/
def PMU_PRTSEL_MODE : Fld := ⟨.PMU_PRTSEL, 62, 61, .rw, 0, []⟩
/-- PMU.PRTSEL.THR (R416). -/
def PMU_PRTSEL_THR : Fld := ⟨.PMU_PRTSEL, 23, 12, .rw, 0, []⟩
/-- PMU.PRTSEL.EVENT (R416). -/
def PMU_PRTSEL_EVENT : Fld := ⟨.PMU_PRTSEL, 10, 0, .rw, 0, []⟩
/-- PMU.PRTCNT.OVF (R416). -/
def PMU_PRTCNT_OVF : Fld := ⟨.PMU_PRTCNT, 63, 63, .w1c, 0, []⟩
/-- PMU.PRTCNT.OVIE (R416). -/
def PMU_PRTCNT_OVIE : Fld := ⟨.PMU_PRTCNT, 62, 62, .rw, 0, []⟩
/-- PMU.PRTCNT.COUNT (R416). -/
def PMU_PRTCNT_COUNT : Fld := ⟨.PMU_PRTCNT, 47, 0, .rw, 0, []⟩
/-- PMU.CMD.BUSY (R423). -/
def PMU_CMD_BUSY : Fld := ⟨.PMU_CMD, 63, 63, .ro, 0, []⟩
/-- PMU.CMD.ERR (R423). -/
def PMU_CMD_ERR : Fld := ⟨.PMU_CMD, 62, 62, .w1c, 0, []⟩
/-- PMU.CMD.OP (R423). -/
def PMU_CMD_OP : Fld := ⟨.PMU_CMD, 59, 56, .wo, 0, [(5, 15)]⟩
/-- PMU.CMD.KIND (R423). -/
def PMU_CMD_KIND : Fld := ⟨.PMU_CMD, 55, 54, .rw, 0, []⟩
/-- PMU.CMD.INDEX (R423). -/
def PMU_CMD_INDEX : Fld := ⟨.PMU_CMD, 53, 44, .rw, 0, []⟩
/-- PMU.CMD.SLOT (R423). -/
def PMU_CMD_SLOT : Fld := ⟨.PMU_CMD, 11, 0, .rw, 0, []⟩
/-- PMU.SNAPTS.T (R423). -/
def PMU_SNAPTS_T : Fld := ⟨.PMU_SNAPTS, 63, 0, .ro, 0, []⟩
/-- PMU.SNAPV.COUNT (R423). -/
def PMU_SNAPV_COUNT : Fld := ⟨.PMU_SNAPV, 47, 0, .ro, 0, []⟩
/-- PMU.WBASE.BASE (R423). -/
def PMU_WBASE_BASE : Fld := ⟨.PMU_WBASE, 45, 20, .rw, 0, []⟩
/-- CIO.CFG.IEEDGE (R387). -/
def CIO_CFG_IEEDGE : Fld := ⟨.CIO_CFG, 31, 31, .rw, 0, []⟩
/-- CIO.CFG.IECMP (R387). -/
def CIO_CFG_IECMP : Fld := ⟨.CIO_CFG, 30, 30, .rw, 0, []⟩
/-- CIO.CFG.IETMR (R387). -/
def CIO_CFG_IETMR : Fld := ⟨.CIO_CFG, 29, 29, .rw, 0, []⟩
/-- CIO.CFG.FILT (R387). -/
def CIO_CFG_FILT : Fld := ⟨.CIO_CFG, 23, 16, .rw, 0, []⟩
/-- CIO.CFG.CMPACT (R387). -/
def CIO_CFG_CMPACT : Fld := ⟨.CIO_CFG, 13, 12, .rw, 0, []⟩
/-- CIO.CFG.EDGE (R387). -/
def CIO_CFG_EDGE : Fld := ⟨.CIO_CFG, 9, 8, .rw, 0, []⟩
/-- CIO.CFG.OUTVAL (R387). -/
def CIO_CFG_OUTVAL : Fld := ⟨.CIO_CFG, 4, 4, .rw, 0, []⟩
/-- CIO.CFG.MODE (R387). -/
def CIO_CFG_MODE : Fld := ⟨.CIO_CFG, 3, 0, .rw, 0, [(5, 15)]⟩
/-- CIO.STAT.EDGEP (R387). -/
def CIO_STAT_EDGEP : Fld := ⟨.CIO_STAT, 31, 31, .ro, 0, []⟩
/-- CIO.STAT.CMPF (R387). -/
def CIO_STAT_CMPF : Fld := ⟨.CIO_STAT, 30, 30, .w1c, 0, []⟩
/-- CIO.STAT.TMRF (R387). -/
def CIO_STAT_TMRF : Fld := ⟨.CIO_STAT, 29, 29, .w1c, 0, []⟩
/-- CIO.STAT.OVF (R387). -/
def CIO_STAT_OVF : Fld := ⟨.CIO_STAT, 28, 28, .w1c, 0, []⟩
/-- CIO.STAT.PIN (R387). -/
def CIO_STAT_PIN : Fld := ⟨.CIO_STAT, 27, 27, .ro, 0, []⟩
/-- CIO.STAT.LOST (R387). -/
def CIO_STAT_LOST : Fld := ⟨.CIO_STAT, 15, 0, .rc, 0, []⟩
/-- CIO.CAP.TS (R387). -/
def CIO_CAP_TS : Fld := ⟨.CIO_CAP, 63, 0, .rc, 0, []⟩
/-- CIO.CAPINFO.DIR (R387). -/
def CIO_CAPINFO_DIR : Fld := ⟨.CIO_CAPINFO, 31, 30, .ro, 0, []⟩
/-- CIO.CAPINFO.COUNT (R387). -/
def CIO_CAPINFO_COUNT : Fld := ⟨.CIO_CAPINFO, 2, 0, .ro, 0, []⟩
/-- CIO.CMP.TIME (R387). -/
def CIO_CMP_TIME : Fld := ⟨.CIO_CMP, 63, 0, .rw, 0, []⟩
/-- CIO.CMPPER.NS (R387). -/
def CIO_CMPPER_NS : Fld := ⟨.CIO_CMPPER, 31, 0, .rw, 0, []⟩
/-- CIO.TMRNEXT.COUNT (R387). -/
def CIO_TMRNEXT_COUNT : Fld := ⟨.CIO_TMRNEXT, 63, 0, .rw, 0, []⟩
/-- CIO.PWM.PERIOD (R387). -/
def CIO_PWM_PERIOD : Fld := ⟨.CIO_PWM, 63, 32, .rw, 0, [(1, 19)]⟩
/-- CIO.PWM.HIGH (R387). -/
def CIO_PWM_HIGH : Fld := ⟨.CIO_PWM, 31, 0, .rw, 0, []⟩
/-- CIO.TMRCTL.LEVEL (R387). -/
def CIO_TMRCTL_LEVEL : Fld := ⟨.CIO_TMRCTL, 63, 62, .rw, 0, []⟩
/-- CIO.TMRCTL.MISSED (R387). -/
def CIO_TMRCTL_MISSED : Fld := ⟨.CIO_TMRCTL, 47, 32, .rc, 0, []⟩
/-- CIO.TMRCTL.PER (R387). -/
def CIO_TMRCTL_PER : Fld := ⟨.CIO_TMRCTL, 31, 0, .rw, 0, []⟩
/-- CIO.BIND.EN (R387). -/
def CIO_BIND_EN : Fld := ⟨.CIO_BIND, 31, 31, .rw, 0, []⟩
/-- CIO.BIND.CORE (R387). -/
def CIO_BIND_CORE : Fld := ⟨.CIO_BIND, 30, 26, .rw, 0, []⟩
/-- CIO.BIND.OFF (R387). -/
def CIO_BIND_OFF : Fld := ⟨.CIO_BIND, 16, 6, .rw, 0, []⟩
/-- CIO.LOOP.BUSY (R392). -/
def CIO_LOOP_BUSY : Fld := ⟨.CIO_LOOP, 63, 63, .ro, 0, []⟩
/-- CIO.LOOP.ERR (R392). -/
def CIO_LOOP_ERR : Fld := ⟨.CIO_LOOP, 62, 62, .w1c, 0, []⟩
/-- CIO.LOOP.DONE (R392). -/
def CIO_LOOP_DONE : Fld := ⟨.CIO_LOOP, 61, 61, .w1c, 0, []⟩
/-- CIO.LOOP.ACKED (R392). -/
def CIO_LOOP_ACKED : Fld := ⟨.CIO_LOOP, 60, 60, .ro, 0, []⟩
/-- CIO.LOOP.OP (R392). -/
def CIO_LOOP_OP : Fld := ⟨.CIO_LOOP, 57, 56, .wo, 0, []⟩
/-- CIO.LOOP.LIMIT (R392). -/
def CIO_LOOP_LIMIT : Fld := ⟨.CIO_LOOP, 55, 48, .rw, 100, [(0, 0)]⟩
/-- CIO.LOOP.HSOFF (R392). -/
def CIO_LOOP_HSOFF : Fld := ⟨.CIO_LOOP, 16, 4, .rw, 0, []⟩
/-- CHN.CTXBASE.BASE (R29). -/
def CHN_CTXBASE_BASE : Fld := ⟨.CHN_CTXBASE, 45, 12, .rw, 0, []⟩
/-- CHN.CTXCMD.BUSY (R32). -/
def CHN_CTXCMD_BUSY : Fld := ⟨.CHN_CTXCMD, 31, 31, .ro, 0, []⟩
/-- CHN.CTXCMD.ERR (R32). -/
def CHN_CTXCMD_ERR : Fld := ⟨.CHN_CTXCMD, 30, 30, .w1c, 0, []⟩
/-- CHN.CTXCMD.OP (R32). -/
def CHN_CTXCMD_OP : Fld := ⟨.CHN_CTXCMD, 27, 24, .wo, 0, [(6, 15)]⟩
/-- CHN.CTXCMD.CHID (R32). -/
def CHN_CTXCMD_CHID : Fld := ⟨.CHN_CTXCMD, 19, 0, .rw, 0, []⟩
/-- CHN.DISPCTL.W3 (R39). -/
def CHN_DISPCTL_W3 : Fld := ⟨.CHN_DISPCTL, 31, 24, .rw, 1, [(0, 0)]⟩
/-- CHN.DISPCTL.W2 (R39). -/
def CHN_DISPCTL_W2 : Fld := ⟨.CHN_DISPCTL, 23, 16, .rw, 4, [(0, 0)]⟩
/-- CHN.DISPCTL.W1 (R39). -/
def CHN_DISPCTL_W1 : Fld := ⟨.CHN_DISPCTL, 15, 8, .rw, 8, [(0, 0)]⟩
/-- CHN.TOCTL.NVME (R51). -/
def CHN_TOCTL_NVME : Fld := ⟨.CHN_TOCTL, 31, 16, .rw, 1000, [(0, 0)]⟩
/-- CHN.AUDCMD.SNAP (R57). -/
def CHN_AUDCMD_SNAP : Fld := ⟨.CHN_AUDCMD, 63, 63, .wo, 0, []⟩
/-- CHN.AUDCMD.SCOPE (R57). -/
def CHN_AUDCMD_SCOPE : Fld := ⟨.CHN_AUDCMD, 62, 60, .rw, 0, [(6, 7)]⟩
/-- CHN.AUDCMD.PORT (R57). -/
def CHN_AUDCMD_PORT : Fld := ⟨.CHN_AUDCMD, 36, 32, .rw, 0, []⟩
/-- CHN.AUDCMD.INDEX (R57). -/
def CHN_AUDCMD_INDEX : Fld := ⟨.CHN_AUDCMD, 23, 0, .rw, 0, []⟩
/-- CHN.AUDSTAT.DONE (R57). -/
def CHN_AUDSTAT_DONE : Fld := ⟨.CHN_AUDSTAT, 31, 31, .w1c, 0, []⟩
/-- CHN.AUDSTAT.BUSY (R57). -/
def CHN_AUDSTAT_BUSY : Fld := ⟨.CHN_AUDSTAT, 30, 30, .ro, 0, []⟩
/-- CHN.AUDSTAT.IMBAL (R57). -/
def CHN_AUDSTAT_IMBAL : Fld := ⟨.CHN_AUDSTAT, 1, 0, .ro, 0, []⟩
/-- CHN.AUDTS.T (R57). -/
def CHN_AUDTS_T : Fld := ⟨.CHN_AUDTS, 63, 0, .ro, 0, []⟩
/-- CHN.AUDV.V (R57). -/
def CHN_AUDV_V : Fld := ⟨.CHN_AUDV, 63, 0, .ro, 0, []⟩
/-- CHN.CRPCTL.VMAX (R65). -/
def CHN_CRPCTL_VMAX : Fld := ⟨.CHN_CRPCTL, 2, 0, .rw, 3, [(0, 0), (4, 7)]⟩
/-- CHN.KACTL.IDLE (R77). -/
def CHN_KACTL_IDLE : Fld := ⟨.CHN_KACTL, 31, 16, .rw, 100, []⟩
/-- CHN.KACTL.MISS (R77). -/
def CHN_KACTL_MISS : Fld := ⟨.CHN_KACTL, 7, 0, .rw, 3, [(0, 0)]⟩
/-- CHN.JBASE.BASE (R84). -/
def CHN_JBASE_BASE : Fld := ⟨.CHN_JBASE, 45, 28, .rw, 0, []⟩
/-- CHN.JMBASE.BASE (R84). -/
def CHN_JMBASE_BASE : Fld := ⟨.CHN_JMBASE, 45, 28, .rw, 0, []⟩
/-- CHN.JCTL.SLOTCAP (R84). -/
def CHN_JCTL_SLOTCAP : Fld := ⟨.CHN_JCTL, 31, 15, .rw, 65536, [(0, 0), (65537, 131071)]⟩
/-- CHN.JCTL.MIRTHR (R84). -/
def CHN_JCTL_MIRTHR : Fld := ⟨.CHN_JCTL, 14, 0, .rw, 16384, [(16385, 32767)]⟩
/-- CHN.JNS.EN (R84). -/
def CHN_JNS_EN : Fld := ⟨.CHN_JNS, 63, 63, .rw, 0, []⟩
/-- CHN.JNS.PORT (R84). -/
def CHN_JNS_PORT : Fld := ⟨.CHN_JNS, 42, 40, .rw, 0, []⟩
/-- CHN.JNS.NSID (R84). -/
def CHN_JNS_NSID : Fld := ⟨.CHN_JNS, 39, 8, .rw, 0, []⟩
/-- CHN.JSTAT.FLUSHING (R84). -/
def CHN_JSTAT_FLUSHING : Fld := ⟨.CHN_JSTAT, 31, 31, .ro, 0, []⟩
/-- CHN.JSTAT.FLUSHED (R84). -/
def CHN_JSTAT_FLUSHED : Fld := ⟨.CHN_JSTAT, 30, 30, .w1c, 0, []⟩
/-- CHN.JSTAT.FLUSHERR (R84). -/
def CHN_JSTAT_FLUSHERR : Fld := ⟨.CHN_JSTAT, 29, 29, .w1c, 0, []⟩
/-- CHN.JSTAT.INUSE (R84). -/
def CHN_JSTAT_INUSE : Fld := ⟨.CHN_JSTAT, 16, 0, .ro, 0, []⟩
/-- CHN.REPLAYCTL.WAIT (R91). -/
def CHN_REPLAYCTL_WAIT : Fld := ⟨.CHN_REPLAYCTL, 31, 0, .rw, 10000, [(0, 0)]⟩
/-- CHN.ENGMAP.VALID (R345). -/
def CHN_ENGMAP_VALID : Fld := ⟨.CHN_ENGMAP, 31, 31, .ro, 0, []⟩
/-- CHN.ENGMAP.PHYS (R345). -/
def CHN_ENGMAP_PHYS : Fld := ⟨.CHN_ENGMAP, 8, 0, .ro, 0, []⟩
/-- CHN.UCLOAD.BUSY (R255). -/
def CHN_UCLOAD_BUSY : Fld := ⟨.CHN_UCLOAD, 63, 63, .ro, 0, []⟩
/-- CHN.UCLOAD.ERR (R255). -/
def CHN_UCLOAD_ERR : Fld := ⟨.CHN_UCLOAD, 62, 62, .w1c, 0, []⟩
/-- CHN.UCLOAD.GO (R255). -/
def CHN_UCLOAD_GO : Fld := ⟨.CHN_UCLOAD, 61, 61, .wo, 0, []⟩
/-- CHN.UCLOAD.ADDR (R255). -/
def CHN_UCLOAD_ADDR : Fld := ⟨.CHN_UCLOAD, 45, 4, .rw, 0, []⟩
/-- CHN.UCSTAT.ROMONLY (R255). -/
def CHN_UCSTAT_ROMONLY : Fld := ⟨.CHN_UCSTAT, 31, 31, .ro, 1, []⟩
/-- CHN.UCSTAT.MISMATCH (R255). -/
def CHN_UCSTAT_MISMATCH : Fld := ⟨.CHN_UCSTAT, 30, 30, .w1c, 0, []⟩
/-- CHN.UCSTAT.BADSET (R255). -/
def CHN_UCSTAT_BADSET : Fld := ⟨.CHN_UCSTAT, 29, 29, .w1c, 0, []⟩
/-- CHN.UCSTAT.SETREV (R255). -/
def CHN_UCSTAT_SETREV : Fld := ⟨.CHN_UCSTAT, 7, 0, .ro, 0, []⟩
/-- CHN.UCREV.ROMREV (R255). -/
def CHN_UCREV_ROMREV : Fld := ⟨.CHN_UCREV, 15, 0, .ro, 0, []⟩
/-- CHN.IFCTL.MAX (R455). -/
def CHN_IFCTL_MAX : Fld := ⟨.CHN_IFCTL, 15, 8, .ro, 2, []⟩
/-- CHN.IFCTL.SEL (R455). -/
def CHN_IFCTL_SEL : Fld := ⟨.CHN_IFCTL, 7, 0, .rw, 1, []⟩
/-- NEVE.SPILLCTL.STALL (R17). -/
def NEVE_SPILLCTL_STALL : Fld := ⟨.NEVE_SPILLCTL, 31, 16, .rw, 4096, []⟩
/-- NEVE.SPILLCTL.LOWWM (R17). -/
def NEVE_SPILLCTL_LOWWM : Fld := ⟨.NEVE_SPILLCTL, 13, 0, .rw, 1024, []⟩
/-- NEVE.SPILLBASE.BASE (R17). -/
def NEVE_SPILLBASE_BASE : Fld := ⟨.NEVE_SPILLBASE, 45, 12, .rw, 0, []⟩
/-- NEVE.SPILLSIZE.SLOTS (R17). -/
def NEVE_SPILLSIZE_SLOTS : Fld := ⟨.NEVE_SPILLSIZE, 23, 0, .rw, 0, []⟩
/-- NEVE.SPILLFULL.COUNT (R17). -/
def NEVE_SPILLFULL_COUNT : Fld := ⟨.NEVE_SPILLFULL, 31, 0, .rc, 0, []⟩
/-- NEVE.ALLOCSTAT.FREE (R54). -/
def NEVE_ALLOCSTAT_FREE : Fld := ⟨.NEVE_ALLOCSTAT, 29, 16, .ro, 12288, []⟩
/-- NEVE.ALLOCSTAT.MINFREE (R54). -/
def NEVE_ALLOCSTAT_MINFREE : Fld := ⟨.NEVE_ALLOCSTAT, 13, 0, .rc, 12288, []⟩
/-- NEVE.NOBUFCNT.COUNT (R54). -/
def NEVE_NOBUFCNT_COUNT : Fld := ⟨.NEVE_NOBUFCNT, 31, 0, .rc, 0, []⟩
/-- CMP.SAVEBASE.BASE (R112). -/
def CMP_SAVEBASE_BASE : Fld := ⟨.CMP_SAVEBASE, 45, 20, .rw, 0, []⟩
/-- CMP.ENGSTAT.STATE (R112). -/
def CMP_ENGSTAT_STATE : Fld := ⟨.CMP_ENGSTAT, 31, 28, .ro, 0, []⟩
/-- CMP.ENGSTAT.PRIO (R112). -/
def CMP_ENGSTAT_PRIO : Fld := ⟨.CMP_ENGSTAT, 25, 24, .ro, 0, []⟩
/-- CMP.ENGSTAT.ISSUER (R112). -/
def CMP_ENGSTAT_ISSUER : Fld := ⟨.CMP_ENGSTAT, 22, 16, .ro, 0, []⟩
/-- CMP.ENGSTAT.JOB (R112). -/
def CMP_ENGSTAT_JOB : Fld := ⟨.CMP_ENGSTAT, 7, 0, .ro, 0, []⟩
/-- CMP.RAWCNT.COUNT (R112). -/
def CMP_RAWCNT_COUNT : Fld := ⟨.CMP_RAWCNT, 31, 0, .rc, 0, []⟩
/-- CMP.SUSPCNT.COUNT (R112). -/
def CMP_SUSPCNT_COUNT : Fld := ⟨.CMP_SUSPCNT, 31, 0, .rc, 0, []⟩
/-- CMP.EXTNOBUF.COUNT (R112). -/
def CMP_EXTNOBUF_COUNT : Fld := ⟨.CMP_EXTNOBUF, 31, 0, .rc, 0, []⟩
/-- CMP.DECFAIL.COUNT (R112). -/
def CMP_DECFAIL_COUNT : Fld := ⟨.CMP_DECFAIL, 31, 0, .rc, 0, []⟩
/-- CIP.IVCTL.ARM (R118). -/
def CIP_IVCTL_ARM : Fld := ⟨.CIP_IVCTL, 31, 31, .rw, 0, []⟩
/-- CIP.IVCTL.WAITING (R118). -/
def CIP_IVCTL_WAITING : Fld := ⟨.CIP_IVCTL, 30, 30, .w1c, 0, []⟩
/-- CIP.IVCTL.PFX (R118). -/
def CIP_IVCTL_PFX : Fld := ⟨.CIP_IVCTL, 19, 0, .rw, 0, []⟩
/-- CIP.IVFLOOR.FLOOR (R118). -/
def CIP_IVFLOOR_FLOOR : Fld := ⟨.CIP_IVFLOOR, 63, 0, .rw, 0, []⟩
/-- CIP.AUTHFAIL.COUNT (R139). -/
def CIP_AUTHFAIL_COUNT : Fld := ⟨.CIP_AUTHFAIL, 31, 0, .rc, 0, []⟩
/-- CIP.SUSPCNT.COUNT (R139). -/
def CIP_SUSPCNT_COUNT : Fld := ⟨.CIP_SUSPCNT, 31, 0, .rc, 0, []⟩
/-- CIP.SUSPFULL.COUNT (R139). -/
def CIP_SUSPFULL_COUNT : Fld := ⟨.CIP_SUSPFULL, 31, 0, .rc, 0, []⟩
/-- FLO.KTBASE.BASE (R161). -/
def FLO_KTBASE_BASE : Fld := ⟨.FLO_KTBASE, 45, 12, .rw, 0, []⟩
/-- FLO.XWORD.WORD (R161). -/
def FLO_XWORD_WORD : Fld := ⟨.FLO_XWORD, 63, 0, .rw, 0, []⟩
/-- FLO.XCHG.BUSY (R161). -/
def FLO_XCHG_BUSY : Fld := ⟨.FLO_XCHG, 31, 31, .ro, 0, []⟩
/-- FLO.XCHG.ERR (R161). -/
def FLO_XCHG_ERR : Fld := ⟨.FLO_XCHG, 30, 30, .w1c, 0, []⟩
/-- FLO.XCHG.DONE (R161). -/
def FLO_XCHG_DONE : Fld := ⟨.FLO_XCHG, 29, 29, .w1c, 0, []⟩
/-- FLO.XCHG.GO (R161). -/
def FLO_XCHG_GO : Fld := ⟨.FLO_XCHG, 28, 28, .wo, 0, []⟩
/-- FLO.XCHG.ATT (R161). -/
def FLO_XCHG_ATT : Fld := ⟨.FLO_XCHG, 27, 26, .rw, 0, []⟩
/-- FLO.XCHG.CHID (R161). -/
def FLO_XCHG_CHID : Fld := ⟨.FLO_XCHG, 19, 0, .rw, 0, []⟩
/-- FLO.L2MASK.WORLD (R161). -/
def FLO_L2MASK_WORLD : Fld := ⟨.FLO_L2MASK, 31, 16, .rw, 65535, []⟩
/-- FLO.L2MASK.WAYS (R161). -/
def FLO_L2MASK_WAYS : Fld := ⟨.FLO_L2MASK, 15, 0, .rw, 0, []⟩
/-- FLO.L2DEF.WAYS (R161). -/
def FLO_L2DEF_WAYS : Fld := ⟨.FLO_L2DEF, 15, 0, .rw, 65535, [(0, 0)]⟩
/-- FLO.CORESTAT.STATE (R161). -/
def FLO_CORESTAT_STATE : Fld := ⟨.FLO_CORESTAT, 31, 28, .ro, 0, []⟩
/-- FLO.CORESTAT.KID (R161). -/
def FLO_CORESTAT_KID : Fld := ⟨.FLO_CORESTAT, 27, 16, .ro, 0, []⟩
/-- FLO.CORESTAT.WORLD (R161). -/
def FLO_CORESTAT_WORLD : Fld := ⟨.FLO_CORESTAT, 15, 0, .ro, 65535, []⟩
/-- FLO.SEGCNT.COUNT (R161). -/
def FLO_SEGCNT_COUNT : Fld := ⟨.FLO_SEGCNT, 31, 0, .rc, 0, []⟩
/-- FLO.SWITCHCNT.COUNT (R161). -/
def FLO_SWITCHCNT_COUNT : Fld := ⟨.FLO_SWITCHCNT, 31, 0, .rc, 0, []⟩
/-- FLO.KFAULTCNT.COUNT (R161). -/
def FLO_KFAULTCNT_COUNT : Fld := ⟨.FLO_KFAULTCNT, 31, 0, .rc, 0, []⟩
/-- FLO.HTBASE.BASE (R203). -/
def FLO_HTBASE_BASE : Fld := ⟨.FLO_HTBASE, 45, 12, .rw, 0, []⟩
/-- FLO.HTCTL.EN (R203). -/
def FLO_HTCTL_EN : Fld := ⟨.FLO_HTCTL, 31, 31, .rw, 0, []⟩
/-- FLO.HTCTL.SIZE (R203). -/
def FLO_HTCTL_SIZE : Fld := ⟨.FLO_HTCTL, 4, 0, .rw, 0, [(24, 31)]⟩
/-- FLO.L2CTL.BUSY (R283). -/
def FLO_L2CTL_BUSY : Fld := ⟨.FLO_L2CTL, 31, 31, .ro, 0, []⟩
/-- FLO.L2CTL.STALE (R283). -/
def FLO_L2CTL_STALE : Fld := ⟨.FLO_L2CTL, 30, 30, .ro, 0, []⟩
/-- FLO.L2CTL.OP (R283). -/
def FLO_L2CTL_OP : Fld := ⟨.FLO_L2CTL, 29, 28, .wo, 0, []⟩
/-- FLO.L2CTL.EN (R283). -/
def FLO_L2CTL_EN : Fld := ⟨.FLO_L2CTL, 0, 0, .rw, 1, []⟩
/-- FLO.PFCTL.EN (R283). -/
def FLO_PFCTL_EN : Fld := ⟨.FLO_PFCTL, 31, 31, .rw, 1, []⟩
/-- FLO.PFCTL.DIST (R283). -/
def FLO_PFCTL_DIST : Fld := ⟨.FLO_PFCTL, 4, 0, .rw, 4, [(0, 0), (17, 31)]⟩
/-- FLO.PFDROP.COUNT (R283). -/
def FLO_PFDROP_COUNT : Fld := ⟨.FLO_PFDROP, 31, 0, .rc, 0, []⟩
/-- FLO.MAP.VALID (R345). -/
def FLO_MAP_VALID : Fld := ⟨.FLO_MAP, 31, 31, .ro, 0, []⟩
/-- FLO.MAP.PHYS (R345). -/
def FLO_MAP_PHYS : Fld := ⟨.FLO_MAP, 8, 0, .ro, 0, []⟩
/-- CRN.IROUTE.CORE (R237). -/
def CRN_IROUTE_CORE : Fld := ⟨.CRN_IROUTE, 4, 0, .rw, 0, []⟩
/-- CRN.IPI.CORE (R237). -/
def CRN_IPI_CORE : Fld := ⟨.CRN_IPI, 4, 0, .wo, 0, []⟩
/-- CRN.UCREV.ROMREV (R255). -/
def CRN_UCREV_ROMREV : Fld := ⟨.CRN_UCREV, 15, 0, .ro, 0, []⟩
/-- CRN.UCLOAD.BUSY (R255). -/
def CRN_UCLOAD_BUSY : Fld := ⟨.CRN_UCLOAD, 63, 63, .ro, 0, []⟩
/-- CRN.UCLOAD.ERR (R255). -/
def CRN_UCLOAD_ERR : Fld := ⟨.CRN_UCLOAD, 62, 62, .w1c, 0, []⟩
/-- CRN.UCLOAD.GO (R255). -/
def CRN_UCLOAD_GO : Fld := ⟨.CRN_UCLOAD, 61, 61, .wo, 0, []⟩
/-- CRN.UCLOAD.ADDR (R255). -/
def CRN_UCLOAD_ADDR : Fld := ⟨.CRN_UCLOAD, 45, 4, .rw, 0, []⟩
/-- CRN.UCSTAT.ROMONLY (R255). -/
def CRN_UCSTAT_ROMONLY : Fld := ⟨.CRN_UCSTAT, 31, 31, .ro, 1, []⟩
/-- CRN.UCSTAT.MISMATCH (R255). -/
def CRN_UCSTAT_MISMATCH : Fld := ⟨.CRN_UCSTAT, 30, 30, .w1c, 0, []⟩
/-- CRN.UCSTAT.BADSET (R255). -/
def CRN_UCSTAT_BADSET : Fld := ⟨.CRN_UCSTAT, 29, 29, .w1c, 0, []⟩
/-- CRN.UCSTAT.SETREV (R255). -/
def CRN_UCSTAT_SETREV : Fld := ⟨.CRN_UCSTAT, 7, 0, .ro, 0, []⟩
/-- CRN.CKCTL.INTERVAL (R260). -/
def CRN_CKCTL_INTERVAL : Fld := ⟨.CRN_CKCTL, 7, 0, .rw, 64, [(0, 7)]⟩
/-- CRN.RETRYCNT.COUNT (R260). -/
def CRN_RETRYCNT_COUNT : Fld := ⟨.CRN_RETRYCNT, 31, 0, .rc, 0, []⟩
/-- CRN.L2CTL.BUSY (R283). -/
def CRN_L2CTL_BUSY : Fld := ⟨.CRN_L2CTL, 31, 31, .ro, 0, []⟩
/-- CRN.L2CTL.STALE (R283). -/
def CRN_L2CTL_STALE : Fld := ⟨.CRN_L2CTL, 30, 30, .ro, 0, []⟩
/-- CRN.L2CTL.OP (R283). -/
def CRN_L2CTL_OP : Fld := ⟨.CRN_L2CTL, 29, 28, .wo, 0, []⟩
/-- CRN.L2CTL.EN (R283). -/
def CRN_L2CTL_EN : Fld := ⟨.CRN_L2CTL, 0, 0, .rw, 1, []⟩
/-- CRN.L1CMD.BUSY (R283). -/
def CRN_L1CMD_BUSY : Fld := ⟨.CRN_L1CMD, 31, 31, .ro, 0, []⟩
/-- CRN.L1CMD.ISTALE (R283). -/
def CRN_L1CMD_ISTALE : Fld := ⟨.CRN_L1CMD, 30, 30, .ro, 0, []⟩
/-- CRN.L1CMD.DSTALE (R283). -/
def CRN_L1CMD_DSTALE : Fld := ⟨.CRN_L1CMD, 29, 29, .ro, 0, []⟩
/-- CRN.L1CMD.OP (R283). -/
def CRN_L1CMD_OP : Fld := ⟨.CRN_L1CMD, 25, 24, .wo, 0, []⟩
/-- CRN.PFCTL.EN (R283). -/
def CRN_PFCTL_EN : Fld := ⟨.CRN_PFCTL, 31, 31, .rw, 1, []⟩
/-- CRN.PFCTL.DIST (R283). -/
def CRN_PFCTL_DIST : Fld := ⟨.CRN_PFCTL, 4, 0, .rw, 4, [(0, 0), (17, 31)]⟩
/-- CRN.PFDROP.COUNT (R283). -/
def CRN_PFDROP_COUNT : Fld := ⟨.CRN_PFDROP, 31, 0, .rc, 0, []⟩
/-- CRN.ATOMCTL.MODE (R314). -/
def CRN_ATOMCTL_MODE : Fld := ⟨.CRN_ATOMCTL, 1, 0, .rw, 0, [(3, 3)]⟩
/-- CRN.PAIRCTL.SLIP (R341). -/
def CRN_PAIRCTL_SLIP : Fld := ⟨.CRN_PAIRCTL, 6, 0, .rw, 8, [(0, 1), (65, 127)]⟩
/-- CRN.PAIRSTAT.STATE (R341). -/
def CRN_PAIRSTAT_STATE : Fld := ⟨.CRN_PAIRSTAT, 31, 30, .ro, 3, []⟩
/-- CRN.PAIRSTAT.TRAIL (R341). -/
def CRN_PAIRSTAT_TRAIL : Fld := ⟨.CRN_PAIRSTAT, 15, 8, .ro, 0, []⟩
/-- CRN.PAIRSTAT.LEAD (R341). -/
def CRN_PAIRSTAT_LEAD : Fld := ⟨.CRN_PAIRSTAT, 7, 0, .ro, 0, []⟩
/-- CRN.MAP.VALID (R345). -/
def CRN_MAP_VALID : Fld := ⟨.CRN_MAP, 31, 31, .ro, 0, []⟩
/-- CRN.MAP.PHYS (R345). -/
def CRN_MAP_PHYS : Fld := ⟨.CRN_MAP, 8, 0, .ro, 0, []⟩
/-- SNP.CTL.SLICES (R283). -/
def SNP_CTL_SLICES : Fld := ⟨.SNP_CTL, 7, 2, .ro, 0, []⟩
/-- SNP.CTL.REPL (R283). -/
def SNP_CTL_REPL : Fld := ⟨.SNP_CTL, 0, 0, .rw, 0, []⟩
/-- SNP.SLICECTL.BUSY (R283). -/
def SNP_SLICECTL_BUSY : Fld := ⟨.SNP_SLICECTL, 31, 31, .ro, 0, []⟩
/-- SNP.SLICECTL.STALE (R283). -/
def SNP_SLICECTL_STALE : Fld := ⟨.SNP_SLICECTL, 30, 30, .ro, 0, []⟩
/-- SNP.SLICECTL.OP (R283). -/
def SNP_SLICECTL_OP : Fld := ⟨.SNP_SLICECTL, 29, 28, .wo, 0, []⟩
/-- SNP.SLICECTL.SCRWAYS (R283). -/
def SNP_SLICECTL_SCRWAYS : Fld := ⟨.SNP_SLICECTL, 11, 8, .rw, 0, [(9, 15)]⟩
/-- SNP.SLICECTL.SCRRDY (R283). -/
def SNP_SLICECTL_SCRRDY : Fld := ⟨.SNP_SLICECTL, 1, 1, .ro, 0, []⟩
/-- SNP.SLICECTL.EN (R283). -/
def SNP_SLICECTL_EN : Fld := ⟨.SNP_SLICECTL, 0, 0, .rw, 1, []⟩
/-- COH.CTL.LRHOLD (R314). -/
def COH_CTL_LRHOLD : Fld := ⟨.COH_CTL, 7, 0, .rw, 128, []⟩
/-- COH.DIRCNT.COUNT (R314). -/
def COH_DIRCNT_COUNT : Fld := ⟨.COH_DIRCNT, 31, 0, .rc, 0, []⟩
/-- COH.VBFULL.COUNT (R314). -/
def COH_VBFULL_COUNT : Fld := ⟨.COH_VBFULL, 31, 0, .rc, 0, []⟩
/-- ETH.PORTCFG.EN (R485). -/
def ETH_PORTCFG_EN : Fld := ⟨.ETH_PORTCFG, 31, 31, .rw, 0, []⟩
/-- ETH.PORTCFG.SPLIT (R485). -/
def ETH_PORTCFG_SPLIT : Fld := ⟨.ETH_PORTCFG, 30, 30, .rw, 0, []⟩
/-- ETH.PORTCFG.PFCEN (R485). -/
def ETH_PORTCFG_PFCEN : Fld := ⟨.ETH_PORTCFG, 23, 16, .rw, 0, []⟩
/-- ETH.PORTCFG.PFCWD (R485). -/
def ETH_PORTCFG_PFCWD : Fld := ⟨.ETH_PORTCFG, 15, 8, .rw, 100, []⟩
/-- ETH.PORTCFG.ROCEPRIO (R485). -/
def ETH_PORTCFG_ROCEPRIO : Fld := ⟨.ETH_PORTCFG, 5, 3, .rw, 3, []⟩
/-- ETH.PORTCFG.CNPPRIO (R485). -/
def ETH_PORTCFG_CNPPRIO : Fld := ⟨.ETH_PORTCFG, 2, 0, .rw, 6, []⟩
/-- ETH.ADDR_W0.MAC (R485). -/
def ETH_ADDR_W0_MAC : Fld := ⟨.ETH_ADDR_W0, 47, 0, .rw, 0, []⟩
/-- ETH.ADDR_W1.SEG (R485). -/
def ETH_ADDR_W1_SEG : Fld := ⟨.ETH_ADDR_W1, 1, 1, .rw, 0, []⟩
/-- ETH.ADDR_W1.EN (R485). -/
def ETH_ADDR_W1_EN : Fld := ⟨.ETH_ADDR_W1, 0, 0, .rw, 0, []⟩
/-- ETH.ADDR_W2.IPLO (R485). -/
def ETH_ADDR_W2_IPLO : Fld := ⟨.ETH_ADDR_W2, 63, 0, .rw, 0, []⟩
/-- ETH.ADDR_W3.IPHI (R485). -/
def ETH_ADDR_W3_IPHI : Fld := ⟨.ETH_ADDR_W3, 63, 0, .rw, 0, []⟩
/-- ETH.QPBASE.BASE (R485). -/
def ETH_QPBASE_BASE : Fld := ⟨.ETH_QPBASE, 45, 12, .rw, 0, []⟩
/-- ETH.QPCMD.BUSY (R485). -/
def ETH_QPCMD_BUSY : Fld := ⟨.ETH_QPCMD, 63, 63, .ro, 0, []⟩
/-- ETH.QPCMD.ERR (R485). -/
def ETH_QPCMD_ERR : Fld := ⟨.ETH_QPCMD, 62, 62, .w1c, 0, []⟩
/-- ETH.QPCMD.OP (R485). -/
def ETH_QPCMD_OP : Fld := ⟨.ETH_QPCMD, 59, 56, .wo, 0, [(4, 15)]⟩
/-- ETH.QPCMD.PORT (R485). -/
def ETH_QPCMD_PORT : Fld := ⟨.ETH_QPCMD, 52, 48, .rw, 0, []⟩
/-- ETH.QPCMD.QPN (R485). -/
def ETH_QPCMD_QPN : Fld := ⟨.ETH_QPCMD, 23, 0, .rw, 0, []⟩
/-- ETH.QPDROP.COUNT (R485). -/
def ETH_QPDROP_COUNT : Fld := ⟨.ETH_QPDROP, 31, 0, .rc, 0, []⟩
/-- ETH.TXTS_W0.TS (R478). -/
def ETH_TXTS_W0_TS : Fld := ⟨.ETH_TXTS_W0, 63, 0, .ro, 0, []⟩
/-- ETH.TXTS_W1.VALID (R478). -/
def ETH_TXTS_W1_VALID : Fld := ⟨.ETH_TXTS_W1, 63, 63, .ro, 0, []⟩
/-- ETH.TXTS_W1.SEQID (R478). -/
def ETH_TXTS_W1_SEQID : Fld := ⟨.ETH_TXTS_W1, 15, 0, .ro, 0, []⟩
/-- PCI.PORTCFG.EN (R408). -/
def PCI_PORTCFG_EN : Fld := ⟨.PCI_PORTCFG, 31, 31, .rw, 0, []⟩
/-- PCI.PORTCFG.CXL (R408). -/
def PCI_PORTCFG_CXL : Fld := ⟨.PCI_PORTCFG, 30, 30, .rw, 0, []⟩
/-- PCI.PORTCFG.BIFUR (R408). -/
def PCI_PORTCFG_BIFUR : Fld := ⟨.PCI_PORTCFG, 25, 24, .rw, 0, []⟩
/-- PCI.PORTCFG.NCTRL (R408). -/
def PCI_PORTCFG_NCTRL : Fld := ⟨.PCI_PORTCFG, 23, 16, .ro, 0, []⟩
/-- PCI.PORTCFG.TAGS (R408). -/
def PCI_PORTCFG_TAGS : Fld := ⟨.PCI_PORTCFG, 15, 0, .ro, 0, []⟩
/-- PCI.CTRLMAP.VALID (R476). -/
def PCI_CTRLMAP_VALID : Fld := ⟨.PCI_CTRLMAP, 31, 31, .rw, 0, []⟩
/-- PCI.CTRLMAP.RID (R476). -/
def PCI_CTRLMAP_RID : Fld := ⟨.PCI_CTRLMAP, 15, 0, .rw, 0, []⟩
/-- MEMH.CFG.UNITGIB (R283). -/
def MEMH_CFG_UNITGIB : Fld := ⟨.MEMH_CFG, 23, 16, .ro, 0, []⟩
/-- MEMH.CFG.MAP (R283). -/
def MEMH_CFG_MAP : Fld := ⟨.MEMH_CFG, 15, 8, .ro, 0, []⟩
/-- MEMH.CFG.UNITS (R283). -/
def MEMH_CFG_UNITS : Fld := ⟨.MEMH_CFG, 3, 0, .ro, 0, []⟩
/-- MEMH.ECCCNT.COUNT (R476). -/
def MEMH_ECCCNT_COUNT : Fld := ⟨.MEMH_ECCCNT, 31, 0, .rc, 0, []⟩
/-- MEMH.UECNT.COUNT (R476). -/
def MEMH_UECNT_COUNT : Fld := ⟨.MEMH_UECNT, 31, 0, .rc, 0, []⟩
/-- MEMB.CFG.UNITGIB (R283). -/
def MEMB_CFG_UNITGIB : Fld := ⟨.MEMB_CFG, 23, 16, .ro, 0, []⟩
/-- MEMB.CFG.MAP (R283). -/
def MEMB_CFG_MAP : Fld := ⟨.MEMB_CFG, 15, 8, .ro, 0, []⟩
/-- MEMB.CFG.UNITS (R283). -/
def MEMB_CFG_UNITS : Fld := ⟨.MEMB_CFG, 3, 0, .ro, 0, []⟩
/-- MEMB.ECCCNT.COUNT (R476). -/
def MEMB_ECCCNT_COUNT : Fld := ⟨.MEMB_ECCCNT, 31, 0, .rc, 0, []⟩
/-- MEMB.UECNT.COUNT (R476). -/
def MEMB_UECNT_COUNT : Fld := ⟨.MEMB_UECNT, 31, 0, .rc, 0, []⟩

end F

/-- The fields of a register, high bits first. -/
def RegName.fields : RegName → List Fld
  | .SYS_READY => [F.SYS_READY_PARTNER, F.SYS_READY_SUBSYS]
  | .SYS_MODE => [F.SYS_MODE_TRANS, F.SYS_MODE_PREV, F.SYS_MODE_FATAL, F.SYS_MODE_PAIRSTRAP, F.SYS_MODE_CHG, F.SYS_MODE_REFUSED, F.SYS_MODE_RECOV, F.SYS_MODE_CUR]
  | .SYS_MODETS => [F.SYS_MODETS_TS]
  | .SYS_MODEREQ => [F.SYS_MODEREQ_TARGET]
  | .IDREV_IDREV => [F.IDREV_IDREV_VENDOR, F.IDREV_IDREV_PART, F.IDREV_IDREV_MAJOR, F.IDREV_IDREV_MINOR, F.IDREV_IDREV_CONFIG, F.IDREV_IDREV_TSHLVL]
  | .IDREV_SERNO_W0 => [F.IDREV_SERNO_W0_SERIAL]
  | .IDREV_SERNO_W1 => [F.IDREV_SERNO_W1_LOT, F.IDREV_SERNO_W1_WAFER, F.IDREV_SERNO_W1_DIEX, F.IDREV_SERNO_W1_DIEY]
  | .BOOT_STAT => [F.BOOT_STAT_STEP, F.BOOT_STAT_FAIL, F.BOOT_STAT_SLOTFAIL, F.BOOT_STAT_BOOTED, F.BOOT_STAT_SLOT]
  | .BOOT_CTL => [F.BOOT_CTL_GO, F.BOOT_CTL_ERR, F.BOOT_CTL_FIRST, F.BOOT_CTL_PWAIT]
  | .PWR_VID => [F.PWR_VID_MESH, F.PWR_VID_CORE]
  | .PWR_THERM => [F.PWR_THERM_TRIP, F.PWR_THERM_WARN, F.PWR_THERM_WARNTH, F.PWR_THERM_TMAX]
  | .PWR_LPCTL => [F.PWR_LPCTL_DOZE]
  | .KPR_MEAS => [F.KPR_MEAS_WORD]
  | .KPR_RSTCTL => [F.KPR_RSTCTL_GO, F.KPR_RSTCTL_DONE, F.KPR_RSTCTL_RUN, F.KPR_RSTCTL_LIMIT]
  | .KPR_RSTCNT => [F.KPR_RSTCNT_COUNT]
  | .KPR_KCTL => [F.KPR_KCTL_HOLD, F.KPR_KCTL_RANKB, F.KPR_KCTL_RANKA]
  | .KPR_KSTAT => [F.KPR_KSTAT_ACTIVE, F.KPR_KSTAT_FSTATE, F.KPR_KSTAT_CLAIMB, F.KPR_KSTAT_CLAIMA]
  | .KPR_KCMD => [F.KPR_KCMD_BUSY, F.KPR_KCMD_ERR, F.KPR_KCMD_HANDOVER]
  | .KPR_EXTDATA => [F.KPR_EXTDATA_WORD]
  | .KPR_EXTEND => [F.KPR_EXTEND_BUSY, F.KPR_EXTEND_ERR, F.KPR_EXTEND_GO, F.KPR_EXTEND_INDEX]
  | .MOR_CLS => [F.MOR_CLS_PEND, F.MOR_CLS_OVERFLOW, F.MOR_CLS_ESC, F.MOR_CLS_LEVEL, F.MOR_CLS_SOURCE, F.MOR_CLS_SUBCODE, F.MOR_CLS_COUNT]
  | .MOR_CLSTS => [F.MOR_CLSTS_TS]
  | .MOR_SUMMARY => [F.MOR_SUMMARY_PEND]
  | .MOR_CTL => [F.MOR_CTL_LOGEN, F.MOR_CTL_NOTIFY]
  | .MOR_LOGBASE => [F.MOR_LOGBASE_BASE]
  | .MOR_LOGCTL => [F.MOR_LOGCTL_SIZE]
  | .MOR_LOGHEAD => [F.MOR_LOGHEAD_IDX]
  | .MOR_LOGTAIL => [F.MOR_LOGTAIL_IDX]
  | .MOR_DROPCNT => [F.MOR_DROPCNT_COUNT]
  | .MOR_FATAL => [F.MOR_FATAL_WORD]
  | .DBG_GRANT => [F.DBG_GRANT_LEVEL, F.DBG_GRANT_HALTLIM, F.DBG_GRANT_WORLD, F.DBG_GRANT_CODE]
  | .DBG_EXPIRE => [F.DBG_EXPIRE_S]
  | .DBG_STAT => [F.DBG_STAT_LOCK, F.DBG_STAT_SESSION, F.DBG_STAT_LOCKOUT]
  | .DBG_HALT => [F.DBG_HALT_HALTED, F.DBG_HALT_REQ, F.DBG_HALT_RESUME, F.DBG_HALT_STEP, F.DBG_HALT_AUTOREL]
  | .DBG_BP => [F.DBG_BP_EN, F.DBG_BP_PC]
  | .TRC_CTL => [F.TRC_CTL_EN, F.TRC_CTL_WRAP, F.TRC_CTL_DRAIN, F.TRC_CTL_WFILT]
  | .TRC_SRCEN0 => [F.TRC_SRCEN0_CORE]
  | .TRC_SRCEN1 => [F.TRC_SRCEN1_CORE]
  | .TRC_SRCEN2 => [F.TRC_SRCEN2_ENG]
  | .TRC_SRCEN3 => [F.TRC_SRCEN3_ENG]
  | .TRC_RINGBASE => [F.TRC_RINGBASE_BASE]
  | .TRC_RINGCTL => [F.TRC_RINGCTL_SIZE]
  | .TRC_RINGHEAD => [F.TRC_RINGHEAD_OFF]
  | .TRC_RINGTAIL => [F.TRC_RINGTAIL_OFF]
  | .TIM_NOW => [F.TIM_NOW_NS]
  | .TIM_SET => [F.TIM_SET_NS]
  | .TIM_CTL => [F.TIM_CTL_EN, F.TIM_CTL_SRC, F.TIM_CTL_SRC2, F.TIM_CTL_GAIN, F.TIM_CTL_STEPTHR]
  | .TIM_STAT => [F.TIM_STAT_LOCKED, F.TIM_STAT_HOLDOVER, F.TIM_STAT_ACTIVE, F.TIM_STAT_REFFAULT]
  | .TIM_FREQ => [F.TIM_FREQ_FREQ]
  | .TIM_OFFSET => [F.TIM_OFFSET_GO, F.TIM_OFFSET_INTERVAL, F.TIM_OFFSET_ERROR]
  | .TIM_PPSOUT => [F.TIM_PPSOUT_EN, F.TIM_PPSOUT_WIDTH]
  | .SAS_CTL => [F.SAS_CTL_EN, F.SAS_CTL_PHASE, F.SAS_CTL_IDLELIM]
  | .SAS_STAT => [F.SAS_STAT_MASTER, F.SAS_STAT_BEACON, F.SAS_STAT_QFULL]
  | .SAS_SLOT => [F.SAS_SLOT_STATE, F.SAS_SLOT_PIN, F.SAS_SLOT_DRIFT, F.SAS_SLOT_DISC, F.SAS_SLOT_ADV, F.SAS_SLOT_UID]
  | .SAS_CMDQ => [F.SAS_CMDQ_SLOT, F.SAS_CMDQ_CODE, F.SAS_CMDQ_INDEX, F.SAS_CMDQ_VALUE]
  | .SAS_SMP => [F.SAS_SMP_EN, F.SAS_SMP_SIZE, F.SAS_SMP_BASE]
  | .SAS_TCMB => [F.SAS_TCMB_EN, F.SAS_TCMB_CORE, F.SAS_TCMB_OFF]
  | .SAS_DISCCNT => [F.SAS_DISCCNT_COUNT]
  | .SAS_VICTCNT => [F.SAS_VICTCNT_COUNT]
  | .SAS_DRIFTCNT => [F.SAS_DRIFTCNT_COUNT]
  | .SAS_CRCERR => [F.SAS_CRCERR_COUNT]
  | .PLK_CTL => [F.PLK_CTL_EN, F.PLK_CTL_WIT, F.PLK_CTL_RANK, F.PLK_CTL_VMAX]
  | .PLK_STAT => [F.PLK_STAT_LINK, F.PLK_STAT_PAIRED, F.PLK_STAT_VERSEL, F.PLK_STAT_SILENT, F.PLK_STAT_DECIDE, F.PLK_STAT_REASON, F.PLK_STAT_RESYNC, F.PLK_STAT_PAIRFAIL]
  | .PLK_CLAIM => [F.PLK_CLAIM_OWN, F.PLK_CLAIM_PARTNER]
  | .PLK_SEG => [F.PLK_SEG_HOME, F.PLK_SEG_GATES, F.PLK_SEG_SERVE]
  | .PLK_SASSEG => [F.PLK_SASSEG_SEG]
  | .PLK_CHSPLIT => [F.PLK_CHSPLIT_SPLIT]
  | .PLK_RETCTL => [F.PLK_RETCTL_AUTO, F.PLK_RETCTL_HOLD, F.PLK_RETCTL_DRAIN]
  | .PLK_CMD => [F.PLK_CMD_BUSY, F.PLK_CMD_ERR, F.PLK_CMD_OP]
  | .PLK_SHNS => [F.PLK_SHNS_EN, F.PLK_SHNS_PORT, F.PLK_SHNS_NSID]
  | .PLK_REPLAYCNT => [F.PLK_REPLAYCNT_COUNT]
  | .PLK_NAKCNT => [F.PLK_NAKCNT_COUNT]
  | .PLK_HBMISS => [F.PLK_HBMISS_COUNT]
  | .KDF_CMD => [F.KDF_CMD_BUSY, F.KDF_CMD_ERR, F.KDF_CMD_OP, F.KDF_CMD_PURP, F.KDF_CMD_EPOCH, F.KDF_CMD_WORLD]
  | .KDF_CTL => [F.KDF_CTL_EN]
  | .KDF_EPBASE => [F.KDF_EPBASE_BASE]
  | .KDF_PURPCTL => [F.KDF_PURPCTL_PERIOD, F.KDF_PURPCTL_GRACE]
  | .KDF_ROOTID => [F.KDF_ROOTID_ID]
  | .KDF_HITCNT => [F.KDF_HITCNT_COUNT]
  | .KDF_MISSCNT => [F.KDF_MISSCNT_COUNT]
  | .KDF_RKDATA => [F.KDF_RKDATA_WORD]
  | .KDF_RKCMD => [F.KDF_RKCMD_BUSY, F.KDF_RKCMD_ERR, F.KDF_RKCMD_GO, F.KDF_RKCMD_BLANK]
  | .WLD_CMD => [F.WLD_CMD_BUSY, F.WLD_CMD_ERR, F.WLD_CMD_OP, F.WLD_CMD_SLOT, F.WLD_CMD_WORLD]
  | .WLD_TBASE => [F.WLD_TBASE_BASE]
  | .WLD_SEL => [F.WLD_SEL_WORLD]
  | .WLD_STAT => [F.WLD_STAT_WSTATE, F.WLD_STAT_THROTTLE, F.WLD_STAT_NOBUFW, F.WLD_STAT_NOCTXW, F.WLD_STAT_NOSLOTW, F.WLD_STAT_OPENCH, F.WLD_STAT_PAGES]
  | .WLD_CNT => [F.WLD_CNT_COUNT]
  | .WLD_SVCCTL => [F.WLD_SVCCTL_HOLD]
  | .WLD_LOADCMD => [F.WLD_LOADCMD_BUSY, F.WLD_LOADCMD_ERR, F.WLD_LOADCMD_DESC]
  | .OWN_RGNA => [F.OWN_RGNA_EN, F.OWN_RGNA_MTYPE, F.OWN_RGNA_START]
  | .OWN_RGNB => [F.OWN_RGNB_INDEX, F.OWN_RGNB_SIZE]
  | .OWN_TBASE => [F.OWN_TBASE_BASE]
  | .OWN_CTL => [F.OWN_CTL_EN]
  | .OWN_CMD => [F.OWN_CMD_BUSY, F.OWN_CMD_ERR, F.OWN_CMD_OP, F.OWN_CMD_RIGHTS, F.OWN_CMD_KSEL, F.OWN_CMD_WORLD, F.OWN_CMD_COUNT]
  | .OWN_CMDADDR => [F.OWN_CMDADDR_ADDR]
  | .OWN_PINOWN => [F.OWN_PINOWN_WORLD, F.OWN_PINOWN_DRIVE, F.OWN_PINOWN_SENSE]
  | .PMU_CRNSEL => [F.PMU_CRNSEL_EN, F.PMU_CRNSEL_MODE, F.PMU_CRNSEL_THR, F.PMU_CRNSEL_EVENT]
  | .PMU_CRNCNT => [F.PMU_CRNCNT_OVF, F.PMU_CRNCNT_OVIE, F.PMU_CRNCNT_COUNT]
  | .PMU_CRNFIX => [F.PMU_CRNFIX_OVF, F.PMU_CRNFIX_OVIE, F.PMU_CRNFIX_COUNT]
  | .PMU_FLOBANK => [F.PMU_FLOBANK_B]
  | .PMU_FLOSEL => [F.PMU_FLOSEL_EN, F.PMU_FLOSEL_MODE, F.PMU_FLOSEL_THR, F.PMU_FLOSEL_EVENT]
  | .PMU_FLOCNT => [F.PMU_FLOCNT_OVF, F.PMU_FLOCNT_OVIE, F.PMU_FLOCNT_COUNT]
  | .PMU_FLOFIX => [F.PMU_FLOFIX_OVF, F.PMU_FLOFIX_OVIE, F.PMU_FLOFIX_COUNT]
  | .PMU_ENGSEL => [F.PMU_ENGSEL_EN, F.PMU_ENGSEL_MODE, F.PMU_ENGSEL_THR, F.PMU_ENGSEL_EVENT]
  | .PMU_ENGCNT => [F.PMU_ENGCNT_OVF, F.PMU_ENGCNT_OVIE, F.PMU_ENGCNT_COUNT]
  | .PMU_PRTSEL => [F.PMU_PRTSEL_EN, F.PMU_PRTSEL_MODE, F.PMU_PRTSEL_THR, F.PMU_PRTSEL_EVENT]
  | .PMU_PRTCNT => [F.PMU_PRTCNT_OVF, F.PMU_PRTCNT_OVIE, F.PMU_PRTCNT_COUNT]
  | .PMU_CMD => [F.PMU_CMD_BUSY, F.PMU_CMD_ERR, F.PMU_CMD_OP, F.PMU_CMD_KIND, F.PMU_CMD_INDEX, F.PMU_CMD_SLOT]
  | .PMU_SNAPTS => [F.PMU_SNAPTS_T]
  | .PMU_SNAPV => [F.PMU_SNAPV_COUNT]
  | .PMU_WBASE => [F.PMU_WBASE_BASE]
  | .CIO_CFG => [F.CIO_CFG_IEEDGE, F.CIO_CFG_IECMP, F.CIO_CFG_IETMR, F.CIO_CFG_FILT, F.CIO_CFG_CMPACT, F.CIO_CFG_EDGE, F.CIO_CFG_OUTVAL, F.CIO_CFG_MODE]
  | .CIO_STAT => [F.CIO_STAT_EDGEP, F.CIO_STAT_CMPF, F.CIO_STAT_TMRF, F.CIO_STAT_OVF, F.CIO_STAT_PIN, F.CIO_STAT_LOST]
  | .CIO_CAP => [F.CIO_CAP_TS]
  | .CIO_CAPINFO => [F.CIO_CAPINFO_DIR, F.CIO_CAPINFO_COUNT]
  | .CIO_CMP => [F.CIO_CMP_TIME]
  | .CIO_CMPPER => [F.CIO_CMPPER_NS]
  | .CIO_TMRNEXT => [F.CIO_TMRNEXT_COUNT]
  | .CIO_PWM => [F.CIO_PWM_PERIOD, F.CIO_PWM_HIGH]
  | .CIO_TMRCTL => [F.CIO_TMRCTL_LEVEL, F.CIO_TMRCTL_MISSED, F.CIO_TMRCTL_PER]
  | .CIO_BIND => [F.CIO_BIND_EN, F.CIO_BIND_CORE, F.CIO_BIND_OFF]
  | .CIO_LOOP => [F.CIO_LOOP_BUSY, F.CIO_LOOP_ERR, F.CIO_LOOP_DONE, F.CIO_LOOP_ACKED, F.CIO_LOOP_OP, F.CIO_LOOP_LIMIT, F.CIO_LOOP_HSOFF]
  | .CHN_CTXBASE => [F.CHN_CTXBASE_BASE]
  | .CHN_CTXCMD => [F.CHN_CTXCMD_BUSY, F.CHN_CTXCMD_ERR, F.CHN_CTXCMD_OP, F.CHN_CTXCMD_CHID]
  | .CHN_DISPCTL => [F.CHN_DISPCTL_W3, F.CHN_DISPCTL_W2, F.CHN_DISPCTL_W1]
  | .CHN_TOCTL => [F.CHN_TOCTL_NVME]
  | .CHN_AUDCMD => [F.CHN_AUDCMD_SNAP, F.CHN_AUDCMD_SCOPE, F.CHN_AUDCMD_PORT, F.CHN_AUDCMD_INDEX]
  | .CHN_AUDSTAT => [F.CHN_AUDSTAT_DONE, F.CHN_AUDSTAT_BUSY, F.CHN_AUDSTAT_IMBAL]
  | .CHN_AUDTS => [F.CHN_AUDTS_T]
  | .CHN_AUDV => [F.CHN_AUDV_V]
  | .CHN_CRPCTL => [F.CHN_CRPCTL_VMAX]
  | .CHN_KACTL => [F.CHN_KACTL_IDLE, F.CHN_KACTL_MISS]
  | .CHN_JBASE => [F.CHN_JBASE_BASE]
  | .CHN_JMBASE => [F.CHN_JMBASE_BASE]
  | .CHN_JCTL => [F.CHN_JCTL_SLOTCAP, F.CHN_JCTL_MIRTHR]
  | .CHN_JNS => [F.CHN_JNS_EN, F.CHN_JNS_PORT, F.CHN_JNS_NSID]
  | .CHN_JSTAT => [F.CHN_JSTAT_FLUSHING, F.CHN_JSTAT_FLUSHED, F.CHN_JSTAT_FLUSHERR, F.CHN_JSTAT_INUSE]
  | .CHN_REPLAYCTL => [F.CHN_REPLAYCTL_WAIT]
  | .CHN_ENGMAP => [F.CHN_ENGMAP_VALID, F.CHN_ENGMAP_PHYS]
  | .CHN_UCLOAD => [F.CHN_UCLOAD_BUSY, F.CHN_UCLOAD_ERR, F.CHN_UCLOAD_GO, F.CHN_UCLOAD_ADDR]
  | .CHN_UCSTAT => [F.CHN_UCSTAT_ROMONLY, F.CHN_UCSTAT_MISMATCH, F.CHN_UCSTAT_BADSET, F.CHN_UCSTAT_SETREV]
  | .CHN_UCREV => [F.CHN_UCREV_ROMREV]
  | .CHN_IFCTL => [F.CHN_IFCTL_MAX, F.CHN_IFCTL_SEL]
  | .NEVE_SPILLCTL => [F.NEVE_SPILLCTL_STALL, F.NEVE_SPILLCTL_LOWWM]
  | .NEVE_SPILLBASE => [F.NEVE_SPILLBASE_BASE]
  | .NEVE_SPILLSIZE => [F.NEVE_SPILLSIZE_SLOTS]
  | .NEVE_SPILLFULL => [F.NEVE_SPILLFULL_COUNT]
  | .NEVE_ALLOCSTAT => [F.NEVE_ALLOCSTAT_FREE, F.NEVE_ALLOCSTAT_MINFREE]
  | .NEVE_NOBUFCNT => [F.NEVE_NOBUFCNT_COUNT]
  | .CMP_SAVEBASE => [F.CMP_SAVEBASE_BASE]
  | .CMP_ENGSTAT => [F.CMP_ENGSTAT_STATE, F.CMP_ENGSTAT_PRIO, F.CMP_ENGSTAT_ISSUER, F.CMP_ENGSTAT_JOB]
  | .CMP_RAWCNT => [F.CMP_RAWCNT_COUNT]
  | .CMP_SUSPCNT => [F.CMP_SUSPCNT_COUNT]
  | .CMP_EXTNOBUF => [F.CMP_EXTNOBUF_COUNT]
  | .CMP_DECFAIL => [F.CMP_DECFAIL_COUNT]
  | .CIP_IVCTL => [F.CIP_IVCTL_ARM, F.CIP_IVCTL_WAITING, F.CIP_IVCTL_PFX]
  | .CIP_IVFLOOR => [F.CIP_IVFLOOR_FLOOR]
  | .CIP_AUTHFAIL => [F.CIP_AUTHFAIL_COUNT]
  | .CIP_SUSPCNT => [F.CIP_SUSPCNT_COUNT]
  | .CIP_SUSPFULL => [F.CIP_SUSPFULL_COUNT]
  | .FLO_KTBASE => [F.FLO_KTBASE_BASE]
  | .FLO_XWORD => [F.FLO_XWORD_WORD]
  | .FLO_XCHG => [F.FLO_XCHG_BUSY, F.FLO_XCHG_ERR, F.FLO_XCHG_DONE, F.FLO_XCHG_GO, F.FLO_XCHG_ATT, F.FLO_XCHG_CHID]
  | .FLO_L2MASK => [F.FLO_L2MASK_WORLD, F.FLO_L2MASK_WAYS]
  | .FLO_L2DEF => [F.FLO_L2DEF_WAYS]
  | .FLO_CORESTAT => [F.FLO_CORESTAT_STATE, F.FLO_CORESTAT_KID, F.FLO_CORESTAT_WORLD]
  | .FLO_SEGCNT => [F.FLO_SEGCNT_COUNT]
  | .FLO_SWITCHCNT => [F.FLO_SWITCHCNT_COUNT]
  | .FLO_KFAULTCNT => [F.FLO_KFAULTCNT_COUNT]
  | .FLO_HTBASE => [F.FLO_HTBASE_BASE]
  | .FLO_HTCTL => [F.FLO_HTCTL_EN, F.FLO_HTCTL_SIZE]
  | .FLO_L2CTL => [F.FLO_L2CTL_BUSY, F.FLO_L2CTL_STALE, F.FLO_L2CTL_OP, F.FLO_L2CTL_EN]
  | .FLO_PFCTL => [F.FLO_PFCTL_EN, F.FLO_PFCTL_DIST]
  | .FLO_PFDROP => [F.FLO_PFDROP_COUNT]
  | .FLO_MAP => [F.FLO_MAP_VALID, F.FLO_MAP_PHYS]
  | .CRN_IROUTE => [F.CRN_IROUTE_CORE]
  | .CRN_IPI => [F.CRN_IPI_CORE]
  | .CRN_UCREV => [F.CRN_UCREV_ROMREV]
  | .CRN_UCLOAD => [F.CRN_UCLOAD_BUSY, F.CRN_UCLOAD_ERR, F.CRN_UCLOAD_GO, F.CRN_UCLOAD_ADDR]
  | .CRN_UCSTAT => [F.CRN_UCSTAT_ROMONLY, F.CRN_UCSTAT_MISMATCH, F.CRN_UCSTAT_BADSET, F.CRN_UCSTAT_SETREV]
  | .CRN_CKCTL => [F.CRN_CKCTL_INTERVAL]
  | .CRN_RETRYCNT => [F.CRN_RETRYCNT_COUNT]
  | .CRN_L2CTL => [F.CRN_L2CTL_BUSY, F.CRN_L2CTL_STALE, F.CRN_L2CTL_OP, F.CRN_L2CTL_EN]
  | .CRN_L1CMD => [F.CRN_L1CMD_BUSY, F.CRN_L1CMD_ISTALE, F.CRN_L1CMD_DSTALE, F.CRN_L1CMD_OP]
  | .CRN_PFCTL => [F.CRN_PFCTL_EN, F.CRN_PFCTL_DIST]
  | .CRN_PFDROP => [F.CRN_PFDROP_COUNT]
  | .CRN_ATOMCTL => [F.CRN_ATOMCTL_MODE]
  | .CRN_PAIRCTL => [F.CRN_PAIRCTL_SLIP]
  | .CRN_PAIRSTAT => [F.CRN_PAIRSTAT_STATE, F.CRN_PAIRSTAT_TRAIL, F.CRN_PAIRSTAT_LEAD]
  | .CRN_MAP => [F.CRN_MAP_VALID, F.CRN_MAP_PHYS]
  | .SNP_CTL => [F.SNP_CTL_SLICES, F.SNP_CTL_REPL]
  | .SNP_SLICECTL => [F.SNP_SLICECTL_BUSY, F.SNP_SLICECTL_STALE, F.SNP_SLICECTL_OP, F.SNP_SLICECTL_SCRWAYS, F.SNP_SLICECTL_SCRRDY, F.SNP_SLICECTL_EN]
  | .COH_CTL => [F.COH_CTL_LRHOLD]
  | .COH_DIRCNT => [F.COH_DIRCNT_COUNT]
  | .COH_VBFULL => [F.COH_VBFULL_COUNT]
  | .ETH_PORTCFG => [F.ETH_PORTCFG_EN, F.ETH_PORTCFG_SPLIT, F.ETH_PORTCFG_PFCEN, F.ETH_PORTCFG_PFCWD, F.ETH_PORTCFG_ROCEPRIO, F.ETH_PORTCFG_CNPPRIO]
  | .ETH_ADDR_W0 => [F.ETH_ADDR_W0_MAC]
  | .ETH_ADDR_W1 => [F.ETH_ADDR_W1_SEG, F.ETH_ADDR_W1_EN]
  | .ETH_ADDR_W2 => [F.ETH_ADDR_W2_IPLO]
  | .ETH_ADDR_W3 => [F.ETH_ADDR_W3_IPHI]
  | .ETH_QPBASE => [F.ETH_QPBASE_BASE]
  | .ETH_QPCMD => [F.ETH_QPCMD_BUSY, F.ETH_QPCMD_ERR, F.ETH_QPCMD_OP, F.ETH_QPCMD_PORT, F.ETH_QPCMD_QPN]
  | .ETH_QPDROP => [F.ETH_QPDROP_COUNT]
  | .ETH_TXTS_W0 => [F.ETH_TXTS_W0_TS]
  | .ETH_TXTS_W1 => [F.ETH_TXTS_W1_VALID, F.ETH_TXTS_W1_SEQID]
  | .PCI_PORTCFG => [F.PCI_PORTCFG_EN, F.PCI_PORTCFG_CXL, F.PCI_PORTCFG_BIFUR, F.PCI_PORTCFG_NCTRL, F.PCI_PORTCFG_TAGS]
  | .PCI_CTRLMAP => [F.PCI_CTRLMAP_VALID, F.PCI_CTRLMAP_RID]
  | .MEMH_CFG => [F.MEMH_CFG_UNITGIB, F.MEMH_CFG_MAP, F.MEMH_CFG_UNITS]
  | .MEMH_ECCCNT => [F.MEMH_ECCCNT_COUNT]
  | .MEMH_UECNT => [F.MEMH_UECNT_COUNT]
  | .MEMB_CFG => [F.MEMB_CFG_UNITGIB, F.MEMB_CFG_MAP, F.MEMB_CFG_UNITS]
  | .MEMB_ECCCNT => [F.MEMB_ECCCNT_COUNT]
  | .MEMB_UECNT => [F.MEMB_UECNT_COUNT]

/-- The number of a register name, in the order of R473. -/
def RegName.code : RegName → Nat
  | .SYS_READY => 0
  | .SYS_MODE => 1
  | .SYS_MODETS => 2
  | .SYS_MODEREQ => 3
  | .IDREV_IDREV => 4
  | .IDREV_SERNO_W0 => 5
  | .IDREV_SERNO_W1 => 6
  | .BOOT_STAT => 7
  | .BOOT_CTL => 8
  | .PWR_VID => 9
  | .PWR_THERM => 10
  | .PWR_LPCTL => 11
  | .KPR_MEAS => 12
  | .KPR_RSTCTL => 13
  | .KPR_RSTCNT => 14
  | .KPR_KCTL => 15
  | .KPR_KSTAT => 16
  | .KPR_KCMD => 17
  | .KPR_EXTDATA => 18
  | .KPR_EXTEND => 19
  | .MOR_CLS => 20
  | .MOR_CLSTS => 21
  | .MOR_SUMMARY => 22
  | .MOR_CTL => 23
  | .MOR_LOGBASE => 24
  | .MOR_LOGCTL => 25
  | .MOR_LOGHEAD => 26
  | .MOR_LOGTAIL => 27
  | .MOR_DROPCNT => 28
  | .MOR_FATAL => 29
  | .DBG_GRANT => 30
  | .DBG_EXPIRE => 31
  | .DBG_STAT => 32
  | .DBG_HALT => 33
  | .DBG_BP => 34
  | .TRC_CTL => 35
  | .TRC_SRCEN0 => 36
  | .TRC_SRCEN1 => 37
  | .TRC_SRCEN2 => 38
  | .TRC_SRCEN3 => 39
  | .TRC_RINGBASE => 40
  | .TRC_RINGCTL => 41
  | .TRC_RINGHEAD => 42
  | .TRC_RINGTAIL => 43
  | .TIM_NOW => 44
  | .TIM_SET => 45
  | .TIM_CTL => 46
  | .TIM_STAT => 47
  | .TIM_FREQ => 48
  | .TIM_OFFSET => 49
  | .TIM_PPSOUT => 50
  | .SAS_CTL => 51
  | .SAS_STAT => 52
  | .SAS_SLOT => 53
  | .SAS_CMDQ => 54
  | .SAS_SMP => 55
  | .SAS_TCMB => 56
  | .SAS_DISCCNT => 57
  | .SAS_VICTCNT => 58
  | .SAS_DRIFTCNT => 59
  | .SAS_CRCERR => 60
  | .PLK_CTL => 61
  | .PLK_STAT => 62
  | .PLK_CLAIM => 63
  | .PLK_SEG => 64
  | .PLK_SASSEG => 65
  | .PLK_CHSPLIT => 66
  | .PLK_RETCTL => 67
  | .PLK_CMD => 68
  | .PLK_SHNS => 69
  | .PLK_REPLAYCNT => 70
  | .PLK_NAKCNT => 71
  | .PLK_HBMISS => 72
  | .KDF_CMD => 73
  | .KDF_CTL => 74
  | .KDF_EPBASE => 75
  | .KDF_PURPCTL => 76
  | .KDF_ROOTID => 77
  | .KDF_HITCNT => 78
  | .KDF_MISSCNT => 79
  | .KDF_RKDATA => 80
  | .KDF_RKCMD => 81
  | .WLD_CMD => 82
  | .WLD_TBASE => 83
  | .WLD_SEL => 84
  | .WLD_STAT => 85
  | .WLD_CNT => 86
  | .WLD_SVCCTL => 87
  | .WLD_LOADCMD => 88
  | .OWN_RGNA => 89
  | .OWN_RGNB => 90
  | .OWN_TBASE => 91
  | .OWN_CTL => 92
  | .OWN_CMD => 93
  | .OWN_CMDADDR => 94
  | .OWN_PINOWN => 95
  | .PMU_CRNSEL => 96
  | .PMU_CRNCNT => 97
  | .PMU_CRNFIX => 98
  | .PMU_FLOBANK => 99
  | .PMU_FLOSEL => 100
  | .PMU_FLOCNT => 101
  | .PMU_FLOFIX => 102
  | .PMU_ENGSEL => 103
  | .PMU_ENGCNT => 104
  | .PMU_PRTSEL => 105
  | .PMU_PRTCNT => 106
  | .PMU_CMD => 107
  | .PMU_SNAPTS => 108
  | .PMU_SNAPV => 109
  | .PMU_WBASE => 110
  | .CIO_CFG => 111
  | .CIO_STAT => 112
  | .CIO_CAP => 113
  | .CIO_CAPINFO => 114
  | .CIO_CMP => 115
  | .CIO_CMPPER => 116
  | .CIO_TMRNEXT => 117
  | .CIO_PWM => 118
  | .CIO_TMRCTL => 119
  | .CIO_BIND => 120
  | .CIO_LOOP => 121
  | .CHN_CTXBASE => 122
  | .CHN_CTXCMD => 123
  | .CHN_DISPCTL => 124
  | .CHN_TOCTL => 125
  | .CHN_AUDCMD => 126
  | .CHN_AUDSTAT => 127
  | .CHN_AUDTS => 128
  | .CHN_AUDV => 129
  | .CHN_CRPCTL => 130
  | .CHN_KACTL => 131
  | .CHN_JBASE => 132
  | .CHN_JMBASE => 133
  | .CHN_JCTL => 134
  | .CHN_JNS => 135
  | .CHN_JSTAT => 136
  | .CHN_REPLAYCTL => 137
  | .CHN_ENGMAP => 138
  | .CHN_UCLOAD => 139
  | .CHN_UCSTAT => 140
  | .CHN_UCREV => 141
  | .CHN_IFCTL => 142
  | .NEVE_SPILLCTL => 143
  | .NEVE_SPILLBASE => 144
  | .NEVE_SPILLSIZE => 145
  | .NEVE_SPILLFULL => 146
  | .NEVE_ALLOCSTAT => 147
  | .NEVE_NOBUFCNT => 148
  | .CMP_SAVEBASE => 149
  | .CMP_ENGSTAT => 150
  | .CMP_RAWCNT => 151
  | .CMP_SUSPCNT => 152
  | .CMP_EXTNOBUF => 153
  | .CMP_DECFAIL => 154
  | .CIP_IVCTL => 155
  | .CIP_IVFLOOR => 156
  | .CIP_AUTHFAIL => 157
  | .CIP_SUSPCNT => 158
  | .CIP_SUSPFULL => 159
  | .FLO_KTBASE => 160
  | .FLO_XWORD => 161
  | .FLO_XCHG => 162
  | .FLO_L2MASK => 163
  | .FLO_L2DEF => 164
  | .FLO_CORESTAT => 165
  | .FLO_SEGCNT => 166
  | .FLO_SWITCHCNT => 167
  | .FLO_KFAULTCNT => 168
  | .FLO_HTBASE => 169
  | .FLO_HTCTL => 170
  | .FLO_L2CTL => 171
  | .FLO_PFCTL => 172
  | .FLO_PFDROP => 173
  | .FLO_MAP => 174
  | .CRN_IROUTE => 175
  | .CRN_IPI => 176
  | .CRN_UCREV => 177
  | .CRN_UCLOAD => 178
  | .CRN_UCSTAT => 179
  | .CRN_CKCTL => 180
  | .CRN_RETRYCNT => 181
  | .CRN_L2CTL => 182
  | .CRN_L1CMD => 183
  | .CRN_PFCTL => 184
  | .CRN_PFDROP => 185
  | .CRN_ATOMCTL => 186
  | .CRN_PAIRCTL => 187
  | .CRN_PAIRSTAT => 188
  | .CRN_MAP => 189
  | .SNP_CTL => 190
  | .SNP_SLICECTL => 191
  | .COH_CTL => 192
  | .COH_DIRCNT => 193
  | .COH_VBFULL => 194
  | .ETH_PORTCFG => 195
  | .ETH_ADDR_W0 => 196
  | .ETH_ADDR_W1 => 197
  | .ETH_ADDR_W2 => 198
  | .ETH_ADDR_W3 => 199
  | .ETH_QPBASE => 200
  | .ETH_QPCMD => 201
  | .ETH_QPDROP => 202
  | .ETH_TXTS_W0 => 203
  | .ETH_TXTS_W1 => 204
  | .PCI_PORTCFG => 205
  | .PCI_CTRLMAP => 206
  | .MEMH_CFG => 207
  | .MEMH_ECCCNT => 208
  | .MEMH_UECNT => 209
  | .MEMB_CFG => 210
  | .MEMB_ECCCNT => 211
  | .MEMB_UECNT => 212

/-- One item of R474: the names of its 8-byte words, block offset of instance 0, offset in the instance, elements on
HK7-X and HK7-M, element size, instances on both, and the distance between instances. -/
structure RegItem where
  /-- Words of one element. -/
  words : List RegName
  /-- Block offset (R473). -/
  base : Nat
  /-- Offset in the instance (R474). -/
  off : Nat
  /-- Elements of an HK7-X. -/
  nX : Nat
  /-- Elements of an HK7-M (R475). -/
  nM : Nat
  /-- Bytes of one element. -/
  size : Nat
  /-- Instances of an HK7-X. -/
  iX : Nat
  /-- Instances of an HK7-M. -/
  iM : Nat
  /-- Distance between instances. -/
  stride : Nat
  deriving DecidableEq, Repr

/-- The items of block SYS. -/
def regItemsSYS : List RegItem :=
  [⟨[.SYS_READY], 0x0, 0x0, 1, 1, 8, 1, 1, 0x0⟩,
   ⟨[.SYS_MODE], 0x0, 0x8, 1, 1, 8, 1, 1, 0x0⟩,
   ⟨[.SYS_MODETS], 0x0, 0x10, 1, 1, 8, 1, 1, 0x0⟩,
   ⟨[.SYS_MODEREQ], 0x0, 0x18, 1, 1, 8, 1, 1, 0x0⟩]

/-- The items of block IDREV. -/
def regItemsIDREV : List RegItem :=
  [⟨[.IDREV_IDREV], 0x10000, 0x0, 1, 1, 8, 1, 1, 0x0⟩,
   ⟨[.IDREV_SERNO_W0, .IDREV_SERNO_W1], 0x10000, 0x10, 1, 1, 16, 1, 1, 0x0⟩]

/-- The items of block BOOT. -/
def regItemsBOOT : List RegItem :=
  [⟨[.BOOT_STAT], 0x20000, 0x0, 1, 1, 8, 1, 1, 0x0⟩,
   ⟨[.BOOT_CTL], 0x20000, 0x8, 1, 1, 8, 1, 1, 0x0⟩]

/-- The items of block PWR. -/
def regItemsPWR : List RegItem :=
  [⟨[.PWR_VID], 0x30000, 0x0, 1, 1, 8, 1, 1, 0x0⟩,
   ⟨[.PWR_THERM], 0x30000, 0x8, 1, 1, 8, 1, 1, 0x0⟩,
   ⟨[.PWR_LPCTL], 0x30000, 0x10, 1, 1, 8, 1, 1, 0x0⟩]

/-- The items of block KPR. -/
def regItemsKPR : List RegItem :=
  [⟨[.KPR_MEAS], 0x40000, 0x0, 24, 24, 8, 1, 1, 0x0⟩,
   ⟨[.KPR_RSTCTL], 0x40000, 0xc0, 1, 1, 8, 1, 1, 0x0⟩,
   ⟨[.KPR_RSTCNT], 0x40000, 0xc8, 1, 1, 8, 1, 1, 0x0⟩,
   ⟨[.KPR_KCTL], 0x40000, 0xd0, 1, 1, 8, 1, 1, 0x0⟩,
   ⟨[.KPR_KSTAT], 0x40000, 0xd8, 1, 1, 8, 1, 1, 0x0⟩,
   ⟨[.KPR_KCMD], 0x40000, 0xe0, 1, 1, 8, 1, 1, 0x0⟩,
   ⟨[.KPR_EXTDATA], 0x40000, 0x100, 6, 6, 8, 1, 1, 0x0⟩,
   ⟨[.KPR_EXTEND], 0x40000, 0x130, 1, 1, 8, 1, 1, 0x0⟩]

/-- The items of block MOR. -/
def regItemsMOR : List RegItem :=
  [⟨[.MOR_CLS], 0x50000, 0x0, 64, 64, 8, 1, 1, 0x0⟩,
   ⟨[.MOR_CLSTS], 0x50000, 0x200, 64, 64, 8, 1, 1, 0x0⟩,
   ⟨[.MOR_SUMMARY], 0x50000, 0x400, 1, 1, 8, 1, 1, 0x0⟩,
   ⟨[.MOR_CTL], 0x50000, 0x408, 1, 1, 8, 1, 1, 0x0⟩,
   ⟨[.MOR_LOGBASE], 0x50000, 0x410, 1, 1, 8, 1, 1, 0x0⟩,
   ⟨[.MOR_LOGCTL], 0x50000, 0x418, 1, 1, 8, 1, 1, 0x0⟩,
   ⟨[.MOR_LOGHEAD], 0x50000, 0x420, 1, 1, 8, 1, 1, 0x0⟩,
   ⟨[.MOR_LOGTAIL], 0x50000, 0x428, 1, 1, 8, 1, 1, 0x0⟩,
   ⟨[.MOR_DROPCNT], 0x50000, 0x430, 1, 1, 8, 1, 1, 0x0⟩,
   ⟨[.MOR_FATAL], 0x50000, 0x440, 4, 4, 8, 1, 1, 0x0⟩]

/-- The items of block DBG. -/
def regItemsDBG : List RegItem :=
  [⟨[.DBG_GRANT], 0x60000, 0x0, 1, 1, 8, 1, 1, 0x0⟩,
   ⟨[.DBG_EXPIRE], 0x60000, 0x8, 1, 1, 8, 1, 1, 0x0⟩,
   ⟨[.DBG_STAT], 0x60000, 0x10, 1, 1, 8, 1, 1, 0x0⟩,
   ⟨[.DBG_HALT], 0x60000, 0x100, 32, 16, 8, 1, 1, 0x0⟩,
   ⟨[.DBG_BP], 0x60000, 0x400, 128, 64, 8, 1, 1, 0x0⟩]

/-- The items of block TRC. -/
def regItemsTRC : List RegItem :=
  [⟨[.TRC_CTL], 0x70000, 0x0, 1, 1, 8, 1, 1, 0x0⟩,
   ⟨[.TRC_SRCEN0], 0x70000, 0x8, 1, 1, 8, 1, 1, 0x0⟩,
   ⟨[.TRC_SRCEN1], 0x70000, 0x10, 1, 1, 8, 1, 1, 0x0⟩,
   ⟨[.TRC_SRCEN2], 0x70000, 0x18, 1, 1, 8, 1, 1, 0x0⟩,
   ⟨[.TRC_SRCEN3], 0x70000, 0x20, 1, 1, 8, 1, 1, 0x0⟩,
   ⟨[.TRC_RINGBASE], 0x70000, 0x28, 1, 1, 8, 1, 1, 0x0⟩,
   ⟨[.TRC_RINGCTL], 0x70000, 0x30, 1, 1, 8, 1, 1, 0x0⟩,
   ⟨[.TRC_RINGHEAD], 0x70000, 0x38, 1, 1, 8, 1, 1, 0x0⟩,
   ⟨[.TRC_RINGTAIL], 0x70000, 0x40, 1, 1, 8, 1, 1, 0x0⟩]

/-- The items of block TIM. -/
def regItemsTIM : List RegItem :=
  [⟨[.TIM_NOW], 0x80000, 0x0, 1, 1, 8, 1, 1, 0x0⟩,
   ⟨[.TIM_SET], 0x80000, 0x8, 1, 1, 8, 1, 1, 0x0⟩,
   ⟨[.TIM_CTL], 0x80000, 0x10, 1, 1, 8, 1, 1, 0x0⟩,
   ⟨[.TIM_STAT], 0x80000, 0x18, 1, 1, 8, 1, 1, 0x0⟩,
   ⟨[.TIM_FREQ], 0x80000, 0x20, 1, 1, 8, 1, 1, 0x0⟩,
   ⟨[.TIM_OFFSET], 0x80000, 0x28, 1, 1, 8, 1, 1, 0x0⟩,
   ⟨[.TIM_PPSOUT], 0x80000, 0x30, 1, 1, 8, 1, 1, 0x0⟩]

/-- The items of block SAS. -/
def regItemsSAS : List RegItem :=
  [⟨[.SAS_CTL], 0x90000, 0x0, 4, 4, 8, 1, 1, 0x0⟩,
   ⟨[.SAS_STAT], 0x90000, 0x20, 4, 4, 8, 1, 1, 0x0⟩,
   ⟨[.SAS_SLOT], 0x90000, 0x800, 240, 240, 8, 1, 1, 0x0⟩,
   ⟨[.SAS_CMDQ], 0x90000, 0xf80, 4, 4, 8, 1, 1, 0x0⟩,
   ⟨[.SAS_SMP], 0x90000, 0xfa0, 4, 4, 8, 1, 1, 0x0⟩,
   ⟨[.SAS_TCMB], 0x90000, 0xfc0, 4, 4, 8, 1, 1, 0x0⟩,
   ⟨[.SAS_DISCCNT], 0x90000, 0xfe0, 4, 4, 8, 1, 1, 0x0⟩,
   ⟨[.SAS_VICTCNT], 0x90000, 0x1000, 4, 4, 8, 1, 1, 0x0⟩,
   ⟨[.SAS_DRIFTCNT], 0x90000, 0x1020, 4, 4, 8, 1, 1, 0x0⟩,
   ⟨[.SAS_CRCERR], 0x90000, 0x1040, 4, 4, 8, 1, 1, 0x0⟩]

/-- The items of block PLK. -/
def regItemsPLK : List RegItem :=
  [⟨[.PLK_CTL], 0xa0000, 0x0, 1, 1, 8, 1, 1, 0x0⟩,
   ⟨[.PLK_STAT], 0xa0000, 0x8, 1, 1, 8, 1, 1, 0x0⟩,
   ⟨[.PLK_CLAIM], 0xa0000, 0x10, 1, 1, 8, 1, 1, 0x0⟩,
   ⟨[.PLK_SEG], 0xa0000, 0x18, 1, 1, 8, 1, 1, 0x0⟩,
   ⟨[.PLK_SASSEG], 0xa0000, 0x20, 1, 1, 8, 1, 1, 0x0⟩,
   ⟨[.PLK_CHSPLIT], 0xa0000, 0x28, 1, 1, 8, 1, 1, 0x0⟩,
   ⟨[.PLK_RETCTL], 0xa0000, 0x30, 1, 1, 8, 1, 1, 0x0⟩,
   ⟨[.PLK_CMD], 0xa0000, 0x38, 1, 1, 8, 1, 1, 0x0⟩,
   ⟨[.PLK_SHNS], 0xa0000, 0x100, 32, 32, 8, 1, 1, 0x0⟩,
   ⟨[.PLK_REPLAYCNT], 0xa0000, 0x200, 1, 1, 8, 1, 1, 0x0⟩,
   ⟨[.PLK_NAKCNT], 0xa0000, 0x208, 1, 1, 8, 1, 1, 0x0⟩,
   ⟨[.PLK_HBMISS], 0xa0000, 0x210, 1, 1, 8, 1, 1, 0x0⟩]

/-- The items of block KDF. -/
def regItemsKDF : List RegItem :=
  [⟨[.KDF_CMD], 0xb0000, 0x0, 1, 1, 8, 1, 1, 0x0⟩,
   ⟨[.KDF_CTL], 0xb0000, 0x8, 1, 1, 8, 1, 1, 0x0⟩,
   ⟨[.KDF_EPBASE], 0xb0000, 0x10, 1, 1, 8, 1, 1, 0x0⟩,
   ⟨[.KDF_PURPCTL], 0xb0000, 0x20, 2, 2, 8, 1, 1, 0x0⟩,
   ⟨[.KDF_ROOTID], 0xb0000, 0x30, 1, 1, 8, 1, 1, 0x0⟩,
   ⟨[.KDF_HITCNT], 0xb0000, 0x38, 1, 1, 8, 1, 1, 0x0⟩,
   ⟨[.KDF_MISSCNT], 0xb0000, 0x40, 1, 1, 8, 1, 1, 0x0⟩,
   ⟨[.KDF_RKDATA], 0xb0000, 0x60, 4, 4, 8, 1, 1, 0x0⟩,
   ⟨[.KDF_RKCMD], 0xb0000, 0x80, 1, 1, 8, 1, 1, 0x0⟩]

/-- The items of block WLD. -/
def regItemsWLD : List RegItem :=
  [⟨[.WLD_CMD], 0xc0000, 0x0, 1, 1, 8, 1, 1, 0x0⟩,
   ⟨[.WLD_TBASE], 0xc0000, 0x8, 1, 1, 8, 1, 1, 0x0⟩,
   ⟨[.WLD_SEL], 0xc0000, 0x10, 1, 1, 8, 1, 1, 0x0⟩,
   ⟨[.WLD_STAT], 0xc0000, 0x18, 1, 1, 8, 1, 1, 0x0⟩,
   ⟨[.WLD_CNT], 0xc0000, 0x40, 8, 8, 8, 1, 1, 0x0⟩,
   ⟨[.WLD_SVCCTL], 0xc0000, 0x80, 1, 1, 8, 1, 1, 0x0⟩,
   ⟨[.WLD_LOADCMD], 0xc0000, 0x88, 1, 1, 8, 1, 1, 0x0⟩]

/-- The items of block OWN. -/
def regItemsOWN : List RegItem :=
  [⟨[.OWN_RGNA], 0xd0000, 0x0, 16, 16, 8, 1, 1, 0x0⟩,
   ⟨[.OWN_RGNB], 0xd0000, 0x80, 16, 16, 8, 1, 1, 0x0⟩,
   ⟨[.OWN_TBASE], 0xd0000, 0x100, 1, 1, 8, 1, 1, 0x0⟩,
   ⟨[.OWN_CTL], 0xd0000, 0x108, 1, 1, 8, 1, 1, 0x0⟩,
   ⟨[.OWN_CMD], 0xd0000, 0x110, 1, 1, 8, 1, 1, 0x0⟩,
   ⟨[.OWN_CMDADDR], 0xd0000, 0x118, 1, 1, 8, 1, 1, 0x0⟩,
   ⟨[.OWN_PINOWN], 0xd0000, 0x200, 48, 48, 8, 1, 1, 0x0⟩]

/-- The items of block PMU. -/
def regItemsPMU : List RegItem :=
  [⟨[.PMU_CRNSEL], 0x100000, 0x0, 288, 160, 8, 1, 1, 0x0⟩,
   ⟨[.PMU_CRNCNT], 0x100000, 0x1000, 288, 160, 8, 1, 1, 0x0⟩,
   ⟨[.PMU_CRNFIX], 0x100000, 0x1c00, 108, 60, 8, 1, 1, 0x0⟩,
   ⟨[.PMU_FLOBANK], 0x100000, 0x1f60, 1, 1, 8, 1, 1, 0x0⟩,
   ⟨[.PMU_FLOSEL], 0x100000, 0x2000, 72, 72, 8, 1, 1, 0x0⟩,
   ⟨[.PMU_FLOCNT], 0x100000, 0x2400, 72, 72, 8, 1, 1, 0x0⟩,
   ⟨[.PMU_FLOFIX], 0x100000, 0x4000, 864, 432, 8, 1, 1, 0x0⟩,
   ⟨[.PMU_ENGSEL], 0x100000, 0x6000, 496, 496, 8, 1, 1, 0x0⟩,
   ⟨[.PMU_ENGCNT], 0x100000, 0x7000, 496, 496, 8, 1, 1, 0x0⟩,
   ⟨[.PMU_PRTSEL], 0x100000, 0x8000, 164, 164, 8, 1, 1, 0x0⟩,
   ⟨[.PMU_PRTCNT], 0x100000, 0x8800, 164, 164, 8, 1, 1, 0x0⟩,
   ⟨[.PMU_CMD], 0x100000, 0x8d20, 1, 1, 8, 1, 1, 0x0⟩,
   ⟨[.PMU_SNAPTS], 0x100000, 0x8d28, 1, 1, 8, 1, 1, 0x0⟩,
   ⟨[.PMU_SNAPV], 0x100000, 0x8d80, 16, 16, 8, 1, 1, 0x0⟩,
   ⟨[.PMU_WBASE], 0x100000, 0x8e00, 1, 1, 8, 1, 1, 0x0⟩]

/-- The items of block CIO. -/
def regItemsCIO : List RegItem :=
  [⟨[.CIO_CFG], 0xf00000, 0x0, 1, 1, 8, 48, 48, 0x1000⟩,
   ⟨[.CIO_STAT], 0xf00000, 0x8, 1, 1, 8, 48, 48, 0x1000⟩,
   ⟨[.CIO_CAP], 0xf00000, 0x10, 1, 1, 8, 48, 48, 0x1000⟩,
   ⟨[.CIO_CAPINFO], 0xf00000, 0x18, 1, 1, 8, 48, 48, 0x1000⟩,
   ⟨[.CIO_CMP], 0xf00000, 0x20, 1, 1, 8, 48, 48, 0x1000⟩,
   ⟨[.CIO_CMPPER], 0xf00000, 0x28, 1, 1, 8, 48, 48, 0x1000⟩,
   ⟨[.CIO_TMRNEXT], 0xf00000, 0x30, 1, 1, 8, 48, 48, 0x1000⟩,
   ⟨[.CIO_PWM], 0xf00000, 0x38, 1, 1, 8, 48, 48, 0x1000⟩,
   ⟨[.CIO_TMRCTL], 0xf00000, 0x40, 1, 1, 8, 48, 48, 0x1000⟩,
   ⟨[.CIO_BIND], 0xf00000, 0x48, 1, 1, 8, 48, 48, 0x1000⟩,
   ⟨[.CIO_LOOP], 0xf00000, 0x30000, 32, 16, 8, 1, 1, 0⟩]

/-- The items of block CHN. -/
def regItemsCHN : List RegItem :=
  [⟨[.CHN_CTXBASE], 0x1000000, 0x0, 1, 1, 8, 1, 1, 0x0⟩,
   ⟨[.CHN_CTXCMD], 0x1000000, 0x8, 1, 1, 8, 1, 1, 0x0⟩,
   ⟨[.CHN_DISPCTL], 0x1000000, 0x10, 1, 1, 8, 1, 1, 0x0⟩,
   ⟨[.CHN_TOCTL], 0x1000000, 0x18, 1, 1, 8, 1, 1, 0x0⟩,
   ⟨[.CHN_AUDCMD], 0x1000000, 0x20, 1, 1, 8, 1, 1, 0x0⟩,
   ⟨[.CHN_AUDSTAT], 0x1000000, 0x28, 1, 1, 8, 1, 1, 0x0⟩,
   ⟨[.CHN_AUDTS], 0x1000000, 0x30, 1, 1, 8, 1, 1, 0x0⟩,
   ⟨[.CHN_AUDV], 0x1000000, 0x40, 8, 8, 8, 1, 1, 0x0⟩,
   ⟨[.CHN_CRPCTL], 0x1000000, 0x80, 1, 1, 8, 1, 1, 0x0⟩,
   ⟨[.CHN_KACTL], 0x1000000, 0x88, 1, 1, 8, 1, 1, 0x0⟩,
   ⟨[.CHN_JBASE], 0x1000000, 0x90, 1, 1, 8, 1, 1, 0x0⟩,
   ⟨[.CHN_JMBASE], 0x1000000, 0x98, 1, 1, 8, 1, 1, 0x0⟩,
   ⟨[.CHN_JCTL], 0x1000000, 0xa0, 1, 1, 8, 1, 1, 0x0⟩,
   ⟨[.CHN_JNS], 0x1000000, 0xc0, 4, 4, 8, 1, 1, 0x0⟩,
   ⟨[.CHN_JSTAT], 0x1000000, 0xe0, 1, 1, 8, 1, 1, 0x0⟩,
   ⟨[.CHN_REPLAYCTL], 0x1000000, 0xe8, 1, 1, 8, 1, 1, 0x0⟩,
   ⟨[.CHN_ENGMAP], 0x1000000, 0x200, 64, 32, 8, 1, 1, 0x0⟩,
   ⟨[.CHN_UCLOAD], 0x1000000, 0x400, 1, 1, 8, 1, 1, 0x0⟩,
   ⟨[.CHN_UCSTAT], 0x1000000, 0x408, 1, 1, 8, 1, 1, 0x0⟩,
   ⟨[.CHN_UCREV], 0x1000000, 0x410, 1, 1, 8, 1, 1, 0x0⟩,
   ⟨[.CHN_IFCTL], 0x1000000, 0x418, 1, 1, 8, 1, 1, 0x0⟩]

/-- The items of block NEVE. -/
def regItemsNEVE : List RegItem :=
  [⟨[.NEVE_SPILLCTL], 0x1100000, 0x0, 1, 1, 8, 1, 1, 0x0⟩,
   ⟨[.NEVE_SPILLBASE], 0x1100000, 0x8, 1, 1, 8, 1, 1, 0x0⟩,
   ⟨[.NEVE_SPILLSIZE], 0x1100000, 0x10, 1, 1, 8, 1, 1, 0x0⟩,
   ⟨[.NEVE_SPILLFULL], 0x1100000, 0x18, 1, 1, 8, 1, 1, 0x0⟩,
   ⟨[.NEVE_ALLOCSTAT], 0x1100000, 0x20, 1, 1, 8, 1, 1, 0x0⟩,
   ⟨[.NEVE_NOBUFCNT], 0x1100000, 0x28, 1, 1, 8, 1, 1, 0x0⟩]

/-- The items of block CMP. -/
def regItemsCMP : List RegItem :=
  [⟨[.CMP_SAVEBASE], 0x1200000, 0x0, 1, 1, 8, 1, 1, 0x0⟩,
   ⟨[.CMP_ENGSTAT], 0x1200000, 0x100, 32, 16, 8, 1, 1, 0x0⟩,
   ⟨[.CMP_RAWCNT], 0x1200000, 0x200, 1, 1, 8, 1, 1, 0x0⟩,
   ⟨[.CMP_SUSPCNT], 0x1200000, 0x208, 1, 1, 8, 1, 1, 0x0⟩,
   ⟨[.CMP_EXTNOBUF], 0x1200000, 0x210, 1, 1, 8, 1, 1, 0x0⟩,
   ⟨[.CMP_DECFAIL], 0x1200000, 0x218, 1, 1, 8, 1, 1, 0x0⟩]

/-- The items of block CIP. -/
def regItemsCIP : List RegItem :=
  [⟨[.CIP_IVCTL], 0x1300000, 0x0, 1, 1, 8, 1, 1, 0x0⟩,
   ⟨[.CIP_IVFLOOR], 0x1300000, 0x8, 1, 1, 8, 1, 1, 0x0⟩,
   ⟨[.CIP_AUTHFAIL], 0x1300000, 0x10, 1, 1, 8, 1, 1, 0x0⟩,
   ⟨[.CIP_SUSPCNT], 0x1300000, 0x18, 1, 1, 8, 1, 1, 0x0⟩,
   ⟨[.CIP_SUSPFULL], 0x1300000, 0x20, 1, 1, 8, 1, 1, 0x0⟩]

/-- The items of block FLO. -/
def regItemsFLO : List RegItem :=
  [⟨[.FLO_KTBASE], 0x1400000, 0x0, 1, 1, 8, 1, 1, 0x0⟩,
   ⟨[.FLO_XWORD], 0x1400000, 0x8, 1, 1, 8, 1, 1, 0x0⟩,
   ⟨[.FLO_XCHG], 0x1400000, 0x10, 1, 1, 8, 1, 1, 0x0⟩,
   ⟨[.FLO_L2MASK], 0x1400000, 0x1000, 512, 256, 8, 1, 1, 0x0⟩,
   ⟨[.FLO_L2DEF], 0x1400000, 0x2000, 32, 16, 8, 1, 1, 0x0⟩,
   ⟨[.FLO_CORESTAT], 0x1400000, 0x3000, 288, 144, 8, 1, 1, 0x0⟩,
   ⟨[.FLO_SEGCNT], 0x1400000, 0x3900, 1, 1, 8, 1, 1, 0x0⟩,
   ⟨[.FLO_SWITCHCNT], 0x1400000, 0x3908, 1, 1, 8, 1, 1, 0x0⟩,
   ⟨[.FLO_KFAULTCNT], 0x1400000, 0x3910, 1, 1, 8, 1, 1, 0x0⟩,
   ⟨[.FLO_HTBASE], 0x1400000, 0x3918, 1, 1, 8, 1, 1, 0x0⟩,
   ⟨[.FLO_HTCTL], 0x1400000, 0x3920, 1, 1, 8, 1, 1, 0x0⟩,
   ⟨[.FLO_L2CTL], 0x1400000, 0x3a00, 32, 16, 8, 1, 1, 0x0⟩,
   ⟨[.FLO_PFCTL], 0x1400000, 0x3b00, 1, 1, 8, 1, 1, 0x0⟩,
   ⟨[.FLO_PFDROP], 0x1400000, 0x3b08, 1, 1, 8, 1, 1, 0x0⟩,
   ⟨[.FLO_MAP], 0x1400000, 0x4000, 256, 128, 8, 1, 1, 0x0⟩]

/-- The items of block CRN. -/
def regItemsCRN : List RegItem :=
  [⟨[.CRN_IROUTE], 0x1500000, 0x0, 16, 16, 8, 1, 1, 0x0⟩,
   ⟨[.CRN_IPI], 0x1500000, 0x80, 1, 1, 8, 1, 1, 0x0⟩,
   ⟨[.CRN_UCREV], 0x1500000, 0x88, 1, 1, 8, 1, 1, 0x0⟩,
   ⟨[.CRN_UCLOAD], 0x1500000, 0x90, 1, 1, 8, 1, 1, 0x0⟩,
   ⟨[.CRN_UCSTAT], 0x1500000, 0x98, 1, 1, 8, 1, 1, 0x0⟩,
   ⟨[.CRN_CKCTL], 0x1500000, 0xa0, 1, 1, 8, 1, 1, 0x0⟩,
   ⟨[.CRN_RETRYCNT], 0x1500000, 0x200, 36, 20, 8, 1, 1, 0x0⟩,
   ⟨[.CRN_L2CTL], 0x1500000, 0x380, 9, 5, 8, 1, 1, 0x0⟩,
   ⟨[.CRN_L1CMD], 0x1500000, 0x400, 36, 20, 8, 1, 1, 0x0⟩,
   ⟨[.CRN_PFCTL], 0x1500000, 0x520, 1, 1, 8, 1, 1, 0x0⟩,
   ⟨[.CRN_PFDROP], 0x1500000, 0x528, 1, 1, 8, 1, 1, 0x0⟩,
   ⟨[.CRN_ATOMCTL], 0x1500000, 0x530, 1, 1, 8, 1, 1, 0x0⟩,
   ⟨[.CRN_PAIRCTL], 0x1500000, 0x538, 1, 1, 8, 1, 1, 0x0⟩,
   ⟨[.CRN_PAIRSTAT], 0x1500000, 0x580, 16, 8, 8, 1, 1, 0x0⟩,
   ⟨[.CRN_MAP], 0x1500000, 0x600, 32, 16, 8, 1, 1, 0x0⟩]

/-- The items of block SNP. -/
def regItemsSNP : List RegItem :=
  [⟨[.SNP_CTL], 0x1600000, 0x0, 1, 1, 8, 1, 1, 0x0⟩,
   ⟨[.SNP_SLICECTL], 0x1600000, 0x200, 48, 24, 8, 1, 1, 0x0⟩]

/-- The items of block COH. -/
def regItemsCOH : List RegItem :=
  [⟨[.COH_CTL], 0x1700000, 0x0, 1, 1, 8, 1, 1, 0x0⟩,
   ⟨[.COH_DIRCNT], 0x1700000, 0x200, 48, 24, 8, 1, 1, 0x0⟩,
   ⟨[.COH_VBFULL], 0x1700000, 0x400, 48, 24, 8, 1, 1, 0x0⟩]

/-- The items of block ETH. -/
def regItemsETH : List RegItem :=
  [⟨[.ETH_PORTCFG], 0x2000000, 0x0, 16, 8, 8, 1, 1, 0x0⟩,
   ⟨[.ETH_ADDR_W0, .ETH_ADDR_W1, .ETH_ADDR_W2, .ETH_ADDR_W3], 0x2000000, 0x1000, 128, 64, 32, 1, 1, 0x0⟩,
   ⟨[.ETH_QPBASE], 0x2000000, 0x2000, 32, 16, 8, 1, 1, 0x0⟩,
   ⟨[.ETH_QPCMD], 0x2000000, 0x2100, 1, 1, 8, 1, 1, 0x0⟩,
   ⟨[.ETH_QPDROP], 0x2000000, 0x2108, 1, 1, 8, 1, 1, 0x0⟩,
   ⟨[.ETH_TXTS_W0, .ETH_TXTS_W1], 0x2000000, 0x2200, 32, 16, 16, 1, 1, 0x0⟩]

/-- The items of block PCI. -/
def regItemsPCI : List RegItem :=
  [⟨[.PCI_PORTCFG], 0x2200000, 0x0, 8, 4, 8, 1, 1, 0x0⟩,
   ⟨[.PCI_CTRLMAP], 0x2200000, 0x800, 256, 128, 8, 1, 1, 0x0⟩]

/-- The items of block MEMH. -/
def regItemsMEMH : List RegItem :=
  [⟨[.MEMH_CFG], 0x3000000, 0x0, 1, 1, 8, 6, 4, 0x100000⟩,
   ⟨[.MEMH_ECCCNT], 0x3000000, 0x8, 1, 1, 8, 6, 4, 0x100000⟩,
   ⟨[.MEMH_UECNT], 0x3000000, 0x10, 1, 1, 8, 6, 4, 0x100000⟩]

/-- The items of block MEMB. -/
def regItemsMEMB : List RegItem :=
  [⟨[.MEMB_CFG], 0x3800000, 0x0, 1, 1, 8, 8, 4, 0x100000⟩,
   ⟨[.MEMB_ECCCNT], 0x3800000, 0x8, 1, 1, 8, 8, 4, 0x100000⟩,
   ⟨[.MEMB_UECNT], 0x3800000, 0x10, 1, 1, 8, 8, 4, 0x100000⟩]

/-- Every item, by block (R473). -/
def regItems : List RegItem :=
  regItemsSYS ++ regItemsIDREV ++ regItemsBOOT ++ regItemsPWR ++ regItemsKPR ++ regItemsMOR ++ regItemsDBG ++ regItemsTRC ++ regItemsTIM ++ regItemsSAS ++ regItemsPLK ++ regItemsKDF ++ regItemsWLD ++ regItemsOWN ++ regItemsPMU ++ regItemsCIO ++ regItemsCHN ++ regItemsNEVE ++ regItemsCMP ++ regItemsCIP ++ regItemsFLO ++ regItemsCRN ++ regItemsSNP ++ regItemsCOH ++ regItemsETH ++ regItemsPCI ++ regItemsMEMH ++ regItemsMEMB

/-- The first and last byte offsets of a block window, instance 0 (R473): used to find a block's items. -/
def regItemAt (it : RegItem) (isM : Bool) (a : Nat) : Option (RegName × Nat × Bool) :=
  let n := if isM then it.nM else it.nX
  let ni := if isM then it.iM else it.iX
  if a < it.base then none
  else
    let d := a - it.base
    let i := if it.stride = 0 then 0 else d / it.stride
    let r := if it.stride = 0 then d else d % it.stride
    if it.iX ≤ i then none
    else if r < it.off || it.off + it.nX * it.size ≤ r then none
    else
      let e := (r - it.off) / it.size
      let w := (r - it.off) % it.size / 8
      match it.words[w]? with
      | none => none
      | some nm => some (nm, i * it.nX + e, decide (i < ni) && decide (e < n))

/-- The register whose 8-byte slot holds offset `a` of the device register space, its element number, and whether the
element exists on this order code (R473 to R475). -/
def regAt (isM : Bool) (a : Nat) : Option (RegName × Nat × Bool) :=
  regItems.findSome? fun it => regItemAt it isM a

/-- Whether a register is 64 bits wide: one of its fields lies above bit 31 (R477). -/
def RegName.is64 (r : RegName) : Bool := r.fields.any fun f => decide (31 < f.hi)

/-- The reset value of a whole register (R7). -/
def RegName.resetNat (r : RegName) : Nat := r.fields.foldl (fun a f => a + f.rst <<< f.lo) 0

end Sys2Proof
end

