-- ==== Sys2Proof/Syntax.lean ====
section
/-! DEFINITION. The commands of the block: one constructor for each row of the operation table, with its operands. -/

namespace Sys2Proof

/-- A core that executes TSH-3, by physical index (R221, R147). -/
inductive CoreId where
  | crn (p : Nat)
  | flo (n : Nat)
  deriving DecidableEq, Repr


/-- What a received RoCEv2 packet asks for or answers (R393, R397, R398). -/
inductive RoceOp where
  /-- A packet of a SEND: whether it is the first and the last of its message, and its payload. -/
  | send (first last : Bool) (bytes : List Byte)
  /-- An inbound RDMA READ, RDMA WRITE or atomic. -/
  | inbound
  /-- An acknowledgement of every request up to the packet's sequence number. -/
  | ack
  /-- A NAK with its code: 0 sequence error, 1 invalid request, 2 remote access error, 3 remote operational error. -/
  | nak (code : Nat)
  /-- A packet of an RDMA READ response. -/
  | readData (bytes : List Byte)
  deriving DecidableEq, Repr

/-- A received frame (R396); `addr` is the address entry of the port that the frame's addresses match, 4 or more for none. -/
inductive EthFrame where
  /-- RoCEv2: queue pair number, packet sequence number, operation, and whether the frame is marked CE. -/
  | roce (addr qpn psn : Nat) (ce : Bool) (op : RoceOp)
  /-- RoCEv2 to QPN 1. -/
  | connection (bytes : List Byte)
  | arp (addr : Nat) (bytes : List Byte)
  | neighbour (addr : Nat) (bytes : List Byte)
  | icmp (bytes : List Byte)
  /-- PTP; `answer` is the sequence ID of the event message with which the Cirque firmware answers, if it does. -/
  | ptp (bytes : List Byte) (answer : Option Nat)
  /-- Anything else. -/
  | other
  deriving DecidableEq, Repr

/-- A cache that has a control register (R274 to R277). -/
inductive CacheId where
  /-- Snowpack slice. -/
  | slice (s : Nat)
  /-- L2 of a Cornice cluster. -/
  | crnL2 (k : Nat)
  /-- L2 of a Floe cluster. -/
  | floL2 (k : Nat)
  deriving DecidableEq, Repr

/-- A command. Each constructor is one row of the operation table, named in its comment. -/
inductive Instr where
  /-- ADD (R206): Integer addition. -/
  | add (c : CoreId) (rd ra rb : Nat) (f : Bool)
  /-- SUB (R206): Integer subtraction. -/
  | sub (c : CoreId) (rd ra rb : Nat) (f : Bool)
  /-- ADC (R206): Addition with carry. -/
  | adc (c : CoreId) (rd ra rb : Nat) (f : Bool)
  /-- SBC (R206): Subtraction with borrow. -/
  | sbc (c : CoreId) (rd ra rb : Nat) (f : Bool)
  /-- AND (R219): Bitwise and. -/
  | and (c : CoreId) (rd ra rb : Nat) (f : Bool)
  /-- OR (R219): Bitwise or. -/
  | or (c : CoreId) (rd ra rb : Nat) (f : Bool)
  /-- XOR (R219): Bitwise exclusive or. -/
  | xor (c : CoreId) (rd ra rb : Nat) (f : Bool)
  /-- ANDN (R219): Bitwise and with the complement of rb. -/
  | andn (c : CoreId) (rd ra rb : Nat) (f : Bool)
  /-- SLL (R210): Logical left shift by a register. -/
  | sll (c : CoreId) (rd ra rb : Nat) (f : Bool)
  /-- SRL (R210): Logical right shift by a register. -/
  | srl (c : CoreId) (rd ra rb : Nat) (f : Bool)
  /-- SRA (R210): Arithmetic right shift by a register. -/
  | sra (c : CoreId) (rd ra rb : Nat) (f : Bool)
  /-- ROR (R210): Rotate right by a register. -/
  | ror (c : CoreId) (rd ra rb : Nat) (f : Bool)
  /-- SLLI (R210): Logical left shift by an immediate. -/
  | slli (c : CoreId) (rd ra sh : Nat) (f : Bool)
  /-- SRLI (R210): Logical right shift by an immediate. -/
  | srli (c : CoreId) (rd ra sh : Nat) (f : Bool)
  /-- SRAI (R210): Arithmetic right shift by an immediate. -/
  | srai (c : CoreId) (rd ra sh : Nat) (f : Bool)
  /-- RORI (R210): Rotate right by an immediate. -/
  | rori (c : CoreId) (rd ra sh : Nat) (f : Bool)
  /-- MUL (R210): Low 64 bits of the product. -/
  | mul (c : CoreId) (rd ra rb : Nat) (f : Bool)
  /-- MULHS (R210): High 64 bits of the signed product. -/
  | mulhs (c : CoreId) (rd ra rb : Nat)
  /-- MULHU (R210): High 64 bits of the unsigned product. -/
  | mulhu (c : CoreId) (rd ra rb : Nat)
  /-- DIVS (R210): Signed 64-bit division. -/
  | divs (c : CoreId) (rd ra rb : Nat)
  /-- DIVU (R210): Unsigned 64-bit division. -/
  | divu (c : CoreId) (rd ra rb : Nat)
  /-- REMS (R210): Signed 64-bit remainder. -/
  | rems (c : CoreId) (rd ra rb : Nat)
  /-- REMU (R210): Unsigned 64-bit remainder. -/
  | remu (c : CoreId) (rd ra rb : Nat)
  /-- DIVSW (R210): Signed 32-bit division. -/
  | divsw (c : CoreId) (rd ra rb : Nat)
  /-- DIVUW (R210): Unsigned 32-bit division. -/
  | divuw (c : CoreId) (rd ra rb : Nat)
  /-- REMSW (R210): Signed 32-bit remainder. -/
  | remsw (c : CoreId) (rd ra rb : Nat)
  /-- REMUW (R210): Unsigned 32-bit remainder. -/
  | remuw (c : CoreId) (rd ra rb : Nat)
  /-- CMP (R206): Sets the flags of ra − rb. -/
  | cmp (c : CoreId) (ra rb : Nat)
  /-- CMPA (R206): Sets the flags of ra + rb. -/
  | cmpa (c : CoreId) (ra rb : Nat)
  /-- MINS (R219): Signed minimum. -/
  | mins (c : CoreId) (rd ra rb : Nat)
  /-- MAXS (R219): Signed maximum. -/
  | maxs (c : CoreId) (rd ra rb : Nat)
  /-- MINU (R219): Unsigned minimum. -/
  | minu (c : CoreId) (rd ra rb : Nat)
  /-- MAXU (R219): Unsigned maximum. -/
  | maxu (c : CoreId) (rd ra rb : Nat)
  /-- MOV (R197): Copies a register with its tag. -/
  | mov (c : CoreId) (rd ra : Nat)
  /-- PICK (R207): Selects ra or rb by a condition. -/
  | pick (c : CoreId) (cond rd ra rb : Nat)
  /-- CLZ (R219): Counts leading zeros. -/
  | clz (c : CoreId) (rd ra : Nat)
  /-- CTZ (R219): Counts trailing zeros. -/
  | ctz (c : CoreId) (rd ra : Nat)
  /-- POPC (R219): Counts set bits. -/
  | popc (c : CoreId) (rd ra : Nat)
  /-- BREV64 (R219): Reverses the bits. -/
  | brev64 (c : CoreId) (rd ra : Nat)
  /-- BSWAP (R219): Reverses the bytes. -/
  | bswap (c : CoreId) (rd ra : Nat)
  /-- ADDI (R194): Adds a sign-extended immediate. -/
  | addi (c : CoreId) (rd ra imm : Nat)
  /-- ANDI (R194): Ands with a zero-extended immediate. -/
  | andi (c : CoreId) (rd ra imm : Nat)
  /-- ORI (R194): Ors with a zero-extended immediate. -/
  | ori (c : CoreId) (rd ra imm : Nat)
  /-- XORI (R194): Exclusive-ors with a zero-extended immediate. -/
  | xori (c : CoreId) (rd ra imm : Nat)
  /-- CMPI (R194): Compares with a sign-extended immediate. -/
  | cmpi (c : CoreId) (ra imm : Nat)
  /-- SETH (R194): Sets a shifted halfword. -/
  | seth (c : CoreId) (rd hw imm : Nat)
  /-- INSH (R194): Inserts a halfword. -/
  | insh (c : CoreId) (rd hw imm : Nat)
  /-- HADDI (R203): Adds an immediate to a handle's offset. -/
  | haddi (c : CoreId) (rd ra imm : Nat)
  /-- LI48 (R194): Loads a sign-extended 48-bit immediate. -/
  | li48 (c : CoreId) (rd imm : Nat)
  /-- ORH (R194): Ors an immediate into bits 63:48. -/
  | orh (c : CoreId) (rd imm : Nat)
  /-- LD (R204): Loads 1, 2, 4 or 8 bytes through the addressing modes. -/
  | ld (c : CoreId) (mode : Nat) (sx : Bool) (sz rd ra d : Nat)
  /-- ST (R204): Stores 1, 2, 4 or 8 bytes. -/
  | st (c : CoreId) (mode sz rd ra d : Nat)
  /-- LR (R209): Loads a word and takes a reservation on its line. -/
  | lr (c : CoreId) (rd ra : Nat)
  /-- SC (R209): Stores only if the reservation is held. -/
  | sc (c : CoreId) (rd ra rb : Nat)
  /-- ATSWAP (R293): Atomic swap. -/
  | atswap (c : CoreId) (rd ra rb : Nat)
  /-- ATADD (R293): Atomic add. -/
  | atadd (c : CoreId) (rd ra rb : Nat)
  /-- ATAND (R293): Atomic and. -/
  | atand (c : CoreId) (rd ra rb : Nat)
  /-- ATOR (R293): Atomic or. -/
  | ator (c : CoreId) (rd ra rb : Nat)
  /-- ATXOR (R293): Atomic exclusive or. -/
  | atxor (c : CoreId) (rd ra rb : Nat)
  /-- ATMINS (R293): Atomic signed minimum. -/
  | atmins (c : CoreId) (rd ra rb : Nat)
  /-- ATMAXS (R293): Atomic signed maximum. -/
  | atmaxs (c : CoreId) (rd ra rb : Nat)
  /-- ATMINU (R293): Atomic unsigned minimum. -/
  | atminu (c : CoreId) (rd ra rb : Nat)
  /-- ATMAXU (R293): Atomic unsigned maximum. -/
  | atmaxu (c : CoreId) (rd ra rb : Nat)
  /-- ATCAS (R293): Atomic compare and swap. -/
  | atcas (c : CoreId) (rd ra rb : Nat)
  /-- HADD (R203): Adds rb to a handle's offset. -/
  | hadd (c : CoreId) (rd ra rb : Nat)
  /-- HOFF (R203): Returns a handle's offset. -/
  | hoff (c : CoreId) (rd ra : Nat)
  /-- HLEN (R203): Returns a handle's length. -/
  | hlen (c : CoreId) (rd ra : Nat)
  /-- HSETO (R203): Sets a handle's offset. -/
  | hseto (c : CoreId) (rd ra rb : Nat)
  /-- GTAG (R197): Reads a register's tag. -/
  | gtag (c : CoreId) (rd ra : Nat)
  /-- RETAG (R197): Retags a numeric or RAW word. -/
  | retag (c : CoreId) (rd ra tag : Nat)
  /-- FADD (R211): Floating-point addition. -/
  | fadd (c : CoreId) (fmt rm rd ra rb : Nat)
  /-- FSUB (R211): Floating-point subtraction. -/
  | fsub (c : CoreId) (fmt rm rd ra rb : Nat)
  /-- FMUL (R211): Floating-point multiplication. -/
  | fmul (c : CoreId) (fmt rm rd ra rb : Nat)
  /-- FDIV (R211): Floating-point division. -/
  | fdiv (c : CoreId) (fmt rm rd ra rb : Nat)
  /-- FSQRT (R211): Floating-point square root. -/
  | fsqrt (c : CoreId) (fmt rm rd ra : Nat)
  /-- FMIN (R212): IEEE minimum. -/
  | fmin (c : CoreId) (fmt rd ra rb : Nat)
  /-- FMAX (R212): IEEE maximum. -/
  | fmax (c : CoreId) (fmt rd ra rb : Nat)
  /-- FMINN (R212): IEEE minimumNumber. -/
  | fminn (c : CoreId) (fmt rd ra rb : Nat)
  /-- FMAXN (R212): IEEE maximumNumber. -/
  | fmaxn (c : CoreId) (fmt rd ra rb : Nat)
  /-- FCMP (R206): Compares lane 0 and sets the flags. -/
  | fcmp (c : CoreId) (fmt ra rb : Nat)
  /-- FCVT_FI (R213): Converts integers to floating point. -/
  | fcvtFi (c : CoreId) (fmt rm rd ra : Nat) (uns : Bool)
  /-- FCVT_IF (R213): Converts floating point to integers. -/
  | fcvtIf (c : CoreId) (fmt rm rd ra : Nat) (uns : Bool)
  /-- FRINT (R213): Rounds to an integral value. -/
  | frint (c : CoreId) (fmt rm rd ra : Nat)
  /-- FABS (R211): Absolute value. -/
  | fabs (c : CoreId) (fmt rd ra : Nat)
  /-- FNEG (R211): Negation. -/
  | fneg (c : CoreId) (fmt rd ra : Nat)
  /-- FCVT_FF (R213): Converts between floating-point formats. -/
  | fcvtFf (c : CoreId) (src dst rm rd ra rb : Nat)
  /-- FMA (R211): Fused multiply-add. -/
  | fma (c : CoreId) (fmt rd ra rb rc : Nat)
  /-- FMS (R211): Fused multiply-subtract. -/
  | fms (c : CoreId) (fmt rd ra rb rc : Nat)
  /-- FNMA (R211): Negated fused multiply-add. -/
  | fnma (c : CoreId) (fmt rd ra rb rc : Nat)
  /-- FNMS (R211): Negated fused multiply-subtract. -/
  | fnms (c : CoreId) (fmt rd ra rb rc : Nat)
  /-- BC (R208): Branches if the condition holds. -/
  | bc (c : CoreId) (cond off : Nat)
  /-- BL (R208): Branches and links. -/
  | bl (c : CoreId) (cond off : Nat)
  /-- CB (R208): Branches on a register value or tag. -/
  | cb (c : CoreId) (ra kind tag off : Nat)
  /-- JR (R208): Jumps to a register. -/
  | jr (c : CoreId) (ra : Nat)
  /-- JALR (R208): Jumps to a register and links. -/
  | jalr (c : CoreId) (rd ra : Nat)
  /-- SRET (R150): Segment return that hands the first n bytes of OUT to the next stage, or requests failure. -/
  | sret (c : CoreId)
  /-- ERET (R242): Returns from an exception frame. -/
  | eret (c : CoreId)
  /-- WFI (R427): Waits for an interrupt, and the core naps. -/
  | wfi (c : CoreId)
  /-- SVC (R218): Raises the SVC exception. -/
  | svc (c : CoreId) (code : Nat)
  /-- BRK (R218): Raises the BRK exception. -/
  | brk (c : CoreId)
  /-- MFSR (R233): Reads a system register. -/
  | mfsr (c : CoreId) (rd n : Nat)
  /-- MTSR (R233): Writes a system register. -/
  | mtsr (c : CoreId) (rs n : Nat)
  /-- RDTIME (R21): Reads the timebase replica. -/
  | rdtime (c : CoreId) (rd : Nat)
  /-- FENCE (R308): Orders accesses of the selected kind. -/
  | fence (c : CoreId) (kind : Nat)
  /-- TINV_VA (R181): Invalidates one translation. -/
  | tinvVa (c : CoreId) (ra : Nat)
  /-- TINV_WORLD (R181): Invalidates all translations of the executing world. -/
  | tinvWorld (c : CoreId)
  /-- TINV_ALL (R181): Invalidates all translations. -/
  | tinvAll (c : CoreId)
  /-- HINV (R203): Invalidates a handle index on every core. -/
  | hinv (c : CoreId) (ra : Nat)
  /-- TAGSET (R199): Sets the tag of a word. -/
  | tagset (c : CoreId) (ra tag : Nat)
  /-- DC_CLEAN (R219): Writes back a data cache line. -/
  | dcClean (c : CoreId) (ra : Nat)
  /-- DC_INV (R219): Invalidates a data cache line. -/
  | dcInv (c : CoreId) (ra : Nat)
  /-- DC_CIV (R219): Cleans and invalidates a data cache line. -/
  | dcCiv (c : CoreId) (ra : Nat)
  /-- IC_INV (R219): Invalidates an instruction cache line. -/
  | icInv (c : CoreId) (ra : Nat)
  /-- MOVBLK (R220): Microcoded block move. -/
  | movblk (c : CoreId) (rd ra rb : Nat)
  /-- TAGSCRUB (R220): Microcoded retag and optional zeroing of a region. -/
  | tagscrub (c : CoreId) (rd ra tag : Nat) (zero : Bool)
  /-- CRC (R220): Microcoded CRC update over a region. -/
  | crc (c : CoreId) (rd ra rb poly : Nat)
  /-- VADD (R219): Vector integer add. -/
  | vadd (c : CoreId) (msel vd va vb : Nat)
  /-- VSUB (R219): Vector integer subtract. -/
  | vsub (c : CoreId) (msel vd va vb : Nat)
  /-- VMUL (R219): Vector integer multiply. -/
  | vmul (c : CoreId) (msel vd va vb : Nat)
  /-- VAND (R219): Vector and. -/
  | vand (c : CoreId) (msel vd va vb : Nat)
  /-- VOR (R219): Vector or. -/
  | vor (c : CoreId) (msel vd va vb : Nat)
  /-- VXOR (R219): Vector exclusive or. -/
  | vxor (c : CoreId) (msel vd va vb : Nat)
  /-- VSLL (R219): Vector logical left shift. -/
  | vsll (c : CoreId) (msel vd va vb : Nat)
  /-- VSRL (R219): Vector logical right shift. -/
  | vsrl (c : CoreId) (msel vd va vb : Nat)
  /-- VSRA (R219): Vector arithmetic right shift. -/
  | vsra (c : CoreId) (msel vd va vb : Nat)
  /-- VMIN (R219): Vector integer minimum. -/
  | vmin (c : CoreId) (msel vd va vb : Nat)
  /-- VMAX (R219): Vector integer maximum. -/
  | vmax (c : CoreId) (msel vd va vb : Nat)
  /-- VCMPEQ (R215): Vector compare equal into a mask. -/
  | vcmpeq (c : CoreId) (fmt msel vd va vb : Nat)
  /-- VCMPNE (R215): Vector compare not equal into a mask. -/
  | vcmpne (c : CoreId) (fmt msel vd va vb : Nat)
  /-- VCMPLT (R215): Vector compare less than into a mask. -/
  | vcmplt (c : CoreId) (fmt msel vd va vb : Nat)
  /-- VCMPLE (R215): Vector compare less or equal into a mask. -/
  | vcmple (c : CoreId) (fmt msel vd va vb : Nat)
  /-- VFADD (R219): Vector floating-point add. -/
  | vfadd (c : CoreId) (fmt msel vd va vb : Nat)
  /-- VFSUB (R219): Vector floating-point subtract. -/
  | vfsub (c : CoreId) (fmt msel vd va vb : Nat)
  /-- VFMUL (R219): Vector floating-point multiply. -/
  | vfmul (c : CoreId) (fmt msel vd va vb : Nat)
  /-- VFDIV (R219): Vector floating-point divide. -/
  | vfdiv (c : CoreId) (fmt msel vd va vb : Nat)
  /-- VFSQRT (R219): Vector floating-point square root. -/
  | vfsqrt (c : CoreId) (fmt msel vd va : Nat)
  /-- VFMIN (R219): Vector floating-point minimum. -/
  | vfmin (c : CoreId) (fmt msel vd va vb : Nat)
  /-- VFMAX (R219): Vector floating-point maximum. -/
  | vfmax (c : CoreId) (fmt msel vd va vb : Nat)
  /-- VCMUL (R217): Vector complex multiply. -/
  | vcmul (c : CoreId) (msel vd va vb : Nat)
  /-- VCMULC (R217): Vector complex multiply by the conjugate. -/
  | vcmulc (c : CoreId) (msel vd va vb : Nat)
  /-- VFMA (R219): Vector fused multiply-add. -/
  | vfma (c : CoreId) (fmt msel vd va vb : Nat)
  /-- VFMS (R219): Vector fused multiply-subtract. -/
  | vfms (c : CoreId) (fmt msel vd va vb : Nat)
  /-- VCMULA (R217): Vector complex multiply-accumulate. -/
  | vcmula (c : CoreId) (msel vd va vb : Nat)
  /-- VBCAST (R214): Broadcasts a scalar to the elements. -/
  | vbcast (c : CoreId) (fmt msel vd va : Nat)
  /-- VINS (R214): Inserts a scalar into an element. -/
  | vins (c : CoreId) (fmt msel vd va idx : Nat)
  /-- VEXT (R214): Extracts an element into a scalar. -/
  | vext (c : CoreId) (vd va idx : Nat)
  /-- VPERM (R219): Permutes elements. -/
  | vperm (c : CoreId) (fmt msel vd va vb : Nat)
  /-- VSHUF_B (R219): Shuffles bytes, giving a RAW result. -/
  | vshufB (c : CoreId) (fmt msel vd va vb : Nat)
  /-- VSEL (R214): Selects elements by a mask. -/
  | vsel (c : CoreId) (fmt msel vd va vb : Nat)
  /-- VRETAG (R214): Retags vector elements. -/
  | vretag (c : CoreId) (fmt msel vd va tag : Nat)
  /-- VRSUM (R217): Tree reduction sum. -/
  | vrsum (c : CoreId) (fmt msel vd va : Nat)
  /-- VRMIN (R217): Tree reduction minimum. -/
  | vrmin (c : CoreId) (fmt msel vd va : Nat)
  /-- VRMAX (R217): Tree reduction maximum. -/
  | vrmax (c : CoreId) (fmt msel vd va : Nat)
  /-- VLD (R216): Vector load. -/
  | vld (c : CoreId) (mode msel vd ra d : Nat)
  /-- VST (R216): Vector store. -/
  | vst (c : CoreId) (mode msel vd ra d : Nat)
  /-- RESET_ASSERT (R24): SYS_RST_N or PWRGOOD goes low and the device enters Reset from any mode. -/
  | resetAssert (pin : Nat)
  /-- RESET_RELEASE (R437): SYS_RST_N rises with PWRGOOD high: the straps are sampled and the device enters Thaw. -/
  | resetRelease (pair : Bool) (slot : Nat)
  /-- RAIL_OUT_OF_RANGE (R464): A rail leaves its range while PWRGOOD is high, and the device enters Reset with no flush. -/
  | railOutOfRange 
  /-- POWER_FAIL_ACCEPT (R465): PWR_FAIL_N reads low for 10 MGMT cycles: admission stops and the journal flush starts. -/
  | powerFailAccept 
  /-- FLUSH_WRITES_DONE (R86): All flush slot writes have completed, so the namespace headers are written and FLUSHED is set. -/
  | flushWritesDone 
  /-- KEEPER_SELFTEST_DONE (R437): Keeper self-test ends and the claim comparison picks the active keeper, or BOOT.STAT shows KEEPER. -/
  | keeperSelftestDone (a b : Bool)
  /-- BOOT_SLOT_SELECT (R439): The boot ROM checks the image slots with slot_ok and starts the first stage of the first slot that passes. -/
  | bootSlotSelect (flash0 flash1 : List Byte)
  /-- PLL_LOCK (R444): The PLLs of every domain lock, completing bring-up step 1. -/
  | pllLock (ok : Bool)
  /-- KNOWN_ANSWER_TESTS (R444): The Rime core, KDU and cipher cores finish their known-answer tests and failing units leave service. -/
  | knownAnswerTests (rime kdu : Bool) (cores : List Nat)
  /-- UNIT_SELFTEST_DONE (R445): Unit self-test ends and logical indices are assigned to the units that passed. -/
  | unitSelftestDone (failed : List Nat)
  /-- TRAINING_DONE (R447): Memory or PCIe training ends, fixing n_h and n_d and writing MEMH.CFG and MEMB.CFG. -/
  | trainingDone (kind : Nat) (passed : List Nat) (gib : Nat)
  /-- PATCH_SET_LOAD (R446): The keeper loads the Cornice and channel engine patch sets during bring-up. -/
  | patchSetLoad (crnAddr engAddr : Nat) (crnSet engSet : List Byte)
  /-- CIRQUE_START (R444): The keeper measures and starts the Cirque image on the Cornice cores. -/
  | cirqueStart (ok : Bool) (cores : List Nat) (addr pc : Nat)
  /-- BOOT_GO (R452): A write of BOOT.CTL.GO marks R451 complete, or is refused with ERR. -/
  | bootGo (src : Nat) (first : Bool) (pwait : Nat)
  /-- PWAIT_EXPIRY (R452): PWAIT ms pass after GO with no pairing, so bring-up counts as complete. -/
  | pwaitExpiry 
  /-- THAW_EXIT (R24): Once bring-up is complete, the device leaves Thaw for a service mode, Standby or Degraded. -/
  | thawExit 
  /-- ROOT_KEY_BURN (R443): KDF.RKCMD.GO starts burning the root key and ROOTID fuses, or is refused with ERR. -/
  | rootKeyBurn (src : Nat)
  /-- ROOT_KEY_BURN_DONE (R443): The fuse burn completes and KDF.RKDATA is cleared. -/
  | rootKeyBurnDone (ok : Bool)
  /-- MODEREQ_STANDBY (R23): A SYS.MODEREQ request for Standby is taken or refused. -/
  | modereqStandby (src : Nat)
  /-- MODEREQ_RECOVERY (R23): A SYS.MODEREQ request for Recovery is taken or refused. -/
  | modereqRecovery (src : Nat)
  /-- MODEREQ_MAINT (R23): A SYS.MODEREQ request for Maintenance is taken or refused. -/
  | modereqMaint (src : Nat)
  /-- MODEREQ_RETURN (R23): A SYS.MODEREQ request for the mode of origin leaves Recovery or Maintenance, or is held. -/
  | modereqReturn (src target : Nat)
  /-- SUBSYS_READY_CHANGE (R13): A SYS.READY bit sets or clears as the units and dependencies of its subsystem change. -/
  | subsysReadyChange 
  /-- REGISTER_WRITE (R11): A write to a register with no row of its own updates its fields, or is refused and reported through REG.REFUSE. -/
  | registerWrite (src world off n v : Nat)
  /-- CLEARING_READ (R10): A read of an RC field returns its value and clears or restarts it. -/
  | clearingRead (src world : Nat) (reg : RegName) (e : Nat)
  /-- WIDE_REGISTER_LATCH (R478): A read of word 0 of a wide register latches every word of it. -/
  | wideRegisterLatch (src : Nat) (reg : RegName) (e : Nat)
  /-- COMMAND_COMPLETE (R484): A command's BUSY clears, and the change it made takes effect and becomes visible. -/
  | commandComplete (reg : RegName) (e : Nat)
  /-- CRP_HELLO (R64): A HELLO is taken and answered with HELLOACK, which carries the selected version or a refusal. -/
  | crpHello (q : Nat) (bytes : List Byte)
  /-- CRP_SUBMIT (R68): A SUBMIT is processed through the checks, classification and credit take, and is admitted, repeated or refused. -/
  | crpSubmit (q : Nat) (bytes : List Byte)
  /-- CRP_CACK (R73): A CACK frees the journal slots and completion-cache entries of the numbers in its range. -/
  | crpCack (q : Nat) (bytes : List Byte)
  /-- CRP_PING (R75): A client PING is answered with PONG within 2 µs. -/
  | crpPing (q : Nat) (bytes : List Byte)
  /-- CRP_PONG (R75): A PONG answers an HK7 PING and resets the miss count. -/
  | crpPong (q : Nat) (bytes : List Byte)
  /-- KEEPALIVE_IDLE (R75): IDLE ms pass with no message on a channel that holds state, so the HK7 sends PING. -/
  | keepaliveIdle (q : Nat)
  /-- KEEPALIVE_MISS (R75): MISS consecutive PINGs go unanswered and the queue pair is declared lost. -/
  | keepaliveMiss (q : Nat)
  /-- TOKEN_REFILL (R164): Each µs, RATE/256 tokens are added to each world's bucket, with the overflow counted in CAPPED. -/
  | tokenRefill 
  /-- ENGINE_ASSIGN (R39): A QUEUED transaction that holds tokens and a context is assigned to a channel engine and becomes ADMITTED. -/
  | engineAssign (t : Nat)
  /-- CONTEXT_LOAD (R30): The dispatcher loads a missing context block from the context table into the resident store. -/
  | contextLoad (chid : Nat)
  /-- NOCTX_RETRY (R30): A context-miss retry falls due 64 STREAM cycles after NOCTX. -/
  | noctxRetry (chid : Nat)
  /-- ENGINE_WATCHDOG (R28): An engine runs 4,096 STREAM cycles without a safe point and its transactions restart elsewhere. -/
  | engineWatchdog (e : Nat)
  /-- RESERVE (R41): Requests Névé buffers for the transaction. -/
  | reserve (t : Nat)
  /-- INTENT (R41): Takes journal slots, writes the intent record and mirrors or flushes it. -/
  | intent (t : Nat)
  /-- ACCEPT (R41): Sends ACCEPT to the client. -/
  | accept (t : Nat)
  /-- FETCH (R41): Reads the segment from the client region by RDMA, or takes the inline data. -/
  | fetch (t : Nat)
  /-- DELIVER (R41): Writes the segment to the client region by RDMA. -/
  | deliver (t : Nat)
  /-- KERNEL (R146): Obtains an output chain and hands the segment to the Floe loader. -/
  | kernel (t : Nat)
  /-- COMPRESS (R101): Issues a compression job for the segment. -/
  | compress (t : Nat)
  /-- INFLATE (R101): Issues a decompression job for the segment. -/
  | inflate (t : Nat)
  /-- SEAL (R120): Issues a cipher job that enciphers the segment. -/
  | seal (t : Nat)
  /-- UNSEAL (R124): Issues a held-class cipher job that deciphers the segment. -/
  | unseal (t : Nat)
  /-- STWRITE (R41): Issues the NVMe write of the segment to its LBA slot. -/
  | stwrite (t : Nat)
  /-- STREAD (R41): Issues the NVMe read of the segment's LBA slot. -/
  | stread (t : Nat)
  /-- DIGEST (R82): Waits for the FETCHes of a write above the mirror threshold and mirrors its digest. -/
  | digest (t : Nat)
  /-- WAITIO (R41): Waits until every ASYNC command of the transaction has ended. -/
  | waitio (t : Nat)
  /-- COMMIT (R41): Marks the journal record durable and sends COMPLETE with OK. -/
  | commit (t : Nat)
  /-- SEGLOOP (R41): Advances to the next segment and continues at the target, or falls through. -/
  | segloop (t : Nat)
  /-- JUMP (R41): Continues at the target if the condition holds. -/
  | jump (t : Nat)
  /-- NOTIFY (R41): Raises the Cirque channel interrupt with a code and a value. -/
  | notify (t : Nat)
  /-- FAIL (R41): Ends the transaction with the status given. -/
  | fail (t : Nat)
  /-- RELEASE (R41): Frees every buffer that the transaction holds. -/
  | release (t : Nat)
  /-- NEVE_REQUEST (R52): The allocator decides up to 8 buffer requests in a STREAM cycle, granting them or answering NOBUF. -/
  | neveRequest 
  /-- NOBUF_RETRY (R54): A refused buffer request is presented again 64 STREAM cycles later. -/
  | nobufRetry (n : Nat)
  /-- NOSLOT_RETRY (R80): An INTENT that received NOSLOT retries 64 STREAM cycles later. -/
  | noslotRetry (t : Nat)
  /-- SPILL_AGE (R15): A buffer that has waited STALL STREAM cycles is spilled to the spill region. -/
  | spillAge (t k : Nat)
  /-- SPILL_READBACK (R15): Spilled data is read back into a Névé buffer before the next stage takes it. -/
  | spillReadback (t k : Nat)
  /-- DEADLINE_EXPIRY (R50): The deadline wheel fires for a transaction, fixing DEADLINE and ending or draining it. -/
  | deadlineExpiry (t : Nat)
  /-- DEADLINE_WHEEL_SORT (R49): Every 4,096 µs the overflow list is sorted into the wheel's buckets. -/
  | deadlineWheelSort 
  /-- NVME_COMPLETION (R486): An NVMe completion ends its command according to its status and may end the transaction's drain. -/
  | nvmeCompletion (port tag status : Nat)
  /-- NVME_TIMEOUT (R51): An NVMe command times out and is aborted, with MEDIA if no status has been decided. -/
  | nvmeTimeout (port tag : Nat)
  /-- REPLAY_WAIT_EXPIRY (R91): A replayed transaction waits WAIT ms without HELLO and takes REPLAYFAIL. -/
  | replayWaitExpiry (chid : Nat)
  /-- CTX_OPEN (R32): CHN.CTXCMD OPEN loads and validates a CLOSED channel and sets it OPEN. -/
  | ctxOpen (src chid : Nat)
  /-- CTX_QUIESCE (R32): CHN.CTXCMD QUIESCE sets an OPEN channel QUIESCING. -/
  | ctxQuiesce (src chid : Nat)
  /-- CTX_ABORT (R32): CHN.CTXCMD ABORT ends every transaction in flight and sets the channel QUIESCED. -/
  | ctxAbort (src chid : Nat)
  /-- CTX_CLOSE (R32): CHN.CTXCMD CLOSE discards the completion cache, writes the block back, evicts it and sets CLOSED. -/
  | ctxClose (src chid : Nat)
  /-- CTX_WRITEBACK (R32): CHN.CTXCMD WRITEBACK writes the resident block to the context table. -/
  | ctxWriteback (src chid : Nat)
  /-- AUDIT_SNAP (R56): A CHN.AUDCMD SNAP write chooses the latch tick for an audit snapshot. -/
  | auditSnap (src scope port index : Nat)
  /-- AUDIT_LATCH (R56): The books in scope are latched at tick T and DONE is set. -/
  | auditLatch 
  /-- CMP_JOB_START (R102): An idle compression engine takes the next job, or resumes a suspended one. -/
  | cmpJobStart (e : Nat)
  /-- CMP_EXTENSION_RETRY (R104): A refused extension request is presented again every 64 STREAM cycles. -/
  | cmpExtensionRetry (j : Nat)
  /-- CMP_SUSPEND (R105): A job reaches the suspension point it was due to stop at, and its state is saved. -/
  | cmpSuspend (e : Nat)
  /-- CMP_JOB_END (R109): A compression job ends and hands on its output chain, or takes the raw form. -/
  | cmpJobEnd (e : Nat)
  /-- CMP_DECODE_FAIL (R110): A decode failure stops the job and starts the scrub, and the transaction takes INTEGRITY. -/
  | cmpDecodeFail (e : Nat)
  /-- CMP_CANCEL (R111): The issuing engine cancels the job of a transaction whose outcome is fixed. -/
  | cmpCancel (j : Nat)
  /-- CMP_ENGINE_FAULT (R112): An engine fault ends the job, which restarts from its first byte. -/
  | cmpEngineFault (e : Nat)
  /-- BUFFER_SCRUB_DONE (R123): A scrub of buffers to zero ends and the buffers are released to the allocator. -/
  | bufferScrubDone (n : Nat)
  /-- CIP_JOB_START (R121): An idle cipher core or the Rime core takes the next cipher job. -/
  | cipJobStart (u : Nat)
  /-- KEY_REQUEST (R132): A key request looks up the key cache and starts a derivation on a miss. -/
  | keyRequest (j : Nat)
  /-- KEY_DERIVATION_DONE (R133): A derivation completes, and the key is inserted and answered or the request is refused. -/
  | keyDerivationDone (n : Nat)
  /-- CIP_JOB_END (R124): A cipher job ends, verifying the tag in the held class or returning the cipher record. -/
  | cipJobEnd (u : Nat)
  /-- CIP_SUSPEND (R122): A running cipher job is suspended for a priority-0 job. -/
  | cipSuspend (u : Nat)
  /-- CIP_CORE_FAULT (R123): A cipher core fault ends the job, and the segment is run again from FETCH or STREAD. -/
  | cipCoreFault (u : Nat)
  /-- CIP_CANCEL (R123): The cipher job of a transaction whose outcome is fixed is cancelled. -/
  | cipCancel (j : Nat)
  /-- LOAD_ZERO_DONE (R126): The zeroing of a failed load is acknowledged, and the pages return to OWNED. -/
  | loadZeroDone (t : Nat)
  /-- KDF_ACTIVATE (R137): KDF.CMD ACTIVATE initialises or renews a world's epoch entry. -/
  | kdfActivate (src world purp epoch : Nat)
  /-- KDF_ROLL (R137): KDF.CMD ROLL advances the STORE or TRANSIT epoch. -/
  | kdfRoll (src world purp epoch : Nat)
  /-- KDF_RETIRE (R137): KDF.CMD RETIRE raises SMIN. -/
  | kdfRetire (src world purp epoch : Nat)
  /-- KDF_REVOKE (R139): KDF.CMD REVOKE sets REVOKED and the filter bit and starts the sweep. -/
  | kdfRevoke (src world purp epoch : Nat)
  /-- KDF_FLUSH (R137): KDF.CMD FLUSH invalidates the world's cache entries. -/
  | kdfFlush (src world purp epoch : Nat)
  /-- REVOKE_SWEEP_DONE (R139): The revocation sweep has invalidated every cache entry of the world. -/
  | revokeSweepDone 
  /-- SEGMENT_LOAD (R156): The loader places a segment on a core, writes its handles and starts the kernel. -/
  | segmentLoad 
  /-- KERNEL_BUDGET (R151): A kernel reaches its budget and the segment ends with KFAULT BUDGET. -/
  | kernelBudget (n : Nat)
  /-- LOADER_WATCHDOG (R151): The loader watchdog expires and the case is treated as a core fault. -/
  | loaderWatchdog (n : Nat)
  /-- FLOE_CORE_FAULT (R154): A Floe core fault takes the core out of service and may re-run the segment. -/
  | floeCoreFault (n : Nat)
  /-- SEGMENT_CANCEL (R155): The segment of a transaction whose outcome is fixed is removed or stopped. -/
  | segmentCancel (g : Nat)
  /-- KERNEL_EXCHANGE (R160): FLO.XCHG GO starts an exchange of an attachment word, or is refused. -/
  | kernelExchange (src att chid : Nat)
  /-- L2MASK_WRITE (R158): A write to FLO.L2MASK changes way ownership, after write-back where ways are removed. -/
  | l2maskWrite (src cluster entry world ways : Nat)
  /-- WLD_ACTIVATE (R165): WLD.CMD ACTIVATE maps a world to a slot and sets it ACTIVE. -/
  | wldActivate (src slot world : Nat)
  /-- WLD_SUSPEND (R165): WLD.CMD SUSPEND sets the world SUSPENDED and ends its QUEUED transactions. -/
  | wldSuspend (src slot world : Nat)
  /-- WLD_RESUME (R165): WLD.CMD RESUME sets the world ACTIVE. -/
  | wldResume (src slot world : Nat)
  /-- WLD_REVOKE (R165): WLD.CMD REVOKE sets the world REVOKING and revokes its keys and owner checks. -/
  | wldRevoke (src slot world : Nat)
  /-- WLD_DEACTIVATE (R165): WLD.CMD DEACTIVATE removes the world's mapping and frees its slot. -/
  | wldDeactivate (src slot world : Nat)
  /-- WLD_RELOAD (R165): WLD.CMD RELOAD rereads the entry and invalidates the world's translations. -/
  | wldReload (src slot world : Nat)
  /-- SVC_QUERY (R169): A QUERY service request returns the world's status, counters and measurements. -/
  | svcQuery (q : Nat) (bytes : List Byte)
  /-- SVC_KLOAD (R169): A KLOAD service request loads and checks a kernel image. -/
  | svcKload (q : Nat) (bytes image : List Byte) (kid codebase faultlim : Nat)
  /-- SVC_KRETIRE (R169): A KRETIRE service request sets a kernel RETIRING. -/
  | svcKretire (q : Nat) (bytes : List Byte)
  /-- SVC_LOAD (R169): A LOAD service request asks for a load into tenant memory. -/
  | svcLoad (q : Nat) (bytes : List Byte) (desc prio tag : Nat)
  /-- SVC_ADMIN (R169): An administrative service request from world 0x0000 is handled by the Cirque firmware. -/
  | svcAdmin (q : Nat) (bytes reply : List Byte)
  /-- SERVICE_REPLY_RELEASE (R170): A held service reply leaves the port HOLD µs after its request. -/
  | serviceReplyRelease (n : Nat)
  /-- LOAD_START (R171): A WLD.LOADCMD write takes a load descriptor, translates and freezes the destination and starts the load. -/
  | loadStart (desc : Nat)
  /-- LOAD_END (R171): A load ends: STATUS, BYTES and TSDONE are written and the load interrupt is raised. -/
  | loadEnd (t : Nat)
  /-- OWN_ASSIGN (R176): OWN.CMD ASSIGN gives FREE pages to a world. -/
  | ownAssign (src rights ksel world count : Nat)
  /-- OWN_SETRIGHTS (R176): OWN.CMD SETRIGHTS changes rights and KSEL of OWNED pages. -/
  | ownSetrights (src rights ksel world count : Nat)
  /-- OWN_SHARE (R176): OWN.CMD SHARE makes OWNED pages SHARED-RO. -/
  | ownShare (src rights ksel world count : Nat)
  /-- OWN_UNSHARE (R176): OWN.CMD UNSHARE returns SHARED-RO pages to OWNED. -/
  | ownUnshare (src rights ksel world count : Nat)
  /-- OWN_RELEASE (R176): OWN.CMD RELEASE quarantines pages, scrubs them and frees them. -/
  | ownRelease (src rights ksel world count : Nat)
  /-- OWN_SCRUB (R176): OWN.CMD SCRUB scrubs QUARANTINE pages and frees them. -/
  | ownScrub (src rights ksel world count : Nat)
  /-- OWN_ENABLE (R173): A W1S write of OWN.CTL.EN starts owner-table enforcement for every agent. -/
  | ownEnable (src : Nat)
  /-- PINOWN_WRITE (R385): An accepted OWN.PINOWN write changes a pin's owner and resets its channel. -/
  | pinownWrite (src pin world : Nat) (drive sense : Bool)
  /-- MEMORY_UE (R282): An uncorrectable memory error poisons the line and sets its page to QUARANTINE. -/
  | memoryUe (pa : Nat)
  /-- PATROL_SCRUB (R282): The patrol scrubber reads each line once in every 24 h, correcting and reporting errors. -/
  | patrolScrub (pa found : Nat)
  /-- RESTART_GO (R185): KPR.RSTCTL.GO starts a Cirque restart and the device enters Recovery. -/
  | restartGo (src limit : Nat)
  /-- KEEPER_WATCHDOG (R185): The active keeper's 100 ms watchdog expires, starting a hand-over and a Cirque restart. -/
  | keeperWatchdog (flash0 flash1 : List Byte)
  /-- RESTART_DONE (R185): KPR.RSTCTL.DONE ends the restart, and the device returns to its previous mode. -/
  | restartDone (src limit : Nat)
  /-- RESTART_LIMIT (R186): A restart runs past LIMIT ms and Moraine raises a level 3 fault. -/
  | restartLimit 
  /-- MEAS_EXTEND (R442): KPR.EXTEND GO extends MEAS[INDEX] with KPR.EXTDATA. -/
  | measExtend (src index : Nat)
  /-- INTERRUPT_ENTRY (R236): A pending enabled interrupt is sampled and entered. -/
  | interruptEntry (p : Nat)
  /-- NDEAD_FIRE (R237): The timebase reaches NDEAD and IPEND.DEADLINE is set. -/
  | ndeadFire (p : Nat)
  /-- IPI (R236): A CRN.IPI write sets IPEND.IPI of a logical core. -/
  | ipi (src core : Nat)
  /-- UCODE_WAIT_TIMEOUT (R252): A microword wait times out, triggering an instruction retry. -/
  | ucodeWaitTimeout (p : Nat)
  /-- UCODE_LOAD (R254): CRN.UCLOAD GO reads a patch set and accepts it or refuses it. -/
  | ucodeLoad (src addr : Nat)
  /-- INSTRUCTION_RETRY (R259): A retry trigger restores the checkpoint and re-executes from its PC. -/
  | instructionRetry (p kind e : Nat)
  /-- PAIR_MISMATCH (R341): The comparator finds a mismatch, freezing the pair and entering Recovery. -/
  | pairMismatch (k sub : Nat)
  /-- PAIR_SELFTEST_DONE (R342): Pair self-test ends and the outcome table resolves the pair. -/
  | pairSelftestDone (k : Nat) (leadOk trailOk spareOk : Bool)
  /-- SPARE_JOIN (R343): A spare joins the resumed core at a checkpoint after 10 µs alone. -/
  | spareJoin (k : Nat)
  /-- DOZE_ENTRY (R427): A core that has napped for DOZE µs is power-gated. -/
  | dozeEntry (p : Nat)
  /-- LP_WAKE (R427): A pending interrupt ends a nap or a doze. -/
  | lpWake (p : Nat)
  /-- CACHE_CLEANALL (R277): The CLEANALL operation writes back the dirty lines of a slice or L2. -/
  | cacheCleanall (src : Nat) (cache : CacheId)
  /-- CACHE_INVALL (R277): The INVALL operation writes back and invalidates a slice or L2 and clears STALE. -/
  | cacheInvall (src : Nat) (cache : CacheId)
  /-- CACHE_DISABLE (R274): Clearing EN disables a cache and sets STALE. -/
  | cacheDisable (src : Nat) (cache : CacheId)
  /-- CACHE_ENABLE (R275): Setting EN enables a cache, reporting SNP.STALE if STALE is set. -/
  | cacheEnable (src : Nat) (cache : CacheId)
  /-- L1_INVALL_I (R277): CRN.L1CMD invalidates the I-L1. -/
  | l1InvallI (src core : Nat)
  /-- L1_INVALL_D (R277): CRN.L1CMD writes back and invalidates the D-L1. -/
  | l1InvallD (src core : Nat)
  /-- L1_INVALL_BOTH (R277): CRN.L1CMD invalidates both L1s. -/
  | l1InvallBoth (src core : Nat)
  /-- SCRWAYS_CHANGE (R272): A SCRWAYS write converts ways to scratch or returns them to the cache. -/
  | scrwaysChange (src slice ways : Nat)
  /-- RDS (R288): A read-shared request is served at the home slice. -/
  | rds (l2 line world : Nat) (streaming : Bool)
  /-- RDX (R288): A read-exclusive request is served at the home slice. -/
  | rdx (l2 line world : Nat)
  /-- UPG (R288): An upgrade request invalidates the other holders. -/
  | upg (l2 line world : Nat)
  /-- WBD (R288): A dirty write-back from an L2. -/
  | wbd (l2 line : Nat)
  /-- EVC (R288): A clean eviction notice from an L2. -/
  | evc (l2 line : Nat)
  /-- RDNC (R288): A non-caching read. -/
  | rdnc (line : Nat)
  /-- WRL (R288): A non-caching whole-line write. -/
  | wrl (src world line : Nat) (data : List Byte)
  /-- WRP (R288): A non-caching partial write. -/
  | wrp (src world pa : Nat) (data : List Byte)
  /-- ATM (R295): A far atomic performed in the slice ALU. -/
  | atm (c : CoreId) (op pa btag b dtag d : Nat)
  /-- SNPS (R289): A shared snoop answered by an L2. -/
  | snps (l2 line : Nat)
  /-- SNPI (R289): An invalidating snoop that returns data. -/
  | snpi (l2 line : Nat)
  /-- SNPINV (R289): An invalidating snoop that discards data. -/
  | snpinv (l2 line : Nat)
  /-- SNPRD (R289): A read snoop that keeps the holder's state. -/
  | snprd (l2 line : Nat)
  /-- VICTIM_WRITE_ACK (R292): Memory acknowledges a victim write and the entry is freed. -/
  | victimWriteAck (slice line : Nat)
  /-- LRHOLD_EXPIRY (R299): A deferred snoop of a reserved line is answered once LRHOLD expires. -/
  | lrholdExpiry (c : CoreId) (line : Nat)
  /-- PLK_DATA_FLIT (R317): A DATA flit is taken, dropped as a repeat, or NAKed. -/
  | plkDataFlit (bytes : List Byte)
  /-- PLK_IDLE_FLIT (R316): An IDLE flit carries acknowledgements and credits. -/
  | plkIdleFlit (bytes : List Byte)
  /-- PLK_NAK (R317): A NAK makes the sender resend from the expected number. -/
  | plkNak (bytes : List Byte)
  /-- PLK_HELLO (R324): A partner HELLO flit is checked for pairing. -/
  | plkHello (bytes : List Byte)
  /-- PLK_HEARTBEAT (R326): A HEARTBEAT flit updates the partner's claim and health. -/
  | plkHeartbeat (bytes : List Byte)
  /-- PLK_ACK_TIMER (R317): 200 ns pass without an acknowledgement sent, and ACKSEQ is returned. -/
  | plkAckTimer 
  /-- PLK_REPLAY_TIMEOUT (R317): 2 µs pass without acknowledgement progress, and the sender resends. -/
  | plkReplayTimeout 
  /-- FEC_LOCK_LOSS (R318): FEC codeword lock is lost and the link retrains. -/
  | fecLockLoss 
  /-- RETRAIN_DONE (R318): A retrain ends, and sending resumes or the link stays down. -/
  | retrainDone (ok : Bool)
  /-- RETRAIN_RETRY (R318): 1 ms after a failed retrain, the next attempt starts. -/
  | retrainRetry 
  /-- PLK_HELLO_TIMER (R323): HELLO is sent every 1 µs until one is received. -/
  | plkHelloTimer 
  /-- HEARTBEAT_TIMER (R326): HEARTBEAT is sent every 10 µs. -/
  | heartbeatTimer 
  /-- LINK_SILENCE (R326): 50 µs pass with no valid HEARTBEAT and the link is silent. -/
  | linkSilence 
  /-- WITNESS_JUDGE (R327): The partner is judged alive or silent on the witness buses. -/
  | witnessJudge 
  /-- LINK_DECISION (R328): Under a silent link, the decision sets Degraded or Standby. -/
  | linkDecision 
  /-- PLK_RECORD (R320): A RECORD message writes a journal record into the mirror ring, and JACK is sent. -/
  | plkRecord (vc : Nat)
  /-- PLK_STATE (R320): A STATE message updates a mirrored record's state. -/
  | plkState (vc : Nat)
  /-- PLK_DATA_MSG (R320): A DATA message appends data to a mirrored record. -/
  | plkDataMsg (vc : Nat)
  /-- PLK_DIGEST (R320): A DIGEST message sets a mirrored record's digest. -/
  | plkDigest (vc : Nat)
  /-- JACK (R321): A JACK acknowledges a RECORD and lets INTENT complete. -/
  | jack 
  /-- CTXWB (R322): A CTXWB writes context bytes into the partner's context table. -/
  | ctxwb 
  /-- HANDBACK (R335): A HANDBACK returns a segment to its home module. -/
  | handback 
  /-- HBACK (R335): An HBACK acknowledges a HANDBACK, and the sender drops the segment's records. -/
  | hback 
  /-- RESYNCDONE (R334): RESYNCDONE ends the mirror copy, and mirrored acknowledgement resumes. -/
  | resyncdone 
  /-- MAIL (R320): A Cirque mailbox message is delivered. -/
  | mail 
  /-- PLK_FORCE (R328): PLK.CMD FORCE declares partner loss. -/
  | plkForce (src : Nat)
  /-- PLK_RETURN (R335): PLK.CMD RETURN starts a hand-back with AUTO off. -/
  | plkReturn (src : Nat)
  /-- PLK_RETRAIN (R318): PLK.CMD RETRAIN retrains the link. -/
  | plkRetrain (src : Nat)
  /-- RETURN_HOLD_EXPIRY (R335): The HOLD time has passed under the conditions of step 1, and admission for the segment stops. -/
  | returnHoldExpiry 
  /-- RETURN_DRAIN_END (R335): The segment's transactions reach DONE or DRAIN expires, and HANDBACK is sent. -/
  | returnDrainEnd 
  /-- PTN_PRES_CHANGE (R315): PTN_PRES_N changes, enabling or disabling the partner link. -/
  | ptnPresChange (high : Bool)
  /-- FAULT_REPORT (R349): A Moraine record is latched, counted, logged and acted on by its level. -/
  | faultReport (cls level src sub world chid detail : Nat)
  /-- MORAINE_ACK (R351): A write of 1 to PEND ends the class episode. -/
  | moraineAck (src cls : Nat)
  /-- ALIVE_RISE (R354): ALIVE rises at a whole millisecond. -/
  | aliveRise 
  /-- ALIVE_FALL (R354): ALIVE falls 500 µs after its rise. -/
  | aliveFall 
  /-- KEEPER_FAULT (R357): A parity or ECC fault in the active keeper starts a hand-over. -/
  | keeperFault (both : Bool)
  /-- KCMD_HANDOVER (R357): KPR.KCMD.HANDOVER starts a planned hand-over. -/
  | kcmdHandover (src : Nat)
  /-- KEEPER_RETURN (R358): A returned keeper's claim takes effect after HOLD s and takes over if it wins. -/
  | keeperReturn 
  /-- TIM_SET (R360): A TIM.SET write in Thaw loads the timebase. -/
  | timSet (src ns : Nat)
  /-- PPS_EDGE (R361): A TPPS_IN edge gives a phase sample to the servo. -/
  | ppsEdge 
  /-- PTP_SAMPLE (R361): TIM.OFFSET GO submits a PTP phase sample. -/
  | ptpSample (src interval error : Nat)
  /-- PARTNER_SAMPLE (R361): Every 10 ms a phase sample is formed from the partner's HEARTBEATs. -/
  | partnerSample 
  /-- REFERENCE_FAULT (R363): Missing or rejected samples declare a reference fault and change source or enter holdover. -/
  | referenceFault 
  /-- PPS_OUT_RISE (R365): TPPS_OUT rises at each whole second. -/
  | ppsOutRise 
  /-- PPS_OUT_FALL (R365): TPPS_OUT falls after WIDTH µs. -/
  | ppsOutFall 
  /-- SAS_CYCLE_START (R370): A Sastrugi cycle starts and the master sends its beacon. -/
  | sasCycleStart (bus : Nat)
  /-- WITNESS_SEND (R377): A non-master sends its WITNESS frame in the witness slot. -/
  | witnessSend (bus : Nat)
  /-- SAS_BEACON (R370): A beacon received from the other module is taken. -/
  | sasBeacon (bus : Nat) (bytes : List Byte)
  /-- SAS_DATA_FRAME (R372): A node DATA frame is classified as normal, DRIFT or discarded. -/
  | sasDataFrame (bus slot : Nat) (d : Int) (bytes : List Byte)
  /-- SAS_JOIN_FRAME (R375): A JOIN frame is taken for a grant in the next beacon. -/
  | sasJoinFrame (bus : Nat) (d : Int) (bytes : List Byte)
  /-- SAS_WITNESS_FRAME (R327): A partner WITNESS frame is taken. -/
  | sasWitnessFrame (bus : Nat) (d : Int) (bytes : List Byte)
  /-- SAS_RECORD_WRITE (R378): After the join slot closes, the cycle record is written to the ring and to the TCM. -/
  | sasRecordWrite (bus : Nat)
  /-- SLOT_IDLE_EXPIRY (R373): A slot with no valid frame for IDLELIM cycles becomes FREE. -/
  | slotIdleExpiry (bus slot : Nat)
  /-- CMDQ_WRITE (R376): A SAS.CMDQ write queues a node command, or is refused when the queue is full. -/
  | cmdqWrite (src bus slot code index value : Nat)
  /-- PIN_EDGE (R381): A filtered pin edge enters the capture FIFO. -/
  | pinEdge (ch : Nat) (level : Bool)
  /-- CAP_READ (R381): A CAP read pops the head capture. -/
  | capRead (src world n : Nat)
  /-- COMPARE_FIRE (R382): The timebase reaches CMP, so the pin action is taken and CMPF set. -/
  | compareFire (ch : Nat)
  /-- PWM_PERIOD_START (R383): A PWM period starts and pending PWM writes take effect. -/
  | pwmPeriodStart (ch : Nat)
  /-- LEVEL_TIMER_FIRE (R384): A channel level timer fires and sets TMRF. -/
  | levelTimerFire (ch : Nat)
  /-- CTRL_REQUEST_POLL (R387): At each whole µs, the block applies pending CTRL requests of bound records. -/
  | ctrlRequestPoll 
  /-- LOOP_EXCHANGE (R390): CIO.LOOP OP EXCHANGE posts an exchange request to the program. -/
  | loopExchange (src l limit hsoff : Nat)
  /-- LOOP_HOLD (R390): CIO.LOOP OP HOLD posts a hold request to the program. -/
  | loopHold (src l limit hsoff : Nat)
  /-- LOOP_GO (R390): CIO.LOOP OP GO releases the held events and ends the handshake. -/
  | loopGo (src l limit hsoff : Nat)
  /-- LOOP_ACKED (R390): At the first whole µs after ACK, ACKED is set and events are held. -/
  | loopAcked (core : Nat)
  /-- LOOP_ACK_TIMEOUT (R390): No ACK arrives within LIMIT ms, and the request is cleared with ERR. -/
  | loopAckTimeout (core : Nat)
  /-- ETH_FRAME_RECEIVE (R396): A received frame is classified and routed. -/
  | ethFrameReceive (port prio len held : Nat) (bad : Bool) (frame : EthFrame)
  /-- PFC_RECEIVE (R399): A PFC frame pauses or resumes a priority. -/
  | pfcReceive (port prio : Nat) (pause : Bool)
  /-- PFC_WATCHDOG (R399): A priority paused for PFCWD ms has its frames discarded. -/
  | pfcWatchdog (port prio : Nat)
  /-- CNP_RECEIVE (R399): A congestion notification cuts the queue pair's send rate. -/
  | cnpReceive (port qpn : Nat)
  /-- CNP_RATE_INCREASE (R399): After 50 µs without a notification, the send rate rises by 5 Gb/s. -/
  | cnpRateIncrease (port qpn : Nat)
  /-- QP_RETRY_TIMEOUT (R398): An acknowledgement timeout resends, or moves the queue pair to ERROR. -/
  | qpRetryTimeout (port qpn : Nat)
  /-- RNR_NAK_RECEIVE (R398): An RNR NAK from the client starts the RNR wait. -/
  | rnrNakReceive (port qpn psn : Nat)
  /-- RNR_WAIT_EXPIRY (R398): The RNR wait ends and the HK7 resends. -/
  | rnrWaitExpiry (port qpn : Nat)
  /-- GARP_REPEAT (R395): 1 s after a gate opens, the gratuitous announcements are repeated. -/
  | garpRepeat (port : Nat)
  /-- ETH_LINK_DOWN (R401): A fabric link goes down and is reported. -/
  | ethLinkDown (port : Nat)
  /-- ETH_LINK_UP (R401): A fabric link comes up and queued frames are sent. -/
  | ethLinkUp (port : Nat)
  /-- QP_LOAD (R397): ETH.QPCMD LOAD reads a queue pair context and moves its state. -/
  | qpLoad (src port qpn : Nat)
  /-- QP_RESET (R397): ETH.QPCMD RESET moves a queue pair to RESET. -/
  | qpReset (src port qpn : Nat)
  /-- QP_STORE (R397): ETH.QPCMD STORE writes the state and PSNs back to the context. -/
  | qpStore (src port qpn : Nat)
  /-- ADDR_WORD0_WRITE (R478): A write of word 0 of ETH.ADDR commits all four words. -/
  | addrWord0Write (src port entry mac : Nat)
  /-- TXTS_READ (R478): A read of ETH.TXTS word 0 pops the timestamp FIFO. -/
  | txtsRead (src port : Nat)
  /-- PCIE_INBOUND_REQUEST (R406): An inbound memory request is checked against the data windows and served or refused. -/
  | pcieInboundRequest (port rid addr len : Nat) (write poisoned : Bool) (bytes : List Byte)
  /-- MSIX_WRITE (R405): An MSI-X write makes the HK7 scan the vector's completion queues. -/
  | msixWrite (port ctrl vector : Nat) (entries : List (Nat × Nat))
  /-- PCIE_LINK_DOWN (R407): A PCIe link goes down, ending its commands with MEDIA and discarding its queues. -/
  | pcieLinkDown (port link : Nat) (ctrls : List Nat)
  /-- PCIE_LINK_UP (R447): A PCIe link reaches L0. -/
  | pcieLinkUp (port link width : Nat) (flit : Bool) (capacity : Nat)
  /-- PCI_PORT_ENABLE (R403): Setting PCI.PORTCFG.EN takes BIFUR and CXL and starts the port. -/
  | pciPortEnable (src port bifur : Nat) (cxl : Bool)
  /-- PERST_RELEASE (R459): 100 ms after EN, PCI_PERST_N goes high. -/
  | perstRelease (port : Nat)
  /-- BMC_ACCESS (R409): The BMC reads the status block or uses the mailbox over I3C or SMBus. -/
  | bmcAccess (op : Nat) (bytes : List Byte)
  /-- I3C_DAA (R409): The BMC assigns a dynamic address, switching the pins to I3C. -/
  | i3cDaa (addr : Nat)
  /-- SMBUS_FALLBACK (R409): 1 s after PWRGOOD with no dynamic address, the pins act as an SMBus target. -/
  | smbusFallback 
  /-- BYPASS (R412): JTAG BYPASS instruction. -/
  | bypass 
  /-- IDCODE (R412): JTAG IDCODE instruction. -/
  | idcode 
  /-- SAMPLE_PRELOAD (R412): JTAG SAMPLE/PRELOAD instruction. -/
  | samplePreload 
  /-- EXTEST (R412): JTAG EXTEST instruction, effective only in reset. -/
  | extest 
  /-- CLAMP (R412): JTAG CLAMP instruction, effective only in reset. -/
  | clamp 
  /-- HIGHZ (R412): JTAG HIGHZ instruction, effective only in reset. -/
  | highz 
  /-- DBGAUTH (R429): A session code shifted through DBGAUTH opens a session or starts the lockout. -/
  | dbgauth (code : Nat)
  /-- DBG_POLL (R430): A DBGACC poll returns the previous result. -/
  | dbgPoll 
  /-- DBG_READ (R431): A DBGACC read reads without side effect. -/
  | dbgRead (space size addr : Nat)
  /-- DBG_WRITE (R431): A DBGACC write with its ordinary effects. -/
  | dbgWrite (space size addr data tag : Nat)
  /-- DBG_GRANT_WRITE (R429): A DBG.GRANT write sets a grant and closes any session. -/
  | dbgGrantWrite (src level haltlim world code : Nat)
  /-- DBG_LOCKOUT_EXPIRY (R429): The 1 s lockout after a wrong code ends. -/
  | dbgLockoutExpiry 
  /-- DBG_GRANT_EXPIRY (R429): The S-level count reaches EXPIRE and the session closes. -/
  | dbgGrantExpiry 
  /-- DBG_HALT_REQ (R432): DBG.HALT REQ halts a core or pair at its next boundary. -/
  | dbgHaltReq (src l : Nat)
  /-- DBG_RESUME (R432): DBG.HALT RESUME resumes a halted core. -/
  | dbgResume (src l : Nat)
  /-- DBG_STEP (R433): DBG.HALT STEP executes one instruction and halts again. -/
  | dbgStep (src l : Nat)
  /-- BREAKPOINT_HIT (R434): A fetch matches an enabled breakpoint and the core halts. -/
  | breakpointHit (p : Nat)
  /-- HALT_LIMIT_EXPIRY (R434): A TENANT halt reaches HALTLIM and the core resumes. -/
  | haltLimitExpiry (l : Nat)
  /-- PMU_LOAD (R423): PMU.CMD LOAD reads a world entry and allocates counters. -/
  | pmuLoad (src slot : Nat)
  /-- PMU_RELEASE (R423): PMU.CMD RELEASE returns a slot's counters to the pool. -/
  | pmuRelease (src slot : Nat)
  /-- SNAPW (R423): PMU.CMD SNAPW arranges a latch of a world's counters. -/
  | snapw (src slot : Nat)
  /-- SNAPU (R423): PMU.CMD SNAPU arranges a latch of a unit's counters. -/
  | snapu (src kind index : Nat)
  /-- PMU_SNAP_LATCH (R423): At tick T the snapshot counters are latched into PMU.SNAPV. -/
  | pmuSnapLatch 
  /-- PMU_WINDOW_BOUNDARY (R420): A WINDOW-mode counter takes its window sum and restarts. -/
  | pmuWindowBoundary (slot : Nat)
  /-- PMU_DUMP_TICK (R421): At a dump tick the world's counters are latched and the record is written to its ring. -/
  | pmuDumpTick (slot : Nat)
  /-- THERMAL_SAMPLE (R472): The junction sensors are read every 1 ms and TMAX is updated. -/
  | thermalSample (t : Int)
  /-- VR_ALERT (R463): VR_ALERT_N held low for 10 µs records PWR.RAIL at level 3. -/
  | vrAlert 
  /-- VR_CURRENT_POLL (R463): Every 10 ms the regulators' output currents are read. -/
  | vrCurrentPoll (rails : List Nat)
  /-- FEC_LOCK (R323): The partner link gains FEC codeword lock in training, and each side starts sending HELLO every 1 µs. -/
  | fecLock (delay : Nat)
  /-- TREF_10M_LOSS (R361): TREF_10M is lost while the source is PPS, and the TIME clock falls back to REFCLK_SYS without a step. -/
  | trefLoss 
  /-- FLUSH_MISSED_3_MS (R84): A power-fail flush has not finished 3 ms after the accepted fall, so CHN.JSTAT.FLUSHERR is set and PWR.FAIL is recorded at level 2. -/
  | flushMissed 
  /-- KEEPER_SELFTEST_AFTER_HANDOVER (R357): The former active keeper finishes its self-test after a hand-over and becomes follower with its hold-off started, or stays out of service. -/
  | keeperSelftestAfterHandover (ok : Bool)
  /-- PWRGOOD_RISE (R24): PWRGOOD rises, starting the 1 s I3C/SMBus fallback wait, and with SYS_RST_N already high it moves the device from Reset to Thaw. -/
  | pwrgoodRise 
  deriving DecidableEq, Repr

end Sys2Proof
end

