-- ==== Sys2Proof/WellFormed.lean ====
section
/-! DEFINITION. Which commands are well formed: every operand within the range its row's rule gives it. -/

namespace Sys2Proof

/-- Rounding mode encodings of the instruction field (R212): 0–4 and 7. -/
def rmOk (rm : Nat) : Bool := rm < 5 || rm = 7

/-- Conversions between formats that are not reserved (R213). -/
def cvtOk (src dst : Nat) : Bool :=
  (src = 1 && dst = 2) || (src = 2 && (dst = 3 || dst = 4 || dst = 1)) || ((src = 3 || src = 4) && (dst = 2 || dst = 3 || dst = 4) && src ≠ dst)

/-- Whether a core index names a core of the largest part (R221, R147). -/
def coreOk : CoreId → Bool
  | .crn p => p < 36
  | .flo n => n < 288

/-- Whether the operands of a TSH-3 instruction fit its encoding without a reserved value (R192 to R195); true for other commands. -/
def tshOk : Instr → Bool
  | .add _ rd ra rb _ => decide (rd < 32) && decide (ra < 32) && decide (rb < 32)
  | .sub _ rd ra rb _ => decide (rd < 32) && decide (ra < 32) && decide (rb < 32)
  | .adc _ rd ra rb _ => decide (rd < 32) && decide (ra < 32) && decide (rb < 32)
  | .sbc _ rd ra rb _ => decide (rd < 32) && decide (ra < 32) && decide (rb < 32)
  | .and _ rd ra rb _ => decide (rd < 32) && decide (ra < 32) && decide (rb < 32)
  | .or _ rd ra rb _ => decide (rd < 32) && decide (ra < 32) && decide (rb < 32)
  | .xor _ rd ra rb _ => decide (rd < 32) && decide (ra < 32) && decide (rb < 32)
  | .andn _ rd ra rb _ => decide (rd < 32) && decide (ra < 32) && decide (rb < 32)
  | .sll _ rd ra rb _ => decide (rd < 32) && decide (ra < 32) && decide (rb < 32)
  | .srl _ rd ra rb _ => decide (rd < 32) && decide (ra < 32) && decide (rb < 32)
  | .sra _ rd ra rb _ => decide (rd < 32) && decide (ra < 32) && decide (rb < 32)
  | .ror _ rd ra rb _ => decide (rd < 32) && decide (ra < 32) && decide (rb < 32)
  | .slli _ rd ra sh _ => decide (rd < 32) && decide (ra < 32) && decide (sh < 64)
  | .srli _ rd ra sh _ => decide (rd < 32) && decide (ra < 32) && decide (sh < 64)
  | .srai _ rd ra sh _ => decide (rd < 32) && decide (ra < 32) && decide (sh < 64)
  | .rori _ rd ra sh _ => decide (rd < 32) && decide (ra < 32) && decide (sh < 64)
  | .mul _ rd ra rb _ => decide (rd < 32) && decide (ra < 32) && decide (rb < 32)
  | .mulhs _ rd ra rb => decide (rd < 32) && decide (ra < 32) && decide (rb < 32)
  | .mulhu _ rd ra rb => decide (rd < 32) && decide (ra < 32) && decide (rb < 32)
  | .divs _ rd ra rb => decide (rd < 32) && decide (ra < 32) && decide (rb < 32)
  | .divu _ rd ra rb => decide (rd < 32) && decide (ra < 32) && decide (rb < 32)
  | .rems _ rd ra rb => decide (rd < 32) && decide (ra < 32) && decide (rb < 32)
  | .remu _ rd ra rb => decide (rd < 32) && decide (ra < 32) && decide (rb < 32)
  | .divsw _ rd ra rb => decide (rd < 32) && decide (ra < 32) && decide (rb < 32)
  | .divuw _ rd ra rb => decide (rd < 32) && decide (ra < 32) && decide (rb < 32)
  | .remsw _ rd ra rb => decide (rd < 32) && decide (ra < 32) && decide (rb < 32)
  | .remuw _ rd ra rb => decide (rd < 32) && decide (ra < 32) && decide (rb < 32)
  | .cmp _ ra rb => decide (ra < 32) && decide (rb < 32)
  | .cmpa _ ra rb => decide (ra < 32) && decide (rb < 32)
  | .mins _ rd ra rb => decide (rd < 32) && decide (ra < 32) && decide (rb < 32)
  | .maxs _ rd ra rb => decide (rd < 32) && decide (ra < 32) && decide (rb < 32)
  | .minu _ rd ra rb => decide (rd < 32) && decide (ra < 32) && decide (rb < 32)
  | .maxu _ rd ra rb => decide (rd < 32) && decide (ra < 32) && decide (rb < 32)
  | .mov _ rd ra => decide (rd < 32) && decide (ra < 32)
  | .pick _ cond rd ra rb => decide (cond < 15) && decide (rd < 32) && decide (ra < 32) && decide (rb < 32)
  | .clz _ rd ra => decide (rd < 32) && decide (ra < 32)
  | .ctz _ rd ra => decide (rd < 32) && decide (ra < 32)
  | .popc _ rd ra => decide (rd < 32) && decide (ra < 32)
  | .brev64 _ rd ra => decide (rd < 32) && decide (ra < 32)
  | .bswap _ rd ra => decide (rd < 32) && decide (ra < 32)
  | .addi _ rd ra imm => decide (rd < 32) && decide (ra < 32) && decide (imm < 2 ^ 16)
  | .andi _ rd ra imm => decide (rd < 32) && decide (ra < 32) && decide (imm < 2 ^ 16)
  | .ori _ rd ra imm => decide (rd < 32) && decide (ra < 32) && decide (imm < 2 ^ 16)
  | .xori _ rd ra imm => decide (rd < 32) && decide (ra < 32) && decide (imm < 2 ^ 16)
  | .cmpi _ ra imm => decide (ra < 32) && decide (imm < 2 ^ 16)
  | .seth _ rd hw imm => decide (rd < 32) && decide (hw < 4) && decide (imm < 2 ^ 16)
  | .insh _ rd hw imm => decide (rd < 32) && decide (hw < 4) && decide (imm < 2 ^ 16)
  | .haddi _ rd ra imm => decide (rd < 32) && decide (ra < 32) && decide (imm < 2 ^ 16)
  | .li48 _ rd imm => decide (rd < 32) && decide (imm < 2 ^ 48)
  | .orh _ rd imm => decide (rd < 32) && decide (imm < 2 ^ 16)
  | .ld _ mode sx sz rd ra d => decide (mode < 4) && decide (sz < 4) && decide (rd < 32) && decide (ra < 32) && (if mode = 1 || mode = 3 then d < 32 else d < 2048) && (sz ≠ 3 || !sx) && (mode < 2 || rd ≠ ra)
  | .st _ mode sz rd ra d => decide (mode < 4) && decide (sz < 4) && decide (rd < 32) && decide (ra < 32) && (if mode = 1 || mode = 3 then d < 32 else d < 2048)
  | .lr _ rd ra => decide (rd < 32) && decide (ra < 32)
  | .sc _ rd ra rb => decide (rd < 32) && decide (ra < 32) && decide (rb < 32)
  | .atswap _ rd ra rb => decide (rd < 32) && decide (ra < 32) && decide (rb < 32)
  | .atadd _ rd ra rb => decide (rd < 32) && decide (ra < 32) && decide (rb < 32)
  | .atand _ rd ra rb => decide (rd < 32) && decide (ra < 32) && decide (rb < 32)
  | .ator _ rd ra rb => decide (rd < 32) && decide (ra < 32) && decide (rb < 32)
  | .atxor _ rd ra rb => decide (rd < 32) && decide (ra < 32) && decide (rb < 32)
  | .atmins _ rd ra rb => decide (rd < 32) && decide (ra < 32) && decide (rb < 32)
  | .atmaxs _ rd ra rb => decide (rd < 32) && decide (ra < 32) && decide (rb < 32)
  | .atminu _ rd ra rb => decide (rd < 32) && decide (ra < 32) && decide (rb < 32)
  | .atmaxu _ rd ra rb => decide (rd < 32) && decide (ra < 32) && decide (rb < 32)
  | .atcas _ rd ra rb => decide (rd < 32) && decide (ra < 32) && decide (rb < 32)
  | .hadd _ rd ra rb => decide (rd < 32) && decide (ra < 32) && decide (rb < 32)
  | .hoff _ rd ra => decide (rd < 32) && decide (ra < 32)
  | .hlen _ rd ra => decide (rd < 32) && decide (ra < 32)
  | .hseto _ rd ra rb => decide (rd < 32) && decide (ra < 32) && decide (rb < 32)
  | .gtag _ rd ra => decide (rd < 32) && decide (ra < 32)
  | .retag _ rd ra tag => decide (rd < 32) && decide (ra < 32) && decide (tag < 16)
  | .fadd _ fmt rm rd ra rb => 0 < fmt && fmt < 5 && rmOk rm && decide (rd < 32) && decide (ra < 32) && decide (rb < 32)
  | .fsub _ fmt rm rd ra rb => 0 < fmt && fmt < 5 && rmOk rm && decide (rd < 32) && decide (ra < 32) && decide (rb < 32)
  | .fmul _ fmt rm rd ra rb => 0 < fmt && fmt < 5 && rmOk rm && decide (rd < 32) && decide (ra < 32) && decide (rb < 32)
  | .fdiv _ fmt rm rd ra rb => 0 < fmt && fmt < 5 && rmOk rm && decide (rd < 32) && decide (ra < 32) && decide (rb < 32)
  | .fsqrt _ fmt rm rd ra => 0 < fmt && fmt < 5 && rmOk rm && decide (rd < 32) && decide (ra < 32)
  | .fmin _ fmt rd ra rb => 0 < fmt && fmt < 5 && decide (rd < 32) && decide (ra < 32) && decide (rb < 32)
  | .fmax _ fmt rd ra rb => 0 < fmt && fmt < 5 && decide (rd < 32) && decide (ra < 32) && decide (rb < 32)
  | .fminn _ fmt rd ra rb => 0 < fmt && fmt < 5 && decide (rd < 32) && decide (ra < 32) && decide (rb < 32)
  | .fmaxn _ fmt rd ra rb => 0 < fmt && fmt < 5 && decide (rd < 32) && decide (ra < 32) && decide (rb < 32)
  | .fcmp _ fmt ra rb => 0 < fmt && fmt < 5 && decide (ra < 32) && decide (rb < 32)
  | .fcvtFi _ fmt rm rd ra _ => 0 < fmt && fmt < 5 && rmOk rm && decide (rd < 32) && decide (ra < 32)
  | .fcvtIf _ fmt rm rd ra _ => 0 < fmt && fmt < 5 && rmOk rm && decide (rd < 32) && decide (ra < 32)
  | .frint _ fmt rm rd ra => 0 < fmt && fmt < 5 && rmOk rm && decide (rd < 32) && decide (ra < 32)
  | .fabs _ fmt rd ra => 0 < fmt && fmt < 5 && decide (rd < 32) && decide (ra < 32)
  | .fneg _ fmt rd ra => 0 < fmt && fmt < 5 && decide (rd < 32) && decide (ra < 32)
  | .fcvtFf _ src dst rm rd ra rb => rmOk rm && decide (rd < 32) && decide (ra < 32) && decide (rb < 32) && cvtOk src dst
  | .fma _ fmt rd ra rb rc => 0 < fmt && fmt < 5 && decide (rd < 32) && decide (ra < 32) && decide (rb < 32) && decide (rc < 32)
  | .fms _ fmt rd ra rb rc => 0 < fmt && fmt < 5 && decide (rd < 32) && decide (ra < 32) && decide (rb < 32) && decide (rc < 32)
  | .fnma _ fmt rd ra rb rc => 0 < fmt && fmt < 5 && decide (rd < 32) && decide (ra < 32) && decide (rb < 32) && decide (rc < 32)
  | .fnms _ fmt rd ra rb rc => 0 < fmt && fmt < 5 && decide (rd < 32) && decide (ra < 32) && decide (rb < 32) && decide (rc < 32)
  | .bc _ cond off => decide (cond < 15) && decide (off < 2 ^ 22)
  | .bl _ cond off => decide (cond < 15) && decide (off < 2 ^ 22)
  | .cb _ ra kind tag off => decide (ra < 32) && decide (kind < 4) && decide (tag < 16) && decide (off < 2 ^ 14)
  | .jr _ ra => decide (ra < 32)
  | .jalr _ rd ra => decide (rd < 32) && decide (ra < 32)
  | .sret _ => true
  | .eret _ => true
  | .svc _ code => decide (code < 1024)
  | .brk _ => true
  | .wfi _ => true
  | .mfsr _ rd n => decide (rd < 32) && decide (n < 1024)
  | .mtsr _ rs n => decide (rs < 32) && decide (n < 1024)
  | .rdtime _ rd => decide (rd < 32)
  | .fence _ kind => decide (kind < 4)
  | .tinvVa _ ra => decide (ra < 32)
  | .tinvWorld _ => true
  | .tinvAll _ => true
  | .hinv _ ra => decide (ra < 32)
  | .tagset _ ra tag => decide (ra < 32) && decide (tag < 16)
  | .dcClean _ ra => decide (ra < 32)
  | .dcInv _ ra => decide (ra < 32)
  | .dcCiv _ ra => decide (ra < 32)
  | .icInv _ ra => decide (ra < 32)
  | .movblk _ rd ra rb => decide (rd < 32) && decide (ra < 32) && decide (rb < 32)
  | .tagscrub _ rd ra tag _ => decide (rd < 32) && decide (ra < 32) && decide (tag < 16)
  | .crc _ rd ra rb poly => decide (rd < 32) && decide (ra < 32) && decide (rb < 32) && decide (poly < 3)
  | .vadd _ msel vd va vb => decide (msel < 8) && decide (vd < 32) && decide (va < 32) && decide (vb < 32)
  | .vsub _ msel vd va vb => decide (msel < 8) && decide (vd < 32) && decide (va < 32) && decide (vb < 32)
  | .vmul _ msel vd va vb => decide (msel < 8) && decide (vd < 32) && decide (va < 32) && decide (vb < 32)
  | .vand _ msel vd va vb => decide (msel < 8) && decide (vd < 32) && decide (va < 32) && decide (vb < 32)
  | .vor _ msel vd va vb => decide (msel < 8) && decide (vd < 32) && decide (va < 32) && decide (vb < 32)
  | .vxor _ msel vd va vb => decide (msel < 8) && decide (vd < 32) && decide (va < 32) && decide (vb < 32)
  | .vsll _ msel vd va vb => decide (msel < 8) && decide (vd < 32) && decide (va < 32) && decide (vb < 32)
  | .vsrl _ msel vd va vb => decide (msel < 8) && decide (vd < 32) && decide (va < 32) && decide (vb < 32)
  | .vsra _ msel vd va vb => decide (msel < 8) && decide (vd < 32) && decide (va < 32) && decide (vb < 32)
  | .vmin _ msel vd va vb => decide (msel < 8) && decide (vd < 32) && decide (va < 32) && decide (vb < 32)
  | .vmax _ msel vd va vb => decide (msel < 8) && decide (vd < 32) && decide (va < 32) && decide (vb < 32)
  | .vcmpeq _ fmt msel vd va vb => decide (fmt < 5) && decide (msel < 8) && decide (vd < 32) && decide (va < 32) && decide (vb < 32)
  | .vcmpne _ fmt msel vd va vb => decide (fmt < 5) && decide (msel < 8) && decide (vd < 32) && decide (va < 32) && decide (vb < 32)
  | .vcmplt _ fmt msel vd va vb => decide (fmt < 5) && decide (msel < 8) && decide (vd < 32) && decide (va < 32) && decide (vb < 32)
  | .vcmple _ fmt msel vd va vb => decide (fmt < 5) && decide (msel < 8) && decide (vd < 32) && decide (va < 32) && decide (vb < 32)
  | .vfadd _ fmt msel vd va vb => 0 < fmt && fmt < 5 && decide (msel < 8) && decide (vd < 32) && decide (va < 32) && decide (vb < 32)
  | .vfsub _ fmt msel vd va vb => 0 < fmt && fmt < 5 && decide (msel < 8) && decide (vd < 32) && decide (va < 32) && decide (vb < 32)
  | .vfmul _ fmt msel vd va vb => 0 < fmt && fmt < 5 && decide (msel < 8) && decide (vd < 32) && decide (va < 32) && decide (vb < 32)
  | .vfdiv _ fmt msel vd va vb => 0 < fmt && fmt < 5 && decide (msel < 8) && decide (vd < 32) && decide (va < 32) && decide (vb < 32)
  | .vfsqrt _ fmt msel vd va => 0 < fmt && fmt < 5 && decide (msel < 8) && decide (vd < 32) && decide (va < 32)
  | .vfmin _ fmt msel vd va vb => 0 < fmt && fmt < 5 && decide (msel < 8) && decide (vd < 32) && decide (va < 32) && decide (vb < 32)
  | .vfmax _ fmt msel vd va vb => 0 < fmt && fmt < 5 && decide (msel < 8) && decide (vd < 32) && decide (va < 32) && decide (vb < 32)
  | .vcmul _ msel vd va vb => decide (msel < 8) && decide (vd < 32) && decide (va < 32) && decide (vb < 32)
  | .vcmulc _ msel vd va vb => decide (msel < 8) && decide (vd < 32) && decide (va < 32) && decide (vb < 32)
  | .vfma _ fmt msel vd va vb => 0 < fmt && fmt < 5 && decide (msel < 8) && decide (vd < 32) && decide (va < 32) && decide (vb < 32)
  | .vfms _ fmt msel vd va vb => 0 < fmt && fmt < 5 && decide (msel < 8) && decide (vd < 32) && decide (va < 32) && decide (vb < 32)
  | .vcmula _ msel vd va vb => decide (msel < 8) && decide (vd < 32) && decide (va < 32) && decide (vb < 32)
  | .vbcast _ fmt msel vd va => decide (fmt < 5) && decide (msel < 8) && decide (vd < 32) && decide (va < 32)
  | .vins _ fmt msel vd va idx => decide (fmt < 5) && decide (msel < 8) && decide (vd < 32) && decide (va < 32) && decide (idx < 8)
  | .vext _ vd va idx => decide (vd < 32) && decide (va < 32) && decide (idx < 8)
  | .vperm _ fmt msel vd va vb => decide (fmt < 5) && decide (msel < 8) && decide (vd < 32) && decide (va < 32) && decide (vb < 32)
  | .vshufB _ fmt msel vd va vb => decide (fmt < 5) && decide (msel < 8) && decide (vd < 32) && decide (va < 32) && decide (vb < 32)
  | .vsel _ fmt msel vd va vb => decide (fmt < 5) && 0 < msel && msel < 8 && decide (vd < 32) && decide (va < 32) && decide (vb < 32)
  | .vretag _ fmt msel vd va tag => decide (fmt < 5) && decide (msel < 8) && decide (vd < 32) && decide (va < 32) && decide (tag < 16)
  | .vrsum _ fmt msel vd va => decide (fmt < 5) && decide (msel < 8) && decide (vd < 32) && decide (va < 32)
  | .vrmin _ fmt msel vd va => decide (fmt < 5) && decide (msel < 8) && decide (vd < 32) && decide (va < 32)
  | .vrmax _ fmt msel vd va => decide (fmt < 5) && decide (msel < 8) && decide (vd < 32) && decide (va < 32)
  | .vld _ mode msel vd ra d => decide (mode < 4) && decide (msel < 8) && decide (vd < 32) && decide (ra < 32) && (if mode = 1 || mode = 3 then d < 32 else d < 2048)
  | .vst _ mode msel vd ra d => decide (mode < 4) && decide (msel < 8) && decide (vd < 32) && decide (ra < 32) && (if mode = 1 || mode = 3 then d < 32 else d < 2048)
  | _ => true

/-- The executing core of a TSH-3 instruction, if the command is one. -/
def tshCore : Instr → Option CoreId
  | .add c _ _ _ _ => some c
  | .sub c _ _ _ _ => some c
  | .adc c _ _ _ _ => some c
  | .sbc c _ _ _ _ => some c
  | .and c _ _ _ _ => some c
  | .or c _ _ _ _ => some c
  | .xor c _ _ _ _ => some c
  | .andn c _ _ _ _ => some c
  | .sll c _ _ _ _ => some c
  | .srl c _ _ _ _ => some c
  | .sra c _ _ _ _ => some c
  | .ror c _ _ _ _ => some c
  | .slli c _ _ _ _ => some c
  | .srli c _ _ _ _ => some c
  | .srai c _ _ _ _ => some c
  | .rori c _ _ _ _ => some c
  | .mul c _ _ _ _ => some c
  | .mulhs c _ _ _ => some c
  | .mulhu c _ _ _ => some c
  | .divs c _ _ _ => some c
  | .divu c _ _ _ => some c
  | .rems c _ _ _ => some c
  | .remu c _ _ _ => some c
  | .divsw c _ _ _ => some c
  | .divuw c _ _ _ => some c
  | .remsw c _ _ _ => some c
  | .remuw c _ _ _ => some c
  | .cmp c _ _ => some c
  | .cmpa c _ _ => some c
  | .mins c _ _ _ => some c
  | .maxs c _ _ _ => some c
  | .minu c _ _ _ => some c
  | .maxu c _ _ _ => some c
  | .mov c _ _ => some c
  | .pick c _ _ _ _ => some c
  | .clz c _ _ => some c
  | .ctz c _ _ => some c
  | .popc c _ _ => some c
  | .brev64 c _ _ => some c
  | .bswap c _ _ => some c
  | .addi c _ _ _ => some c
  | .andi c _ _ _ => some c
  | .ori c _ _ _ => some c
  | .xori c _ _ _ => some c
  | .cmpi c _ _ => some c
  | .seth c _ _ _ => some c
  | .insh c _ _ _ => some c
  | .haddi c _ _ _ => some c
  | .li48 c _ _ => some c
  | .orh c _ _ => some c
  | .ld c _ _ _ _ _ _ => some c
  | .st c _ _ _ _ _ => some c
  | .lr c _ _ => some c
  | .sc c _ _ _ => some c
  | .atswap c _ _ _ => some c
  | .atadd c _ _ _ => some c
  | .atand c _ _ _ => some c
  | .ator c _ _ _ => some c
  | .atxor c _ _ _ => some c
  | .atmins c _ _ _ => some c
  | .atmaxs c _ _ _ => some c
  | .atminu c _ _ _ => some c
  | .atmaxu c _ _ _ => some c
  | .atcas c _ _ _ => some c
  | .hadd c _ _ _ => some c
  | .hoff c _ _ => some c
  | .hlen c _ _ => some c
  | .hseto c _ _ _ => some c
  | .gtag c _ _ => some c
  | .retag c _ _ _ => some c
  | .fadd c _ _ _ _ _ => some c
  | .fsub c _ _ _ _ _ => some c
  | .fmul c _ _ _ _ _ => some c
  | .fdiv c _ _ _ _ _ => some c
  | .fsqrt c _ _ _ _ => some c
  | .fmin c _ _ _ _ => some c
  | .fmax c _ _ _ _ => some c
  | .fminn c _ _ _ _ => some c
  | .fmaxn c _ _ _ _ => some c
  | .fcmp c _ _ _ => some c
  | .fcvtFi c _ _ _ _ _ => some c
  | .fcvtIf c _ _ _ _ _ => some c
  | .frint c _ _ _ _ => some c
  | .fabs c _ _ _ => some c
  | .fneg c _ _ _ => some c
  | .fcvtFf c _ _ _ _ _ _ => some c
  | .fma c _ _ _ _ _ => some c
  | .fms c _ _ _ _ _ => some c
  | .fnma c _ _ _ _ _ => some c
  | .fnms c _ _ _ _ _ => some c
  | .bc c _ _ => some c
  | .bl c _ _ => some c
  | .cb c _ _ _ _ => some c
  | .jr c _ => some c
  | .jalr c _ _ => some c
  | .sret c => some c
  | .eret c => some c
  | .svc c _ => some c
  | .brk c => some c
  | .wfi c => some c
  | .mfsr c _ _ => some c
  | .mtsr c _ _ => some c
  | .rdtime c _ => some c
  | .fence c _ => some c
  | .tinvVa c _ => some c
  | .tinvWorld c => some c
  | .tinvAll c => some c
  | .hinv c _ => some c
  | .tagset c _ _ => some c
  | .dcClean c _ => some c
  | .dcInv c _ => some c
  | .dcCiv c _ => some c
  | .icInv c _ => some c
  | .movblk c _ _ _ => some c
  | .tagscrub c _ _ _ _ => some c
  | .crc c _ _ _ _ => some c
  | .vadd c _ _ _ _ => some c
  | .vsub c _ _ _ _ => some c
  | .vmul c _ _ _ _ => some c
  | .vand c _ _ _ _ => some c
  | .vor c _ _ _ _ => some c
  | .vxor c _ _ _ _ => some c
  | .vsll c _ _ _ _ => some c
  | .vsrl c _ _ _ _ => some c
  | .vsra c _ _ _ _ => some c
  | .vmin c _ _ _ _ => some c
  | .vmax c _ _ _ _ => some c
  | .vcmpeq c _ _ _ _ _ => some c
  | .vcmpne c _ _ _ _ _ => some c
  | .vcmplt c _ _ _ _ _ => some c
  | .vcmple c _ _ _ _ _ => some c
  | .vfadd c _ _ _ _ _ => some c
  | .vfsub c _ _ _ _ _ => some c
  | .vfmul c _ _ _ _ _ => some c
  | .vfdiv c _ _ _ _ _ => some c
  | .vfsqrt c _ _ _ _ => some c
  | .vfmin c _ _ _ _ _ => some c
  | .vfmax c _ _ _ _ _ => some c
  | .vcmul c _ _ _ _ => some c
  | .vcmulc c _ _ _ _ => some c
  | .vfma c _ _ _ _ _ => some c
  | .vfms c _ _ _ _ _ => some c
  | .vcmula c _ _ _ _ => some c
  | .vbcast c _ _ _ _ => some c
  | .vins c _ _ _ _ _ => some c
  | .vext c _ _ _ => some c
  | .vperm c _ _ _ _ _ => some c
  | .vshufB c _ _ _ _ _ => some c
  | .vsel c _ _ _ _ _ => some c
  | .vretag c _ _ _ _ _ => some c
  | .vrsum c _ _ _ _ => some c
  | .vrmin c _ _ _ _ => some c
  | .vrmax c _ _ _ _ => some c
  | .vld c _ _ _ _ _ => some c
  | .vst c _ _ _ _ _ => some c
  | _ => none

/-- A command is well formed: its core exists on the largest part and its operands fit. -/
def wellFormed (i : Instr) : Bool :=
  (match tshCore i with | some c => coreOk c | none => true) && tshOk i

end Sys2Proof
end

