-- ==== Sys2Proof/Decode.lean ====
section
/-! DEFINITION. The table-word decoder of the block (the operation table gives no row any bits), and the TSH-3 instruction
encoding of R192 to R195 and R219: the decoder by which a core reads what it fetches, and the encoder beside it. -/

namespace Sys2Proof

/-- The command that a table word spells: the operation table gives no row any bits, so none (R219 gives the TSH-3 rows their
own encoding, which `decodeTsh` reads). -/
def decodeTableWord (_nbits _w : Nat) : Option Instr := none

/-! ### Formats (R193) -/

/-- Format R. -/
def encR (maj rd ra rb fn : Nat) : Nat := maj * 2 ^ 26 + rd * 2 ^ 21 + ra * 2 ^ 16 + rb * 2 ^ 11 + fn
/-- Format I. -/
def encI (maj rd ra imm : Nat) : Nat := maj * 2 ^ 26 + rd * 2 ^ 21 + ra * 2 ^ 16 + imm
/-- Format M: DISP11 in MODE 0 and 2, RB in [10:6] in MODE 1 and 3. -/
def encM (maj rd ra mode sx sz d : Nat) : Nat :=
  maj * 2 ^ 26 + rd * 2 ^ 21 + ra * 2 ^ 16 + mode * 2 ^ 14 + sx * 2 ^ 13 + sz * 2 ^ 11 + (if mode = 1 || mode = 3 then d * 64 else d)
/-- Format B. -/
def encB (maj cond off : Nat) : Nat := maj * 2 ^ 26 + cond * 2 ^ 22 + off
/-- Format C. -/
def encC (maj ra kind tag off : Nat) : Nat := maj * 2 ^ 26 + ra * 2 ^ 21 + kind * 2 ^ 18 + tag * 2 ^ 14 + off
/-- Format V. -/
def encV (maj vd va vb fmt msel op : Nat) : Nat :=
  maj * 2 ^ 26 + vd * 2 ^ 21 + va * 2 ^ 16 + vb * 2 ^ 11 + fmt * 2 ^ 8 + msel * 2 ^ 5 + op
/-- Format VM. -/
def encVM (maj vd ra mode msel d : Nat) : Nat :=
  maj * 2 ^ 26 + vd * 2 ^ 21 + ra * 2 ^ 16 + mode * 2 ^ 14 + msel * 2 ^ 11 + (if mode = 1 || mode = 3 then d * 64 else d)
/-- Format L, as the 64-bit code word whose first half is in the low bits (R192). -/
def encL (rd sub imm : Nat) : Nat :=
  0x3F * 2 ^ 26 + rd * 2 ^ 21 + sub * 2 ^ 16 + imm / 2 ^ 32 + imm % 2 ^ 32 * 2 ^ 32

/-- The word of a well-formed TSH-3 instruction: 32 bits, or the 64-bit code word of format L; none for the other commands. -/
def encodeTsh : Instr → Option Nat
  | .add _ rd ra rb f => some (encR 0x1 rd ra rb (0x0 + b2n f * 1024))
  | .sub _ rd ra rb f => some (encR 0x1 rd ra rb (0x1 + b2n f * 1024))
  | .adc _ rd ra rb f => some (encR 0x1 rd ra rb (0x2 + b2n f * 1024))
  | .sbc _ rd ra rb f => some (encR 0x1 rd ra rb (0x3 + b2n f * 1024))
  | .and _ rd ra rb f => some (encR 0x1 rd ra rb (0x4 + b2n f * 1024))
  | .or _ rd ra rb f => some (encR 0x1 rd ra rb (0x5 + b2n f * 1024))
  | .xor _ rd ra rb f => some (encR 0x1 rd ra rb (0x6 + b2n f * 1024))
  | .andn _ rd ra rb f => some (encR 0x1 rd ra rb (0x7 + b2n f * 1024))
  | .sll _ rd ra rb f => some (encR 0x1 rd ra rb (0x8 + b2n f * 1024))
  | .srl _ rd ra rb f => some (encR 0x1 rd ra rb (0x9 + b2n f * 1024))
  | .sra _ rd ra rb f => some (encR 0x1 rd ra rb (0xa + b2n f * 1024))
  | .ror _ rd ra rb f => some (encR 0x1 rd ra rb (0xb + b2n f * 1024))
  | .slli _ rd ra sh f => some (encR 0x1 rd ra (sh % 32) (0xc + sh / 32 * 512 + b2n f * 1024))
  | .srli _ rd ra sh f => some (encR 0x1 rd ra (sh % 32) (0xd + sh / 32 * 512 + b2n f * 1024))
  | .srai _ rd ra sh f => some (encR 0x1 rd ra (sh % 32) (0xe + sh / 32 * 512 + b2n f * 1024))
  | .rori _ rd ra sh f => some (encR 0x1 rd ra (sh % 32) (0xf + sh / 32 * 512 + b2n f * 1024))
  | .mul _ rd ra rb f => some (encR 0x1 rd ra rb (0x20 + b2n f * 1024))
  | .mulhs _ rd ra rb => some (encR 0x1 rd ra rb (0x21))
  | .mulhu _ rd ra rb => some (encR 0x1 rd ra rb (0x22))
  | .divs _ rd ra rb => some (encR 0x1 rd ra rb (0x28))
  | .divu _ rd ra rb => some (encR 0x1 rd ra rb (0x29))
  | .rems _ rd ra rb => some (encR 0x1 rd ra rb (0x2a))
  | .remu _ rd ra rb => some (encR 0x1 rd ra rb (0x2b))
  | .divsw _ rd ra rb => some (encR 0x1 rd ra rb (0x2c))
  | .divuw _ rd ra rb => some (encR 0x1 rd ra rb (0x2d))
  | .remsw _ rd ra rb => some (encR 0x1 rd ra rb (0x2e))
  | .remuw _ rd ra rb => some (encR 0x1 rd ra rb (0x2f))
  | .cmp _ ra rb => some (encR 0x1 0 ra rb (0x30))
  | .cmpa _ ra rb => some (encR 0x1 0 ra rb (0x31))
  | .mins _ rd ra rb => some (encR 0x1 rd ra rb (0x38))
  | .maxs _ rd ra rb => some (encR 0x1 rd ra rb (0x39))
  | .minu _ rd ra rb => some (encR 0x1 rd ra rb (0x3a))
  | .maxu _ rd ra rb => some (encR 0x1 rd ra rb (0x3b))
  | .mov _ rd ra => some (encR 0x1 rd ra 0 (0x40))
  | .pick _ cond rd ra rb => some (encR 0x1 rd ra rb (0x50 + cond))
  | .clz _ rd ra => some (encR 0x1 rd ra 0 (0x60))
  | .ctz _ rd ra => some (encR 0x1 rd ra 0 (0x61))
  | .popc _ rd ra => some (encR 0x1 rd ra 0 (0x62))
  | .brev64 _ rd ra => some (encR 0x1 rd ra 0 (0x63))
  | .bswap _ rd ra => some (encR 0x1 rd ra 0 (0x64))
  | .addi _ rd ra imm => some (encI 0x2 rd ra imm)
  | .andi _ rd ra imm => some (encI 0x3 rd ra imm)
  | .ori _ rd ra imm => some (encI 0x4 rd ra imm)
  | .xori _ rd ra imm => some (encI 0x5 rd ra imm)
  | .cmpi _ ra imm => some (encI 0x6 0 ra imm)
  | .seth _ rd hw imm => some (encI 0x7 rd hw imm)
  | .insh _ rd hw imm => some (encI 0x8 rd hw imm)
  | .haddi _ rd ra imm => some (encI 0x9 rd ra imm)
  | .li48 _ rd imm => some (encL rd 0 imm)
  | .orh _ rd imm => some (encL rd 1 imm)
  | .ld _ mode sx sz rd ra d => some (encM 0x10 rd ra mode (b2n sx) sz d)
  | .st _ mode sz rd ra d => some (encM 0x11 rd ra mode 0 sz d)
  | .lr _ rd ra => some (encR 0x12 rd ra 0 (0))
  | .sc _ rd ra rb => some (encR 0x12 rd ra rb (1))
  | .atswap _ rd ra rb => some (encR 0x12 rd ra rb (0x2))
  | .atadd _ rd ra rb => some (encR 0x12 rd ra rb (0x3))
  | .atand _ rd ra rb => some (encR 0x12 rd ra rb (0x4))
  | .ator _ rd ra rb => some (encR 0x12 rd ra rb (0x5))
  | .atxor _ rd ra rb => some (encR 0x12 rd ra rb (0x6))
  | .atmins _ rd ra rb => some (encR 0x12 rd ra rb (0x7))
  | .atmaxs _ rd ra rb => some (encR 0x12 rd ra rb (0x8))
  | .atminu _ rd ra rb => some (encR 0x12 rd ra rb (0x9))
  | .atmaxu _ rd ra rb => some (encR 0x12 rd ra rb (0xa))
  | .atcas _ rd ra rb => some (encR 0x12 rd ra rb (0xb))
  | .hadd _ rd ra rb => some (encR 0x13 rd ra rb (0))
  | .hoff _ rd ra => some (encR 0x13 rd ra 0 (1))
  | .hlen _ rd ra => some (encR 0x13 rd ra 0 (2))
  | .hseto _ rd ra rb => some (encR 0x13 rd ra rb (3))
  | .gtag _ rd ra => some (encR 0x14 rd ra 0 (0))
  | .retag _ rd ra tag => some (encR 0x14 rd ra tag (1))
  | .fadd _ fmt rm rd ra rb => some (encR 0x18 rd ra rb (rm * 256 + fmt * 32 + 0x0))
  | .fsub _ fmt rm rd ra rb => some (encR 0x18 rd ra rb (rm * 256 + fmt * 32 + 0x1))
  | .fmul _ fmt rm rd ra rb => some (encR 0x18 rd ra rb (rm * 256 + fmt * 32 + 0x2))
  | .fdiv _ fmt rm rd ra rb => some (encR 0x18 rd ra rb (rm * 256 + fmt * 32 + 0x3))
  | .fsqrt _ fmt rm rd ra => some (encR 0x18 rd ra 0 (rm * 256 + fmt * 32 + 0x4))
  | .fmin _ fmt rd ra rb => some (encR 0x18 rd ra rb (0 * 256 + fmt * 32 + 0x5))
  | .fmax _ fmt rd ra rb => some (encR 0x18 rd ra rb (0 * 256 + fmt * 32 + 0x6))
  | .fminn _ fmt rd ra rb => some (encR 0x18 rd ra rb (0 * 256 + fmt * 32 + 0x7))
  | .fmaxn _ fmt rd ra rb => some (encR 0x18 rd ra rb (0 * 256 + fmt * 32 + 0x8))
  | .fcmp _ fmt ra rb => some (encR 0x18 0 ra rb (0 * 256 + fmt * 32 + 0x9))
  | .fcvtFi _ fmt rm rd ra uns => some (encR 0x18 rd ra (b2n uns) (rm * 256 + fmt * 32 + 0xb))
  | .fcvtIf _ fmt rm rd ra uns => some (encR 0x18 rd ra (b2n uns) (rm * 256 + fmt * 32 + 0xc))
  | .frint _ fmt rm rd ra => some (encR 0x18 rd ra 0 (rm * 256 + fmt * 32 + 0xd))
  | .fabs _ fmt rd ra => some (encR 0x18 rd ra 0 (0 * 256 + fmt * 32 + 0xe))
  | .fneg _ fmt rd ra => some (encR 0x18 rd ra 0 (0 * 256 + fmt * 32 + 0xf))
  | .fcvtFf _ src dst rm rd ra rb => some (encR 0x18 rd ra rb (rm * 256 + dst * 32 + 0x10 + src))
  | .fma _ fmt rd ra rb rc => some (encR 0x19 rd ra rb (rc * 64 + fmt * 8 + 0 * 2))
  | .fms _ fmt rd ra rb rc => some (encR 0x19 rd ra rb (rc * 64 + fmt * 8 + 1 * 2))
  | .fnma _ fmt rd ra rb rc => some (encR 0x19 rd ra rb (rc * 64 + fmt * 8 + 2 * 2))
  | .fnms _ fmt rd ra rb rc => some (encR 0x19 rd ra rb (rc * 64 + fmt * 8 + 3 * 2))
  | .bc _ cond off => some (encB 0x20 cond off)
  | .bl _ cond off => some (encB 0x21 cond off)
  | .cb _ ra kind tag off => some (encC 0x22 ra kind tag off)
  | .jr _ ra => some (encR 0x23 0 ra 0 (0))
  | .jalr _ rd ra => some (encR 0x23 rd ra 0 (1))
  | .sret _ => some (encR 0x23 0 0 0 (2))
  | .eret _ => some (encR 0x23 0 0 0 (3))
  | .svc _ code => some (encR 0x23 0 (code / 32) (code % 32) (4))
  | .brk _ => some (encR 0x23 0 0 0 (5))
  | .wfi _ => some (encR 0x23 0 0 0 (6))
  | .mfsr _ rd n => some (encR 0x30 rd (n / 32) (n % 32) (0))
  | .mtsr _ rs n => some (encR 0x30 rs (n / 32) (n % 32) (1))
  | .rdtime _ rd => some (encR 0x30 rd 0 0 (2))
  | .fence _ kind => some (encR 0x30 0 0 kind (3))
  | .tinvVa _ ra => some (encR 0x30 0 ra 0 (4))
  | .tinvWorld _ => some (encR 0x30 0 0 0 (5))
  | .tinvAll _ => some (encR 0x30 0 0 0 (6))
  | .hinv _ ra => some (encR 0x30 0 ra 0 (7))
  | .tagset _ ra tag => some (encR 0x30 0 ra tag (8))
  | .dcClean _ ra => some (encR 0x30 0 ra 0 (0x9))
  | .dcInv _ ra => some (encR 0x30 0 ra 0 (0xa))
  | .dcCiv _ ra => some (encR 0x30 0 ra 0 (0xb))
  | .icInv _ ra => some (encR 0x30 0 ra 0 (0xc))
  | .movblk _ rd ra rb => some (encR 0x31 rd ra rb (0))
  | .tagscrub _ rd ra tag zero => some (encR 0x31 rd ra tag (1 + b2n zero * 512))
  | .crc _ rd ra rb poly => some (encR 0x31 rd ra rb (2 + poly * 256))
  | .vadd _ msel vd va vb => some (encV 0x28 vd va vb 0 msel 0x0)
  | .vsub _ msel vd va vb => some (encV 0x28 vd va vb 0 msel 0x1)
  | .vmul _ msel vd va vb => some (encV 0x28 vd va vb 0 msel 0x2)
  | .vand _ msel vd va vb => some (encV 0x28 vd va vb 0 msel 0x3)
  | .vor _ msel vd va vb => some (encV 0x28 vd va vb 0 msel 0x4)
  | .vxor _ msel vd va vb => some (encV 0x28 vd va vb 0 msel 0x5)
  | .vsll _ msel vd va vb => some (encV 0x28 vd va vb 0 msel 0x6)
  | .vsrl _ msel vd va vb => some (encV 0x28 vd va vb 0 msel 0x7)
  | .vsra _ msel vd va vb => some (encV 0x28 vd va vb 0 msel 0x8)
  | .vmin _ msel vd va vb => some (encV 0x28 vd va vb 0 msel 0x9)
  | .vmax _ msel vd va vb => some (encV 0x28 vd va vb 0 msel 0xa)
  | .vcmpeq _ fmt msel vd va vb => some (encV (if fmt = 0 then 0x28 else 0x29) vd va vb fmt msel 0x10)
  | .vcmpne _ fmt msel vd va vb => some (encV (if fmt = 0 then 0x28 else 0x29) vd va vb fmt msel 0x11)
  | .vcmplt _ fmt msel vd va vb => some (encV (if fmt = 0 then 0x28 else 0x29) vd va vb fmt msel 0x12)
  | .vcmple _ fmt msel vd va vb => some (encV (if fmt = 0 then 0x28 else 0x29) vd va vb fmt msel 0x13)
  | .vfadd _ fmt msel vd va vb => some (encV 0x29 vd va vb fmt msel 0x0)
  | .vfsub _ fmt msel vd va vb => some (encV 0x29 vd va vb fmt msel 0x1)
  | .vfmul _ fmt msel vd va vb => some (encV 0x29 vd va vb fmt msel 0x2)
  | .vfdiv _ fmt msel vd va vb => some (encV 0x29 vd va vb fmt msel 0x3)
  | .vfsqrt _ fmt msel vd va => some (encV 0x29 vd va 0 fmt msel 4)
  | .vfmin _ fmt msel vd va vb => some (encV 0x29 vd va vb fmt msel 0x5)
  | .vfmax _ fmt msel vd va vb => some (encV 0x29 vd va vb fmt msel 0x6)
  | .vcmul _ msel vd va vb => some (encV 0x29 vd va vb 2 msel 0x8)
  | .vcmulc _ msel vd va vb => some (encV 0x29 vd va vb 2 msel 0x9)
  | .vfma _ fmt msel vd va vb => some (encV 0x2a vd va vb fmt msel 0x0)
  | .vfms _ fmt msel vd va vb => some (encV 0x2a vd va vb fmt msel 0x1)
  | .vcmula _ msel vd va vb => some (encV 0x2a vd va vb 2 msel 2)
  | .vbcast _ fmt msel vd va => some (encV 0x2b vd va 0 fmt msel 0)
  | .vins _ fmt msel vd va idx => some (encV 0x2b vd va idx fmt msel 1)
  | .vext _ vd va idx => some (encV 0x2b vd va idx 0 0 2)
  | .vperm _ fmt msel vd va vb => some (encV 0x2b vd va vb fmt msel 0x3)
  | .vshufB _ fmt msel vd va vb => some (encV 0x2b vd va vb fmt msel 0x4)
  | .vsel _ fmt msel vd va vb => some (encV 0x2b vd va vb fmt msel 0x5)
  | .vretag _ fmt msel vd va tag => some (encV 0x2b vd va tag fmt msel 6)
  | .vrsum _ fmt msel vd va => some (encV 0x2b vd va 0 fmt msel 0x8)
  | .vrmin _ fmt msel vd va => some (encV 0x2b vd va 0 fmt msel 0x9)
  | .vrmax _ fmt msel vd va => some (encV 0x2b vd va 0 fmt msel 0xa)
  | .vld _ mode msel vd ra d => some (encVM 0x2c vd ra mode msel d)
  | .vst _ mode msel vd ra d => some (encVM 0x2d vd ra mode msel d)
  | _ => none

/-- Whether an instruction is long (format L, R192). -/
def isLong : Instr → Bool
  | .li48 _ _ _ => true
  | .orh _ _ _ => true
  | _ => false

/-! ### Decoder (R192 to R195) -/

/-- Read format R operations of MAJ 0x01 (R219). -/
def decInt (c : CoreId) (rd ra rb fn : Nat) : Option Instr :=
  let f := fn / 1024 = 1
  let op := fn % 1024
  let sh := rb + 32 * (fn / 512 % 2)
  if op = 0x0 then some (.add c rd ra rb f)
  else if op = 0x1 then some (.sub c rd ra rb f)
  else if op = 0x2 then some (.adc c rd ra rb f)
  else if op = 0x3 then some (.sbc c rd ra rb f)
  else if op = 0x4 then some (.and c rd ra rb f)
  else if op = 0x5 then some (.or c rd ra rb f)
  else if op = 0x6 then some (.xor c rd ra rb f)
  else if op = 0x7 then some (.andn c rd ra rb f)
  else if op = 0x8 then some (.sll c rd ra rb f)
  else if op = 0x9 then some (.srl c rd ra rb f)
  else if op = 0xa then some (.sra c rd ra rb f)
  else if op = 0xb then some (.ror c rd ra rb f)
  else if op % 512 = 0xc then some (.slli c rd ra sh f)
  else if op % 512 = 0xd then some (.srli c rd ra sh f)
  else if op % 512 = 0xe then some (.srai c rd ra sh f)
  else if op % 512 = 0xf then some (.rori c rd ra sh f)
  else if op = 0x20 then some (.mul c rd ra rb f)
  else if f then none
  else if op = 0x21 then some (.mulhs c rd ra rb)
  else if op = 0x22 then some (.mulhu c rd ra rb)
  else if op = 0x28 then some (.divs c rd ra rb)
  else if op = 0x29 then some (.divu c rd ra rb)
  else if op = 0x2a then some (.rems c rd ra rb)
  else if op = 0x2b then some (.remu c rd ra rb)
  else if op = 0x2c then some (.divsw c rd ra rb)
  else if op = 0x2d then some (.divuw c rd ra rb)
  else if op = 0x2e then some (.remsw c rd ra rb)
  else if op = 0x2f then some (.remuw c rd ra rb)
  else if op = 0x30 && rd = 0 then some (.cmp c ra rb)
  else if op = 0x31 && rd = 0 then some (.cmpa c ra rb)
  else if op = 0x38 then some (.mins c rd ra rb)
  else if op = 0x39 then some (.maxs c rd ra rb)
  else if op = 0x3a then some (.minu c rd ra rb)
  else if op = 0x3b then some (.maxu c rd ra rb)
  else if op = 0x40 then some (.mov c rd ra)
  else if 0x50 ≤ op && op < 0x5F then some (.pick c (op - 0x50) rd ra rb)
  else if op = 0x60 then some (.clz c rd ra)
  else if op = 0x61 then some (.ctz c rd ra)
  else if op = 0x62 then some (.popc c rd ra)
  else if op = 0x63 then some (.brev64 c rd ra)
  else if op = 0x64 then some (.bswap c rd ra)
  else none

/-- Read format R atomics of MAJ 0x12. -/
def decAtom (c : CoreId) (rd ra rb fn : Nat) : Option Instr :=
  if fn = 0 then some (.lr c rd ra)
  else if fn = 1 then some (.sc c rd ra rb)
  else if fn = 0x2 then some (.atswap c rd ra rb)
  else if fn = 0x3 then some (.atadd c rd ra rb)
  else if fn = 0x4 then some (.atand c rd ra rb)
  else if fn = 0x5 then some (.ator c rd ra rb)
  else if fn = 0x6 then some (.atxor c rd ra rb)
  else if fn = 0x7 then some (.atmins c rd ra rb)
  else if fn = 0x8 then some (.atmaxs c rd ra rb)
  else if fn = 0x9 then some (.atminu c rd ra rb)
  else if fn = 0xa then some (.atmaxu c rd ra rb)
  else if fn = 0xb then some (.atcas c rd ra rb)
  else none

/-- Read scalar floating point of MAJ 0x18. -/
def decFp (c : CoreId) (rd ra rb fn : Nat) : Option Instr :=
  let rm := fn / 256
  let fmt := fn / 32 % 8
  let op := fn % 32
  if fmt = 0 || 5 ≤ fmt || !rmOk rm then none
  else if op = 0 then some (.fadd c fmt rm rd ra rb)
  else if op = 1 then some (.fsub c fmt rm rd ra rb)
  else if op = 2 then some (.fmul c fmt rm rd ra rb)
  else if op = 3 then some (.fdiv c fmt rm rd ra rb)
  else if op = 4 then some (.fsqrt c fmt rm rd ra)
  else if op = 5 then some (.fmin c fmt rd ra rb)
  else if op = 6 then some (.fmax c fmt rd ra rb)
  else if op = 7 then some (.fminn c fmt rd ra rb)
  else if op = 8 then some (.fmaxn c fmt rd ra rb)
  else if op = 9 && rd = 0 then some (.fcmp c fmt ra rb)
  else if op = 0xB then some (.fcvtFi c fmt rm rd ra (rb % 2 = 1))
  else if op = 0xC then some (.fcvtIf c fmt rm rd ra (rb % 2 = 1))
  else if op = 0xD then some (.frint c fmt rm rd ra)
  else if op = 0xE then some (.fabs c fmt rd ra)
  else if op = 0xF then some (.fneg c fmt rd ra)
  else if 0x10 ≤ op && op < 0x18 && cvtOk (op - 0x10) fmt then some (.fcvtFf c (op - 0x10) fmt rm rd ra rb)
  else none

/-- Read control transfer and system groups of MAJ 0x23. -/
def decCtl (c : CoreId) (rd ra rb fn : Nat) : Option Instr :=
  if fn = 0 then some (.jr c ra)
  else if fn = 1 then some (.jalr c rd ra)
  else if fn = 2 then some (.sret c)
  else if fn = 3 then some (.eret c)
  else if fn = 4 then some (.svc c (ra * 32 + rb))
  else if fn = 5 then some (.brk c)
  else if fn = 6 then some (.wfi c)
  else none

/-- Read system operations of MAJ 0x30. -/
def decSys (c : CoreId) (rd ra rb fn : Nat) : Option Instr :=
  if fn = 0 then some (.mfsr c rd (ra * 32 + rb))
  else if fn = 1 then some (.mtsr c rd (ra * 32 + rb))
  else if fn = 2 then some (.rdtime c rd)
  else if fn = 3 && rb % 8 < 4 then some (.fence c (rb % 8))
  else if fn = 4 then some (.tinvVa c ra)
  else if fn = 5 then some (.tinvWorld c)
  else if fn = 6 then some (.tinvAll c)
  else if fn = 7 then some (.hinv c ra)
  else if fn = 8 then some (.tagset c ra (rb % 16))
  else if fn = 9 then some (.dcClean c ra)
  else if fn = 0xA then some (.dcInv c ra)
  else if fn = 0xB then some (.dcCiv c ra)
  else if fn = 0xC then some (.icInv c ra)
  else none

/-- Read vector operations of MAJ 0x28 to 0x2B. -/
def decVec (c : CoreId) (maj vd va vb fmt msel op : Nat) : Option Instr :=
  if 5 ≤ fmt then none
  else if maj = 0x28 then
    if fmt ≠ 0 then none
    else if op = 0 then some (.vadd c msel vd va vb)
    else if op = 1 then some (.vsub c msel vd va vb)
    else if op = 2 then some (.vmul c msel vd va vb)
    else if op = 3 then some (.vand c msel vd va vb)
    else if op = 4 then some (.vor c msel vd va vb)
    else if op = 5 then some (.vxor c msel vd va vb)
    else if op = 6 then some (.vsll c msel vd va vb)
    else if op = 7 then some (.vsrl c msel vd va vb)
    else if op = 8 then some (.vsra c msel vd va vb)
    else if op = 9 then some (.vmin c msel vd va vb)
    else if op = 10 then some (.vmax c msel vd va vb)
    else if op = 0x10 then some (.vcmpeq c 0 msel vd va vb)
    else if op = 0x11 then some (.vcmpne c 0 msel vd va vb)
    else if op = 0x12 then some (.vcmplt c 0 msel vd va vb)
    else if op = 0x13 then some (.vcmple c 0 msel vd va vb)
    else none
  else if maj = 0x29 then
    if fmt = 0 then none
    else if op = 0 then some (.vfadd c fmt msel vd va vb)
    else if op = 1 then some (.vfsub c fmt msel vd va vb)
    else if op = 2 then some (.vfmul c fmt msel vd va vb)
    else if op = 3 then some (.vfdiv c fmt msel vd va vb)
    else if op = 4 then some (.vfsqrt c fmt msel vd va)
    else if op = 5 then some (.vfmin c fmt msel vd va vb)
    else if op = 6 then some (.vfmax c fmt msel vd va vb)
    else if op = 8 && fmt = 2 then some (.vcmul c msel vd va vb)
    else if op = 9 && fmt = 2 then some (.vcmulc c msel vd va vb)
    else if op = 0x10 then some (.vcmpeq c fmt msel vd va vb)
    else if op = 0x11 then some (.vcmpne c fmt msel vd va vb)
    else if op = 0x12 then some (.vcmplt c fmt msel vd va vb)
    else if op = 0x13 then some (.vcmple c fmt msel vd va vb)
    else none
  else if maj = 0x2A then
    if fmt = 0 then none
    else if op = 0 then some (.vfma c fmt msel vd va vb)
    else if op = 1 then some (.vfms c fmt msel vd va vb)
    else if op = 2 && fmt = 2 then some (.vcmula c msel vd va vb)
    else none
  else
    if op = 0 then some (.vbcast c fmt msel vd va)
    else if op = 1 then some (.vins c fmt msel vd va (vb % 8))
    else if op = 2 then some (.vext c vd va (vb % 8))
    else if op = 3 then some (.vperm c fmt msel vd va vb)
    else if op = 4 then some (.vshufB c fmt msel vd va vb)
    else if op = 5 && 0 < msel then some (.vsel c fmt msel vd va vb)
    else if op = 6 then some (.vretag c fmt msel vd va (vb % 16))
    else if op = 8 then some (.vrsum c fmt msel vd va)
    else if op = 9 then some (.vrmin c fmt msel vd va)
    else if op = 10 then some (.vrmax c fmt msel vd va)
    else none

/-- Decode a 32-bit instruction word for core `c`; none where R192 to R195 make it ILLEGAL. -/
def decode32 (c : CoreId) (w : Nat) : Option Instr :=
  let maj := w / 2 ^ 26
  let rd := w / 2 ^ 21 % 32
  let ra := w / 2 ^ 16 % 32
  let rb := w / 2 ^ 11 % 32
  let fn := w % 2048
  let imm := w % 65536
  let mode := w / 2 ^ 14 % 4
  let dOk := mode = 0 || mode = 2 || w % 64 = 0
  let d := if mode = 1 || mode = 3 then w / 64 % 32 else w % 2048
  if maj = 0x01 then decInt c rd ra rb fn
  else if maj = 0x02 then some (.addi c rd ra imm)
  else if maj = 0x03 then some (.andi c rd ra imm)
  else if maj = 0x04 then some (.ori c rd ra imm)
  else if maj = 0x05 then some (.xori c rd ra imm)
  else if maj = 0x06 then if rd = 0 then some (.cmpi c ra imm) else none
  else if maj = 0x07 then if ra < 4 then some (.seth c rd ra imm) else none
  else if maj = 0x08 then if ra < 4 then some (.insh c rd ra imm) else none
  else if maj = 0x09 then some (.haddi c rd ra imm)
  else if maj = 0x10 then 
    let sx := decide (w / 2 ^ 13 % 2 = 1)
    let sz := w / 2 ^ 11 % 4
    if !dOk || (sx && sz = 3) || (2 ≤ mode && rd = ra) then none else some (.ld c mode sx sz rd ra d)
  else if maj = 0x11 then if !dOk || (w / 2 ^ 13 % 2 = 1 && w / 2 ^ 11 % 4 = 3) then none else some (.st c mode (w / 2 ^ 11 % 4) rd ra d)
  else if maj = 0x12 then decAtom c rd ra rb fn
  else if maj = 0x13 then if fn = 0 then some (.hadd c rd ra rb) else if fn = 1 then some (.hoff c rd ra) else if fn = 2 then some (.hlen c rd ra)
    else if fn = 3 then some (.hseto c rd ra rb) else none
  else if maj = 0x14 then if fn = 0 then some (.gtag c rd ra) else if fn = 1 then some (.retag c rd ra (rb % 16)) else none
  else if maj = 0x18 then decFp c rd ra rb fn
  else if maj = 0x19 then 
    let fmt := fn / 8 % 8
    if fmt = 0 || 5 ≤ fmt || fn % 2 = 1 then none
    else if fn / 2 % 4 = 0 then some (.fma c fmt rd ra rb (fn / 64)) else if fn / 2 % 4 = 1 then some (.fms c fmt rd ra rb (fn / 64))
    else if fn / 2 % 4 = 2 then some (.fnma c fmt rd ra rb (fn / 64)) else some (.fnms c fmt rd ra rb (fn / 64))
  else if maj = 0x20 then if w / 2 ^ 22 % 16 = 15 then none else some (.bc c (w / 2 ^ 22 % 16) (w % 2 ^ 22))
  else if maj = 0x21 then if w / 2 ^ 22 % 16 = 15 then none else some (.bl c (w / 2 ^ 22 % 16) (w % 2 ^ 22))
  else if maj = 0x22 then if 4 ≤ w / 2 ^ 18 % 8 then none else some (.cb c rd (w / 2 ^ 18 % 8) (w / 2 ^ 14 % 16) (w % 2 ^ 14))
  else if maj = 0x23 then decCtl c rd ra rb fn
  else if 0x28 ≤ maj && maj ≤ 0x2B then decVec c maj rd ra rb (w / 2 ^ 8 % 8) (w / 2 ^ 5 % 8) (w % 32)
  else if maj = 0x2C then if dOk then some (.vld c mode (w / 2 ^ 11 % 8) rd ra d) else none
  else if maj = 0x2D then if dOk then some (.vst c mode (w / 2 ^ 11 % 8) rd ra d) else none
  else if maj = 0x30 then decSys c rd ra rb fn
  else if maj = 0x31 then if fn = 0 then some (.movblk c rd ra rb) else if fn % 512 = 1 && fn / 1024 = 0 then some (.tagscrub c rd ra (rb % 16) (fn / 512 % 2 = 1))
    else if fn % 256 = 2 && fn / 256 < 3 then some (.crc c rd ra rb (fn / 256)) else none
  else none

/-- Decode the instruction at a code word's first half; a long instruction takes the whole word (R192). -/
def decodeTsh (c : CoreId) (w : Nat) : Option Instr :=
  let first := w % 2 ^ 32
  if first / 2 ^ 26 = 0x3F then
    let rd := first / 2 ^ 21 % 32
    let imm := first % 65536 * 2 ^ 32 + w / 2 ^ 32
    let sub := first / 2 ^ 16 % 32
    if sub = 0 then some (.li48 c rd imm) else if sub = 1 then some (.orh c rd (imm % 65536)) else none
  else decode32 c first

end Sys2Proof
end

