-- ==== Sys2Proof/Config.lean ====
section
/-! DEFINITION. What the spec leaves open or takes from cited standards, as constants without a body: nothing can be proved
about their values, so a claim holds whatever they are. -/

namespace Sys2Proof.Config

/-- A fresh free value, by the count of values drawn (assumption 2): what the spec calls undefined, unspecified or does not state. -/
opaque freeValue : Nat → Word

/-- A fresh free byte, by draw count and position (assumption 2). -/
opaque freeByte : Nat → Nat → Byte

/-- What an engine codes a block from (R94, R96, R97, R108). -/
structure Coding where
  /-- LEVEL. -/
  level : Nat
  /-- Window log. -/
  wlog : Nat
  /-- Times the job was resumed before the block: it may then code in another way (R108). -/
  run : Nat
  /-- Number of the block. -/
  k : Nat
  /-- The last block. -/
  last : Bool
  /-- The input before the block. -/
  hist : List Byte
  /-- The block's input. -/
  blk : List Byte

/-- A DEFLATE block as an engine forms it with dynamic codes, or with the fixed ones (R94). How an engine looks for matches is not in the spec. -/
opaque deflateBlock : (dynamic : Bool) → Coding → List Bool

/-- The content of a compressed Zstandard block as an engine forms it (R94). -/
opaque zstdBlock : Coding → List Byte

/-- What the root key and ROOTID fuses hold after a burn that failed its read-back, by the key that was to be burned (R443 states only ERR). -/
opaque failedBurn : (key : Nat) → Nat × Nat

/-- The fixed digest of the boot ROM (R442). -/
opaque bootRomDigest : Nat

/-- Whether a microword of a patch set, 18 data bytes and 2 check bytes, passes its check bits and waits with no k above 12 (R254). The
check code and the microword's encoding are not in the spec. -/
opaque microwordOk : List Byte → Bool

/-- Metadata bytes per LBA of a namespace by PCIe port and namespace ID: the format is the storage's own (R99, R115, R402). -/
opaque metaBytes : (port : Nat) → (nsid : Nat) → Nat

/-- Whether a namespace is formatted with protection information: the format is the storage's own (R405). -/
opaque protInfo : (port : Nat) → (nsid : Nat) → Bool

/-- Bytes that a frame of a kind with so much payload adds to a port's count of bytes sent: the framing is not counted out by the spec
(R393, R415). -/
opaque frameBytes : (kind : Nat) → (payload : Nat) → Nat

end Sys2Proof.Config
end

