-- ==== Sys2Proof/Machine/State.lean ====
section
/-! DEFINITION. The state of the HK7 block as plain data, its reset value, the reasons a step can stop, and the working
state that a command's effect is computed on. -/

namespace Sys2Proof.Machine

/-- Why a step can stop with a fault. -/
inductive Fault where
  /-- Raised by no meaning: every command of the table has an effect or leaves the state as it is. Safe. -/
  | unreachable
  deriving DecidableEq, Repr

/-- Why a step can be refused. -/
inductive Refusal where
  /-- Raised by an arm of `exec` whose command has no meaning yet, by its mnemonic. Safe: it stops where the hardware goes on. -/
  | notModelled (mnemonic : String)
  deriving DecidableEq, Repr

/-! ### Memory and fuses -/

/-- The physical address space of R283 without the device registers: bytes that differ from 0 and word tags that differ from RAW.
What an unlisted byte or tag reads as after power-on the spec leaves open: DESIGN CHOICE, assumption 3. -/
structure Mem where
  /-- Bytes by physical address, strictly rising, none equal to 0 (R283; TCM at its alias R223, scratch at R271). -/
  cells : List Host.Cell := []
  /-- Tags by word number (address / 8), strictly rising, none RAW (R196, R281). -/
  tags : Tab Tag := []
  deriving DecidableEq, Repr

/-- One change of memory that a command makes. -/
inductive MemWrite where
  /-- A byte of the physical address space. -/
  | byte (a : Nat) (b : Byte)
  /-- The tag of an 8-byte word. -/
  | tag (wi : Nat) (t : Tag)
  deriving DecidableEq, Repr

/-- The fuse banks (R437, R443, R479): what bring-up loads into the fields marked F. Their content is the part's own;
the reset value is one HK7-X of stepping 2.1, DESIGN CHOICE (assumption 4). -/
structure Fuses where
  /-- IDREV [63:0] (R479): VENDOR, PART, MAJOR, MINOR, CONFIG, TSHLVL. -/
  idrev : Word := 0x5A1E048702015803
  /-- SERNO [127:0] (R479). -/
  serno : Nat := 0
  /-- KDF.ROOTID fuses, 64 bits (R131). -/
  rootid : Nat := 0
  /-- Root key fuses, 256 bits; none while the bank is blank (R443). -/
  rootKey : Option Nat := none
  /-- DBG.STAT.LOCK fuse (R429). -/
  dbgLock : Bool := false
  /-- Debug authorisation public data fuse, as the debug grant rule names it (R428). -/
  dbgKey : Nat := 0
  /-- PWR.VID code fuse (R463). -/
  vid : Nat := 0
  deriving DecidableEq, Repr

/-! ### Cores -/

/-- A core that executes TSH-3: a Cornice core or a Floe core by physical index (R221, R147). -/
inductive CoreKind where
  | cornice | floe
  deriving DecidableEq, Repr

/-- A line of memory or of a core's own TCM (R209, R298). -/
structure LineRef where
  /-- The line lies in the core's TCM. -/
  tcm : Bool
  /-- Line number: address / 64, or TCM offset / 64. -/
  line : Nat
  deriving DecidableEq, Repr

/-- A store that waits in a Cornice core's output buffer for the next checkpoint (R257). -/
structure HeldStore where
  /-- Physical address of the first byte. -/
  addr : Nat
  /-- The bytes, lowest address first. -/
  data : List Byte
  /-- The tag each touched word takes, by word number (R196, R198). -/
  tags : List (Nat × Tag)
  /-- Acting world, whose owner check the store passed (R173). -/
  world : Nat := 0
  /-- PC of the store, for the prefetcher (R269). -/
  pc : Nat := 0
  /-- NORMAL-NC (R302). -/
  nc : Bool := false
  /-- Whether a D-L1 miss of the store trains the prefetcher (R269). -/
  train : Bool := true
  deriving DecidableEq, Repr

/-- The state that a checkpoint copies (R256). -/
structure Ckpt where
  /-- PC. -/
  pc : Word := 0
  /-- g1 to g31 with their tags. -/
  g : Tab TWord := []
  /-- PSW. -/
  psw : Word := 0
  /-- FPSW. -/
  fpsw : Word := 0
  /-- CWORLD. -/
  cworld : Nat := 0
  /-- CSTK. -/
  cstk : TWord := {}
  deriving DecidableEq, Repr

/-- A handle-table entry as a core caches it (R201, R203). -/
structure HEntry where
  /-- V and every validity condition of R201 hold. -/
  valid : Bool := false
  /-- Physical address of offset 0 (46 bits); for a segment window, unused. -/
  base : Nat := 0
  /-- Length in bytes (40 bits). -/
  len : Nat := 0
  /-- Modulo length, 0 for none (40 bits). -/
  modlen : Nat := 0
  /-- The only world that may use the handle. -/
  world : Nat := 0
  /-- R right. -/
  r : Bool := false
  /-- W right. -/
  w : Bool := false
  /-- Bit-reverse order, 0 to 20. -/
  brev : Nat := 0
  /-- Segment window over Névé buffers (R147): the chain's buffers in order. -/
  chain : Option (List Nat) := none
  deriving DecidableEq, Repr

/-- A cached translation of one 4 KiB page (R181, R221, R225). -/
structure TlbEntry where
  /-- World whose tables were walked. -/
  world : Nat
  /-- Virtual page number. -/
  vpn : Nat
  /-- Physical page number. -/
  ppn : Nat
  /-- Leaf MTYPE (R179). -/
  mtype : Nat
  /-- R right of the leaf. -/
  r : Bool
  /-- W right of the leaf. -/
  w : Bool
  /-- X right of the leaf. -/
  x : Bool
  /-- log2 of the leaf's page size in bytes: 12, 21 or 30 (R179). -/
  shift : Nat
  /-- Address of the leaf's entry, for the record of a missing right (R180). -/
  leaf : Nat := 0
  deriving DecidableEq, Repr

/-- An L1 line: identity, recorded world and write grant (R225) and the use bit of R267. -/
structure L1Line where
  /-- Line number (physical address / 64). -/
  line : Nat
  /-- World whose owner-checked fill brought it in (R225); 0xFFFF once OWN.CMD cleared it. -/
  world : Nat
  /-- Whether that check granted write (R225). -/
  wgrant : Bool
  /-- The bit of R267, set by a fill or a hit. -/
  used : Bool
  /-- Written and not yet written back (R261). -/
  dirty : Bool := false
  /-- For a line kept across a disable (R274): its 64 bytes and 8 tags as they stood. -/
  stale : Option (List Byte × List Tag) := none
  deriving DecidableEq, Repr

/-- A stride prefetcher stream (R269). -/
structure PfEntry where
  /-- PC[13:2] of the load or store. -/
  pc : Nat
  /-- World of the code. -/
  world : Nat
  /-- Last missing line. -/
  last : Nat
  /-- Stride in lines, −32 to 32 and never 0; of a new entry a free value (assumption 106). -/
  stride : Int
  /-- Confidence 0 to 3. -/
  conf : Nat
  /-- Recently used bit. -/
  used : Bool
  deriving DecidableEq, Repr

/-- A patch set in force in a core: its revision, the match registers in use as pairs of a ROM address and a patch address, and the patch RAM's
microwords of 160 bits from address 0 on (R250, R251, R253). -/
structure PatchSet where
  /-- SETREV. -/
  rev : Nat
  /-- Match registers. -/
  pairs : List (Nat × Nat)
  /-- Patch RAM. -/
  words : List Nat
  deriving DecidableEq, Repr

/-- The state of one TSH-3 core (R189, R233, R256, R257). A core that the table does not list stands at these defaults. -/
structure Core where
  /-- Executing: started, in service and not stopped (R244, R257, R344). -/
  active : Bool := false
  /-- g1 to g31 with their tags (R189); unlisted: RAW 0. DESIGN CHOICE, assumption 5. -/
  g : Tab TWord := []
  /-- v0 to v31 by register × 8 + element (R189, R214), Floe only; unlisted: RAW 0. -/
  v : Tab TWord := []
  /-- PSW, 32 bits (R191). -/
  psw : Word := 0
  /-- FPSW, 32 bits (R191). -/
  fpsw : Word := 0
  /-- PC, 64 bits (R189). DESIGN CHOICE 0, assumption 5. -/
  pc : Word := 0
  /-- CWORLD, system register 2 (R233). -/
  cworld : Nat := 0
  /-- CSTK, system register 3 (R233, R238). X: DESIGN CHOICE 0, assumption 5. -/
  cstk : TWord := {}
  /-- VBASE, system register 4 (R233, R240). X: DESIGN CHOICE 0, assumption 5. -/
  vbase : Word := 0
  /-- ESTK, system register 5 (R244): reset OFFSET 0x3FC. -/
  estk : Word := 0x1FE00
  /-- ESTAT, system register 6 (R244). -/
  estat : Word := 0
  /-- The latched lines DEADLINE and IPI of IPEND, system register 7 (R236). -/
  ipend : Word := 0
  /-- IENA, system register 8 (R236). -/
  iena : Word := 0
  /-- NDEAD, system register 9 (R237). -/
  ndead : Word := 0
  /-- CORECTL, system register 10 (R233): reset IL1EN 1, DL1EN 1. -/
  corectl : Word := 6
  /-- DETSTAT, system register 11 (R249). -/
  detstat : Word := 0
  /-- TCMCTL, system register 12 (R222): reset CSIZE 8. -/
  tcmctl : Word := 8
  /-- AKMASK of the tenant world it runs, as last read (R165, R242). -/
  akmask : Nat := 0
  /-- The reservation of LR (R209, R298). -/
  resv : Option LineRef := none
  /-- The deferral of R299 was used, or runs, for this reservation. -/
  lrUsed : Bool := false
  /-- Output buffer, oldest first, at most 16 entries (R257). -/
  out : List HeldStore := []
  /-- TCM undo log, newest first, at most 16 entries: TCM word offset and old word (R257). -/
  undo : List (Nat × TWord) := []
  /-- The last checkpoint (R256). -/
  ckpt : Ckpt := {}
  /-- Instructions retired since the last checkpoint (R256). -/
  since : Nat := 0
  /-- Retry triggers since the last checkpoint (R260). -/
  triggers : Nat := 0
  /-- Frozen by a pair mismatch (R341). -/
  frozen : Bool := false
  /-- Waiting in WFI (R427). -/
  waiting : Bool := false
  /-- In doze (R427). -/
  doze : Bool := false
  /-- Timebase at which the nap began (R427). -/
  napAt : Nat := 0
  /-- Halted by the debug port (R432). -/
  halted : Bool := false
  /-- Contention predictor counters of R296, 32 of 2 bits; unlisted: 0. -/
  pred : Tab Nat := []
  /-- The line that a near atomic brought in last, and when (R296). -/
  near : Option (Nat × Nat) := none
  /-- Handle cache, newest first, 32 entries (R203, R247). -/
  hcache : Tab HEntry := []
  /-- Translation caches, newest first (R221, R225). -/
  tlb : List TlbEntry := []
  /-- I-L1 lines by set × 4 + way (R261, R267). -/
  il1 : Tab L1Line := []
  /-- D-L1 lines by set × 4 + way (R261, R267). -/
  dl1 : Tab L1Line := []
  /-- Prefetcher entries, newest first, 16 (R269). -/
  pf : List PfEntry := []
  /-- Patch set in force (R250, R251, R255); none: ROM only. -/
  patch : Option PatchSet := none
  deriving DecidableEq, Repr

/-! ### Caches and coherence -/

/-- L2 line states (R286). -/
inductive LineSt where
  | S | E | O | M
  deriving DecidableEq, Repr

/-- A line of a cluster L2 or a Snowpack slice. -/
structure CLine where
  /-- Line number. -/
  line : Nat
  /-- State in an L2 (R286); in a slice `S` stands for CLEAN and `M` for DIRTY (R287). -/
  st : LineSt
  /-- Age 0 to 3 (R266). -/
  age : Nat
  /-- For a line kept across a disable (R274): in an L2 its 64 bytes and 8 tags as they stood, and whether it was written since; in an
  enabled slice, what memory below the stale copy holds. -/
  stale : Option (List Byte × List Tag) := none
  deriving DecidableEq, Repr

/-- A directory entry (R287). -/
structure DirEntry where
  /-- The L2 that holds the line in E, M (EXCL) or O (OWNED); none: SHARED. -/
  owner : Option Nat
  /-- OWNED rather than EXCL. -/
  owned : Bool
  /-- Sharers in S, by L2 mesh ID. -/
  sharers : List Nat
  /-- Recently used, for the directory's own replacement (R287). -/
  used : Bool
  deriving DecidableEq, Repr

/-- Caches and directory: which lines are held where (R261 to R292). The data itself is the one coherent image in `Mem`. -/
structure CohSt where
  /-- Cluster L2 lines by mesh ID × 2^20 + set × 16 + way. -/
  l2 : Tab CLine := []
  /-- Snowpack lines by logical slice × 2^20 + set × 16 + way. -/
  snp : Tab CLine := []
  /-- Directory entries by line number. -/
  dir : Tab DirEntry := []
  /-- Victim buffers: slice and line, oldest first (R292). -/
  victims : List (Nat × Nat) := []
  /-- LFSRs of R268 by slice (0–63) and 64 + L2 mesh ID; unlisted: seed 0xACE1. -/
  lfsr : Tab Nat := []
  /-- Deferred snoops under R299: line and core. -/
  deferred : List (Nat × Nat) := []
  /-- Scratch ways being changed by slice: new SCRWAYS (R272). -/
  scrNew : Tab Nat := []
  /-- S of R264, fixed at the end of unit self-test. -/
  slices : Nat := 0
  /-- The physical slice of each logical one (R264). -/
  slicePhys : List Nat := []
  deriving DecidableEq, Repr

/-! ### Modes, keepers and bring-up -/

/-- Mode logic, pins and straps (R22 to R25, R435 to R452). -/
structure ModeSt where
  /-- SYS_RST_N level. -/
  rstN : Bool := true
  /-- PWRGOOD level. -/
  pwrgood : Bool := true
  /-- PWR_FAIL_N level. -/
  pwrFailN : Bool := true
  /-- STRAP_PAIR as sampled (R436). DESIGN CHOICE at reset, assumption 6. -/
  strapPair : Bool := false
  /-- STRAP_SLOT[1:0] as sampled (R436). DESIGN CHOICE at reset, assumption 6. -/
  strapSlot : Nat := 0
  /-- The mode from which Recovery was entered (R24). -/
  recFrom : Option Nat := none
  /-- Recovery was entered by a SYS.MODEREQ request (R24). -/
  recReq : Bool := false
  /-- A held request to leave Recovery (R23). -/
  recHeld : Bool := false
  /-- The mode from which Maintenance was entered (R24). -/
  maintFrom : Option Nat := none
  /-- Pair self-tests in progress, by pair (R342). -/
  pairTests : List Nat := []
  /-- Keepers that passed self-test: A, B (R437). -/
  keeperOk : List Bool := [false, false]
  /-- Bring-up: fuses loaded (R437). -/
  fusesLoaded : Bool := false
  /-- Steps of R444 completed. -/
  steps : List Nat := []
  /-- BOOT.CTL.GO was accepted (R452). -/
  goDone : Bool := false
  /-- PWAIT has expired since GO (R452). -/
  pwaitDone : Bool := false
  /-- ENGIFMIN, ENGIFMAX of the manifest (R455). -/
  engif : Nat × Nat := (1, 1)
  /-- Component digests of the booted slot (R440, R446). -/
  comps : List Nat := []
  /-- Contents of the two SPI NOR flashes, slot 0 and slot 1, as they were last seen (R410, R439). -/
  flash : List (List Byte) := [[], []]
  /-- A rail left its range: Reset holds until SYS_RST_N or PWRGOOD rises again (R464). -/
  railBad : Bool := false
  /-- Timebase at which BOOT.CTL.GO was accepted (R452). -/
  goAt : Nat := 0
  /-- Timebase at which the Cirque restart in progress started (R186). -/
  restartAt : Nat := 0
  /-- Logical Cornice cores that the Cirque firmware was started on, where its image lies and where it starts (R444). -/
  cirque : List Nat × Nat × Nat := ([], 0, 0)
  /-- The root key in force: the fuse bank as it was at reset release (R443); none while the bank was blank. -/
  rootKey : Option Nat := none
  /-- Pairs in the interval retried after a mismatch that both cores passed (R342). -/
  pairRetry : List Nat := []
  /-- Pairs whose resumed core runs alone, with the time it resumed (R343). -/
  soloAt : Tab Nat := []
  /-- ALIVE pin (R354). -/
  alive : Bool := false
  /-- No rising edge any more: a level 3 record was made (R352, R354). -/
  aliveStop : Bool := false
  /-- Root key burn in progress: the key written (R443). -/
  rkBurn : Option Nat := none
  /-- MGMT cycle of the last transition that no request made, and its place in the order of R25 (R23, R25). -/
  took : Option (Nat × Nat) := none
  deriving DecidableEq, Repr

/-- Keeper state (R356 to R358). -/
structure KeeperSt where
  /-- When the hold-off of the returning keeper began (R357, R358). -/
  holdAt : Nat := 0
  /-- An active keeper runs (R437, R438). -/
  running : Bool := false
  deriving DecidableEq, Repr

/-! ### Moraine -/

/-- A Moraine log record (R353). -/
structure LogRec where
  /-- TS, 64 bits. -/
  ts : Nat
  /-- SEQ, 32 bits. -/
  seq : Nat
  /-- CLASS (R347). -/
  cls : Nat
  /-- FLAGS: level, ESC, FIRST. -/
  flags : Nat
  /-- SOURCE (R346). -/
  src : Nat
  /-- SUBCODE. -/
  sub : Nat
  /-- WORLD, 0xFFFF when none. -/
  world : Nat
  /-- CHID, 0 when none. -/
  chid : Nat
  /-- DETAIL, 64 bits. -/
  detail : Nat
  deriving DecidableEq, Repr

/-- Moraine's own state beside its registers (R349, R353). -/
structure MorSt where
  /-- On-chip FIFO, oldest first, at most 256 (R353). -/
  fifo : List LogRec := []
  /-- SEQ of the next record (R353). -/
  seq : Nat := 0
  /-- Logging stopped after a refused ring write (R353). -/
  stopped : Bool := false
  deriving DecidableEq, Repr

/-- A unit of R346: whether it is in service and whether it passed self-test (R344, R345, R445). -/
structure UnitSt where
  /-- In service. -/
  svc : Bool := false
  /-- Passed self-test and waits as a spare (R344). -/
  spare : Bool := false
  /-- Left service; never returned before the next Reset (R344). -/
  out : Bool := false
  deriving DecidableEq, Repr

/-! ### Worlds -/

/-- The HK7's record of a world that has a slot (R162 to R166). -/
structure WorldRec where
  /-- World table slot. -/
  slot : Nat := 0
  /-- 1 ACTIVE, 2 SUSPENDED, 3 REVOKING (R163). -/
  state : Nat := 1
  /-- FLAGS (R163). -/
  flags : Nat := 0
  /-- AKMASK (R163). -/
  akmask : Nat := 0
  /-- ROOT (R163). -/
  root : Nat := 0
  /-- RATE (R163). -/
  rate : Nat := 0
  /-- DEPTH (R163). -/
  depth : Nat := 0
  /-- SVCQP (R163). -/
  svcqp : Nat := 0
  /-- Tokens held (R164). -/
  tokens : Nat := 0
  /-- Fraction of a token in 1/256 (R164). -/
  frac : Nat := 0
  /-- Book of R55: FILLED at ACTIVATE, REFILLED, SPENT, REFUNDED, CAPPED. -/
  filled : Nat := 0
  /-- REFILLED (R55). -/
  refilled : Nat := 0
  /-- SPENT (R55). -/
  spent : Nat := 0
  /-- CAPPED (R55, R164). -/
  capped : Nat := 0
  /-- PAGES, as counted: what WLD.STAT shows saturates (R166). -/
  pages : Nat := 0
  /-- CNT[0:7] (R166). -/
  cnt : List Nat := [0, 0, 0, 0, 0, 0, 0, 0]
  deriving DecidableEq, Repr

/-! ### Channels and transactions -/

/-- A resident context block (R31) and the channel's books (R38, R55, R71). -/
structure Chan where
  /-- WORLD. -/
  world : Nat := 0
  /-- STATE: 0 CLOSED, 1 OPEN, 2 QUIESCING, 3 QUIESCED, 4 FAILED. -/
  state : Nat := 0
  /-- CTL PRIO. -/
  prio : Nat := 0
  /-- CTL DLNOTIFY. -/
  dlnotify : Bool := false
  /-- CTL RDOK. -/
  rdok : Bool := false
  /-- CTL WROK. -/
  wrok : Bool := false
  /-- BIND fabric port. -/
  port : Nat := 0
  /-- BIND queue pair number. -/
  qp : Nat := 0
  /-- CRPVER, 0 before negotiation. -/
  crpver : Nat := 0
  /-- SEGSHIFT. -/
  segshift : Nat := 12
  /-- SUBCRED. -/
  subcred : Nat := 0
  /-- PROGBASE. -/
  progbase : Nat := 0
  /-- PROGLEN. -/
  proglen : Nat := 0
  /-- DLDEF. -/
  dldef : Nat := 0
  /-- KERNEL[0:3]. -/
  kernel : List Nat := [0, 0, 0, 0]
  /-- CMPPROF[0:1]. -/
  cmpprof : List Nat := [0, 0]
  /-- CIPPROF, 128 bits. -/
  cipprof : Nat := 0
  /-- TGT PCIe port. -/
  tgtPort : Nat := 0
  /-- TGT LBA shift (9 to 12). -/
  lbaShift : Nat := 9
  /-- TGT NVMe namespace ID. -/
  nsid : Nat := 0
  /-- TGTBASE. -/
  tgtbase : Nat := 0
  /-- TGTLIMIT. -/
  tgtlimit : Nat := 0
  /-- SEQHI. -/
  seqhi : Nat := 0
  /-- WINMAP: the accepted numbers of the window SEQHI − 1,023 to SEQHI; bit s mod 1,024 of the stored map (assumption 30). -/
  winmap : Nat := 0
  /-- BOOK [15:0]: transactions in flight. -/
  inflight : Nat := 0
  /-- BOOK [31:16]: credits available. -/
  avail : Nat := 0
  /-- STATS: ended OK, ended otherwise, bytes in, bytes out, NOBUF losses, deadline expiries. -/
  stats : List Nat := [0, 0, 0, 0, 0, 0]
  /-- Changed since it was loaded or written back (R30). -/
  dirty : Bool := false
  /-- Time of last use, for the replacement of R30. -/
  lastUse : Nat := 0
  /-- QUIESCE, or CLOSE, was given while an exchange or drain runs: the state to take when BOOK reaches 0 (R32). -/
  quiesceTo : Option Nat := none
  /-- Replay waits for HELLO since this time (R91). -/
  replayWait : Option Nat := none
  deriving DecidableEq, Repr

/-- Transaction states (R78). -/
inductive TxSt where
  | queued | admitted | intent | accepted | decided | done
  deriving DecidableEq, Repr

/-- What a parked or queued transaction waits for (R27, R37, R54, R51). -/
inductive TxWait where
  | none | tokens | engine | nobuf | noslot | ack | flush | link | io | fetches | client
  deriving DecidableEq, Repr

/-- A data command of a segment (R40, R41). -/
inductive SegOp where
  | fetch
  | deliver
  | kernel (att : Nat) (param : Nat)
  | compress (prof : Nat)
  | inflate (prof : Nat)
  | seal
  | unseal
  | stwrite
  | stread (lbas : Nat)
  /-- A LOAD job of the zeroing class (R126). -/
  | loadz
  /-- A segment of a load in the held class goes to its pages (R126). -/
  | copy
  deriving DecidableEq, Repr

/-- One segment of a transaction: its buffers and the commands issued for it that have not ended (R40). -/
structure Seg where
  /-- Buffers that hold the segment's current data, in order. -/
  chain : List Nat := []
  /-- Bytes of data in the chain. -/
  len : Nat := 0
  /-- Commands issued and not ended, oldest first; the first runs. -/
  ops : List SegOp := []
  /-- The first command of `ops` has been started. -/
  running : Bool := false
  /-- Output chain already granted for the running command (R146, R101). -/
  outChain : List Nat := []
  /-- STLEN: bytes stored in the slot (R99). -/
  stlen : Nat := 0
  /-- Commands ended since the segment's last FETCH or STREAD, that one included: what a run again repeats (R123). -/
  did : List SegOp := []
  /-- The kernel returned 0 bytes: later SEG commands do nothing (R150). -/
  empty : Bool := false
  /-- Client data bytes fetched, for digest and record (R82, R83). -/
  fetched : Bool := false
  /-- Floe core that ran the segment, for the placement of R156. -/
  core : Option Nat := none
  /-- A core fault already made it run again (R154). -/
  rerun : Bool := false
  /-- The chain was spilled: spill slots by chain position (R15). -/
  spilled : List (Nat × Nat) := []
  /-- Time the chain began to wait for its next stage (R15). -/
  since : Nat := 0
  /-- The segment descriptor of R99, as stored or as read. -/
  desc : Nat := 0
  /-- The cipher record of R115, 32 bytes, as SEAL returned it or as read. -/
  record : List Byte := []
  /-- Its cipher core faulted while no other cipher core was in service (R128). -/
  rime : Bool := false
  /-- A job, kernel, storage or RDMA operation holds the chains: they are released when it ends. -/
  busy : Bool := false
  /-- The chain stands in the input queue of a stage that has not taken it yet: it still waits for that stage (R14, R15). -/
  queued : Bool := false
  /-- KERNEL commands of the segment that were given to the Floe array: a transaction's are given in segment order (R40). -/
  kgiven : Nat := 0
  deriving DecidableEq, Repr

/-- A transaction in any state before ENDED (R78). -/
structure Txn where
  /-- Channel. -/
  chid : Nat := 0
  /-- World. -/
  world : Nat := 0
  /-- Priority. -/
  prio : Nat := 0
  /-- Sequence number. -/
  seq : Nat := 0
  /-- Write rather than read. -/
  write : Bool := true
  /-- OFFSET. -/
  offset : Nat := 0
  /-- LENGTH. -/
  length : Nat := 0
  /-- RADDR. -/
  raddr : Nat := 0
  /-- RKEY. -/
  rkey : Nat := 0
  /-- CTAG. -/
  ctag : Nat := 0
  /-- INLINE data. -/
  inline : Option (List Byte) := none
  /-- CRP version at SUBMIT. -/
  ver : Nat := 1
  /-- Queue pair key (port × 2^24 + number) it arrived on. -/
  qp : Nat := 0
  /-- State. -/
  st : TxSt := .queued
  /-- What it waits for. -/
  wait : TxWait := .none
  /-- Absolute deadline in ns, 0 for none (R48). -/
  deadline : Nat := 0
  /-- Deadline already in a wheel bucket rather than the overflow list (R49). -/
  inWheel : Bool := false
  /-- Engine (R39). -/
  engine : Option Nat := none
  /-- Next command index (R41). -/
  idx : Nat := 0
  /-- Commands executed for the current segment (R43). -/
  count : Nat := 0
  /-- Current segment (R40). -/
  seg : Nat := 0
  /-- Segments by index. -/
  segs : Tab Seg := []
  /-- Buffers reserved and not yet used (R41 RESERVE). -/
  bufs : List Nat := []
  /-- Journal slots: head first (R80). -/
  slots : List Nat := []
  /-- JSN of its record (R80). -/
  jsn : Nat := 0
  /-- INTENT has completed (R43). -/
  intentOk : Bool := false
  /-- ACCEPT has been sent (R43). -/
  acceptSent : Bool := false
  /-- TSACC (R80). -/
  tsacc : Nat := 0
  /-- First final status decided (R46). -/
  status : Option Nat := none
  /-- A storage write or DELIVER was issued (R50). -/
  issued : Bool := false
  /-- Storage and RDMA operations outstanding (R50). -/
  outstanding : Nat := 0
  /-- What the ASYNC RESERVE, INTENT and DIGEST commands that have not ended wait for (R40, R41 WAITIO). -/
  bg : List TxWait := []
  /-- BYTES of COMPLETE (R67). -/
  bytes : Nat := 0
  /-- Replayed (R90). -/
  replayed : Bool := false
  /-- DATA flag of the record (R82). -/
  dataFlag : Bool := false
  /-- DIGESTED flag (R82). -/
  digested : Bool := false
  /-- DIGEST value (R83). -/
  digest : Nat := 0
  /-- KEPOCH (R80). -/
  kepoch : Nat := 0
  /-- Fetched client data in offset order, for record and digest (R82, R83). -/
  data : List Byte := []
  /-- Segments whose FETCH has ended (R82). -/
  fetchedSegs : Nat := 0
  /-- A non-ASYNC command runs on this segment; none while WAITIO waits (R40, R41). -/
  sync : Option Nat := none
  /-- Journal writes to the namespaces not yet completed, while INTENT waits for them (R84). -/
  jpend : Nat := 0
  /-- Virtual channel and flit count that must have left the module before the transaction goes on (R81, R82). -/
  linkAt : Nat × Nat := (0, 0)
  /-- Its record lies in the mirror ring: it was adopted (R332). -/
  inMirror : Bool := false
  /-- Timebase when the outcome was decided (R67, R80). -/
  tsout : Nat := 0
  /-- Decided before ACCEPT: COMPLETE carries PREACC (R67). -/
  preacc : Bool := false
  /-- Repeats of its SUBMIT that came after DONE while its COMPLETE may not leave yet: each is answered with it (R69, R81). -/
  again : Nat := 0
  /-- Runs at the load descriptor at this address (R171). -/
  load : Option Nat := none
  /-- Destination virtual address, physical pages, TAG of a load, and whether it froze its pages (R126, R171). -/
  dest : Nat × List Nat × Nat × Bool := (0, [], 0, false)
  /-- Pages of a load that met an uncorrectable memory error while frozen (R178). -/
  ue : List Nat := []
  /-- Tokens charged at admission (R37). -/
  charged : Bool := false
  deriving DecidableEq, Repr

/-- What a service request asks of the Cirque firmware, with what the firmware itself brings to it: the image that its RDMA READ
found and where it places it, the place of a load descriptor, or its own administrative answer (R169, R171). -/
inductive SvcWork where
  | query
  | kload (image : List Byte) (kid codebase faultlim : Nat)
  | kretire
  | load (desc prio tag : Nat)
  | admin (reply : List Byte)
  deriving DecidableEq, Repr

/-- A client message that waits at the dispatcher for its channel's context block (R30). -/
structure CtxWait where
  /-- Queue pair key (port × 2^24 + number). -/
  qp : Nat
  /-- Timebase at which the dispatcher took it (R48). -/
  at_ : Nat
  /-- Number that the transaction of a SUBMIT will have: it is QUEUED already (R37, R50). -/
  num : Nat
  /-- The message. -/
  bytes : List Byte
  deriving DecidableEq, Repr

/-- A service request or the reply to one (R169, R170). -/
structure Svc where
  /-- Queue pair. -/
  qp : Nat
  /-- When the request's last bit reached the port. -/
  at_ : Nat
  /-- The request's bytes, or the reply's. -/
  bytes : List Byte
  /-- A request that the Cirque firmware has not served: it waits for the end of a restart (R186). -/
  work : Option SvcWork := none
  /-- A reply that waits for the end of the load with this descriptor. -/
  load : Option Nat := none
  deriving DecidableEq, Repr

/-- A request sent on a queue pair and not yet acknowledged (R398). -/
structure RdmaReq where
  /-- Its first packet sequence number. -/
  psn : Nat
  /-- The packet sequence numbers it takes. -/
  n : Nat
  /-- 0 SEND, 1 RDMA READ, 2 RDMA WRITE. -/
  kind : Nat
  /-- Transaction of a READ or WRITE. -/
  txn : Nat := 0
  /-- Segment of a READ or WRITE. -/
  seg : Nat := 0
  /-- Bytes of a READ that have arrived. -/
  got : List Byte := []
  /-- Bytes it moves. -/
  len : Nat := 0
  deriving DecidableEq, Repr

/-- Queue pair state of a fabric port (R397, R398, R75). -/
structure Qp where
  /-- World bound at creation. -/
  world : Nat := 0
  /-- Channel bound, or none for a service queue pair (R168). -/
  chid : Option Nat := none
  /-- STATE: 0 RESET, 1 INIT, 2 RTR, 3 RTS, 4 ERROR (R397). -/
  state : Nat := 0
  /-- Context words as loaded (R397). -/
  ctx : List Nat := []
  /-- CRP version agreed on this connection (R64); 0 before. -/
  ver : Nat := 0
  /-- Unanswered PINGs (R75). -/
  misses : Nat := 0
  /-- Timebase at its last message from the client (R75). -/
  lastAt : Nat := 0
  /-- Timebase at the last PING sent on it (R75). -/
  pingAt : Nat := 0
  /-- CREDMAX (R60). -/
  credmax : Nat := 0
  /-- Expected packet sequence number of the responder (R398). -/
  epsn : Nat := 0
  /-- Next packet sequence number of the requester (R398). -/
  npsn : Nat := 0
  /-- Requests not yet acknowledged, oldest first. -/
  unacked : List RdmaReq := []
  /-- Retries since the last progress (R398). -/
  retries : Nat := 0
  /-- Receiver-not-ready retries (R398). -/
  rnr : Nat := 0
  /-- Waiting out an RNR NAK (R398). -/
  rnrWait : Bool := false
  /-- Send rate in bit/s (R399). -/
  rate : Nat := 0
  /-- Time of the last notification received, or of the last rise of the rate (R399). -/
  rateAt : Nat := 0
  /-- Time of the last congestion notification sent (R399). -/
  cnpAt : Option Nat := none
  /-- The packets of the message being received (R59). -/
  inbox : List Byte := []
  deriving DecidableEq, Repr

/-! ### Stage jobs -/

/-- Which segment of which transaction a job serves. -/
structure SegRef where
  /-- Transaction. -/
  txn : Nat
  /-- Segment index. -/
  seg : Nat
  deriving DecidableEq, Repr

/-- Weighted round robin position of a scheduler: turns left for priorities 1, 2, 3 (R39, R102). -/
structure Wrr where
  /-- Turns left for priority 1. -/
  t1 : Nat := 0
  /-- Turns left for priority 2. -/
  t2 : Nat := 0
  /-- Turns left for priority 3. -/
  t3 : Nat := 0
  deriving DecidableEq, Repr

/-- A scrub of buffers to zero: what it releases at its end, and what follows (R110, R123). -/
structure Scrub where
  /-- Transaction and segment that held the buffers. -/
  ref : SegRef
  /-- Buffers to scrub and release. -/
  bufs : List Nat
  /-- Buffers to release with them, as they are: the input of a failed decode. -/
  also : List Nat := []
  /-- Compression decode failure subcode: INTEGRITY and CMP.DECODE at the end; 0 for any other scrub (R110). -/
  decode : Nat := 0
  /-- Moraine source of the engine that found the failure (R110). -/
  src : Nat := 0
  /-- The segment runs again from its FETCH or STREAD (R123). -/
  rerun : Bool := false
  deriving DecidableEq, Repr

/-- A compression job (R101): its descriptor fields and progress (R105, R107). -/
structure CmpJob where
  /-- Transaction and segment. -/
  ref : SegRef
  /-- INFLATE rather than COMPRESS. -/
  inflate : Bool
  /-- PRIO. -/
  prio : Nat
  /-- ISSUER. -/
  issuer : Nat
  /-- JOB. -/
  job : Nat
  /-- WORLD. -/
  world : Nat
  /-- PROFILE. -/
  profile : Nat
  /-- INLEN. -/
  inlen : Nat
  /-- EXPLEN. -/
  explen : Nat
  /-- CHID. -/
  chid : Nat
  /-- Input chain. -/
  inChain : List Nat
  /-- Output chain (OUTHEAD, OUTCNT). -/
  outChain : List Nat
  /-- FORM from the segment descriptor. -/
  form : Nat
  /-- FORMAT from the segment descriptor. -/
  format : Nat
  /-- SIG of the segment descriptor was valid (R110). -/
  sigOk : Bool := true
  /-- Engine that runs it; none while queued or suspended. -/
  engine : Option Nat := none
  /-- Suspended with a save slot (R105). -/
  saved : Bool := false
  /-- Waits for an extension (R104). -/
  waitExt : Bool := false
  /-- An extension request was refused and is presented again (R104). -/
  extPending : Bool := false
  /-- Window log of a COMPRESS (R97). -/
  wlog : Nat := 15
  /-- Blocks that a COMPRESS has encoded: it stands at the boundary after them (R104, R107). -/
  blocks : Nat := 0
  /-- Blocks before which it was resumed; a resumed COMPRESS may form another frame (R108). -/
  cuts : List Nat := []
  /-- A save write failed its check: the job runs to its end on its engine (R106). -/
  pinned : Bool := false
  /-- Engine whose fault ended it: another one takes it while there is one (R112). -/
  avoid : Option Nat := none
  deriving DecidableEq, Repr

/-- A cipher job (R120). -/
structure CipJob where
  /-- Transaction and segment. -/
  ref : SegRef
  /-- 1 SEAL, 2 UNSEAL, 3 LOAD. -/
  op : Nat
  /-- PRIO. -/
  prio : Nat
  /-- ISSUER. -/
  issuer : Nat
  /-- JOB. -/
  job : Nat
  /-- WORLD. -/
  world : Nat
  /-- PROFILE. -/
  profile : Nat
  /-- Buffers of the segment. -/
  chain : List Nat
  /-- LEN. -/
  len : Nat
  /-- LBA. -/
  lba : Nat
  /-- NSID. -/
  nsid : Nat
  /-- SDESC. -/
  sdesc : Nat
  /-- DEST. -/
  dest : Nat := 0
  /-- RECORD as read, 32 bytes. -/
  record : List Byte := []
  /-- Core that runs it: 0–23, or 24 the Rime core. -/
  core : Option Nat := none
  /-- IV issued (R117): PFX, SUB and TS as one 96-bit number. -/
  iv : Option Nat := none
  /-- Epoch of its key request, once made. -/
  epoch : Option Nat := none
  /-- Key obtained (R132, R136); keys are 512-bit numbers. -/
  key : Option Nat := none
  /-- Key request outstanding. -/
  asked : Bool := false
  /-- The record's MODE differs from the profile's (R124). -/
  modeBad : Bool := false
  /-- Suspended in the scheduler's store (R122). -/
  saved : Bool := false
  /-- It obtained its key before it was suspended: an epoch that has become invalid since does not take the key (R136). -/
  kept : Bool := false
  /-- Its segment's cipher core faulted while no other was in service: the Rime core takes it (R128). -/
  rime : Bool := false
  deriving DecidableEq, Repr

/-- A key cache entry (R132): label, mode and key. -/
structure KeyEntry where
  /-- 128-bit label (R129). -/
  label : Nat
  /-- Mode. -/
  mode : Nat
  /-- Key. -/
  key : Nat
  /-- Use bit (R132). -/
  used : Bool
  /-- Valid; cleared by a sweep (R139). -/
  valid : Bool := true
  /-- An uncorrectable ECC error stands in it: the lookup that finds it invalidates it and misses (R132). -/
  ecc : Bool := false
  deriving DecidableEq, Repr

/-- A derivation in progress (R130, R132, R133). -/
structure Deriv where
  /-- Label. -/
  label : Nat
  /-- Mode. -/
  mode : Nat
  /-- World. -/
  world : Nat
  /-- Revoked since it started: to be discarded (R133). -/
  dead : Bool
  /-- Jobs that wait for it (ids). -/
  waiters : List Nat
  deriving DecidableEq, Repr

/-- Cipher scheduler and key derivation state (R117, R122, R132, R139). -/
structure CipSt where
  /-- Jobs by id. -/
  jobs : Tab CipJob := []
  /-- Arrival order of waiting job ids, suspended ones at the head of their priority. -/
  queue : List Nat := []
  /-- Next job id. -/
  next : Nat := 0
  /-- The first IV since reset has not been issued (R117). -/
  ivFirst : Bool := true
  /-- last_ts (R117). -/
  lastTs : Nat := 0
  /-- last_sub (R117). -/
  lastSub : Nat := 0
  /-- Key cache by set × 8 + way (R132). -/
  cache : Tab KeyEntry := []
  /-- Derivations in progress, in request order. -/
  derivs : List Deriv := []
  /-- Revocation filter: worlds whose bit is set (R139). -/
  revoked : List Nat := []
  /-- Worlds whose sweep runs, oldest first (R139). -/
  sweep : List Nat := []
  /-- Weighted round robin of R121. -/
  wrr : Wrr := {}
  /-- HELD buffers (R124, R125). -/
  held : List Nat := []
  deriving DecidableEq, Repr

/-- Compression scheduler state (R101 to R112). -/
structure CmpSt where
  /-- Jobs by id. -/
  jobs : Tab CmpJob := []
  /-- Arrival order of waiting job ids. -/
  queue : List Nat := []
  /-- Next job id. -/
  next : Nat := 0
  /-- CMP.SAVEBASE was written since reset release (R106). -/
  saveSet : Bool := false
  /-- Weighted round robin of R102. -/
  wrr : Wrr := {}
  deriving DecidableEq, Repr

/-- A kernel segment at the loader or on a core (R146 to R157). -/
structure KSeg where
  /-- Transaction and segment. -/
  ref : SegRef
  /-- Channel. -/
  chid : Nat
  /-- Attachment index. -/
  att : Nat
  /-- Attachment word it runs under (R160). -/
  word : Nat
  /-- World. -/
  world : Nat
  /-- PRIO. -/
  prio : Nat
  /-- C operand. -/
  param : Nat
  /-- Input chain. -/
  inChain : List Nat
  /-- Segment length in bytes. -/
  inLen : Nat
  /-- Output chain. -/
  outChain : List Nat
  /-- Core that runs it (physical). -/
  core : Option Nat := none
  /-- Held by an exchange (R160). -/
  held : Bool := false
  /-- Offsets of 64-byte lines of OUT that were written (R150). -/
  written : List Nat := []
  /-- Ran once before on a core that failed (R154). -/
  rerun : Bool := false
  deriving DecidableEq, Repr

/-- Segment loader state (R156, R160). -/
structure FloSt where
  /-- Segments by id, in loader arrival order of ids. -/
  segs : Tab KSeg := []
  /-- Next id. -/
  next : Nat := 0
  /-- Window and work entries by handle index (R147). -/
  windows : Tab HEntry := []
  /-- Round robin of R156. -/
  wrr : Wrr := {}
  deriving DecidableEq, Repr

/-- What a Névé request is for (R41, R52, R104). -/
inductive BufFor where
  /-- RESERVE, or the input buffers of a FETCH or STREAD (R41). -/
  | reserve (txn : Nat)
  /-- The output chain of a segment's running command (R101, R146). -/
  | out (txn seg : Nat)
  /-- An extension of a compression job (R104). -/
  | ext (job : Nat)
  /-- A spill read-back (R15). -/
  | back (txn seg : Nat)
  deriving DecidableEq, Repr

/-- A request to the Névé allocator (R52). -/
structure BufReq where
  /-- Requester index (R52). -/
  idx : Nat
  /-- Priority. -/
  prio : Nat
  /-- Buffers asked for, 1 to 256. -/
  n : Nat
  /-- World, for its NOBUF count. -/
  world : Nat
  /-- What for. -/
  why : BufFor
  deriving DecidableEq, Repr

/-- The Névé pool (R14 to R17, R52 to R54). -/
structure NeveSt where
  /-- Buffers in use with their holders' kind; a buffer not listed is free. -/
  used : Tab Nat := []
  /-- Contents by buffer number; bytes beyond the list read 0. -/
  data : Tab (List Byte) := []
  /-- Spill slots in use (R15). -/
  slots : List Nat := []
  /-- Spilling disabled after a refused spill write (R17). -/
  spillOff : Bool := false
  /-- Requests not yet decided, in order of arrival (R52). -/
  reqs : List BufReq := []
  /-- Requests that received NOBUF and will be presented again (R54). -/
  refused : List BufReq := []
  /-- Segments whose spill found no free slot: stage that waits to receive the segment, transaction and segment (R16). -/
  stalls : List (Nat × Nat × Nat) := []
  /-- Words that a poisoned transfer wrote: buffer × 512 + word (R198, R406). -/
  bad : List Nat := []
  deriving DecidableEq, Repr

/-! ### Partner link -/

/-- A sequenced flit as its sender keeps it (R316, R317). -/
structure PlkFlit where
  /-- FSEQ. -/
  seq : Nat
  /-- VCF. -/
  vcf : Nat
  /-- The 240 payload bytes. -/
  payload : List Byte
  deriving DecidableEq, Repr

/-- Partner link, pairing, mirror copy and return (R315 to R336). -/
structure PlkSt where
  /-- PTN_PRES_N is low: the partner is fitted (R315). DESIGN CHOICE at reset, assumption 6. -/
  present : Bool := false
  /-- A HELLO has been received in this training (R323). -/
  helloSeen : Bool := false
  /-- Flits sent and not acknowledged, oldest first, at most 512 (R317). -/
  replay : List PlkFlit := []
  /-- FSEQ of the next new flit (R317). -/
  nextSeq : Nat := 0
  /-- The receiver's expected number E (R317). -/
  expect : Nat := 0
  /-- The NAK for the present gap has been sent (R317). -/
  nakSent : Bool := false
  /-- Flits taken since ACKSEQ was last returned (R317). -/
  sinceAck : Nat := 0
  /-- Replays without acknowledgement progress (R318). -/
  replays : Nat := 0
  /-- Credits available by virtual channel (R319). -/
  credits : List Nat := [128, 1024, 256, 64]
  /-- Credits to return by virtual channel (R319). -/
  owed : List Nat := [0, 0, 0, 0]
  /-- Flits enqueued so far by virtual channel. -/
  queued : List Nat := [0, 0, 0, 0]
  /-- Flits sent for the first time so far by virtual channel. -/
  sent : List Nat := [0, 0, 0, 0]
  /-- Slot indices marked in use in the free list by the partner's copy (R334). -/
  marked : List Nat := []
  /-- Flits that wait for a credit or a replay buffer place, by virtual channel (R319). -/
  waiting : List (List PlkFlit) := [[], [], [], []]
  /-- The message being received on each virtual channel, and its flits so far (R319, R320). -/
  rx : List (List Byte × Nat) := [([], 0), ([], 0), ([], 0), ([], 0)]
  /-- Whole messages received and not yet consumed, by virtual channel, with their flit counts (R319). -/
  inbox : List (List (List Byte × Nat)) := [[], [], [], []]
  /-- Time of the last valid HEARTBEAT (R326); none before the first. -/
  lastHb : Option Nat := none
  /-- MODE of the partner, as last heard (R326, R327). -/
  pMode : Nat := 0
  /-- SERVE of the partner, as last heard. -/
  pServe : Nat := 0
  /-- SLOT of the partner (R323). -/
  pSlot : Nat := 1
  /-- SERNO of the partner (R323), for its reservation key (R331). -/
  pSerno : Nat := 0
  /-- Witness buses on which the partner was heard since the last HEARTBEAT (R327). -/
  heard : List Nat := []
  /-- Witness buses on which a due frame has not come since the last HEARTBEAT (R327). -/
  missed : List Nat := []
  /-- Judgement of R327: true alive, false silent; none while the module waits. -/
  judged : Option Bool := none
  /-- The module stands in the last row of the decision table (R328, R330). -/
  lastRow : Bool := false
  /-- Shared namespaces on which this module is registered, with the claim in the key (R331). -/
  regd : Tab Nat := []
  /-- Shared namespaces whose registration and acquisition have completed for the present claim (R331). -/
  acquired : List Nat := []
  /-- Reservation commands outstanding: PLK.SHNS index and step (1 Replace, 2 Register, 3 Acquire, 4 Preempt) (R331). -/
  resCmds : List (Nat × Nat) := []
  /-- A Reservation Conflict has closed the gate (R486). -/
  conflict : Bool := false
  /-- The preempts of a take-over that have not completed, by PLK.SHNS index (R332). -/
  preempts : List Nat := []
  /-- Slots of a resynchronisation still to be sent, in JSN order (R334). -/
  resyncLeft : List Nat := []
  /-- RESYNCDONE has been sent since pairing (R334, R335). -/
  resyncSent : Bool := false
  /-- Mirrored records of the partner: JSN to head slot and slot count, in the mirror ring (R320). -/
  mirror : Tab (Nat × Nat) := []
  /-- Mirror-ring slots that hold adopted records (R332, R334). -/
  adopted : List Nat := []
  /-- Segments whose channels' sequence states are rebuilt before they take a SUBMIT (R89). -/
  rebuild : List Nat := []
  /-- Channels of those segments that have been rebuilt (R89). -/
  rebuilt : List Nat := []
  /-- Segment being handed back: admission stopped (R335 step 2). -/
  returning : Option Nat := none
  /-- FEC codeword lock has been gained in this training (R323). -/
  fec : Bool := false
  /-- This module was FORCEd to declare partner loss and has not paired since (R328, R336). -/
  forced : Bool := false
  /-- The partner's claim has been heard: a key of its own is known (R331, R332). -/
  known : Bool := false
  /-- When the resynchronisation of this pairing was done, from which HOLD counts (R335). -/
  doneAt : Nat := 0
  /-- When admission for the returning segment stopped (R335). -/
  returnAt : Nat := 0
  /-- PLK.CMD RETURN was accepted (R335). -/
  returnAsked : Bool := false
  /-- HANDBACK sent and not acknowledged (R335 step 4, R336). -/
  handbackSent : Bool := false
  /-- One-way link delay measured at training, in ns (R361). -/
  delay : Nat := 0
  deriving DecidableEq, Repr

/-! ### Timebase, Sastrugi and control I/O -/

/-- The servo (R361 to R363). -/
structure ServoSt where
  /-- Frequency estimate ff. -/
  ff : Int := 0
  /-- The 32-bit accumulator of R362. -/
  acc : Nat := 0
  /-- Consecutive accepted samples with |e| ≤ 100 ns. -/
  good : Nat := 0
  /-- Consecutive rejected samples. -/
  rejected : Nat := 0
  /-- Time of the last sample. -/
  last : Option Nat := none
  /-- The step of R360 has been taken in this Thaw. -/
  stepped : Bool := false
  /-- Sum and number of HEARTBEAT errors toward the next partner sample (R361). -/
  hbSum : Int := 0
  /-- Their number. -/
  hbCount : Nat := 0
  /-- TREF_10M is the TIME clock reference (R361). -/
  tref : Bool := false
  /-- Level of TPPS_OUT (R365). -/
  ppsOut : Bool := false
  deriving DecidableEq, Repr

/-- What a partner witness frame changed, as it stood before the frame, to take the frame back when it turns out a victim (R327, R373). -/
structure WitOld where
  /-- PLK.CLAIM.PARTNER. -/
  claim : Nat
  /-- The partner's mode. -/
  mode : Nat
  /-- The segments it serves. -/
  serve : Nat
  /-- Its claim was known. -/
  known : Bool
  /-- The buses it was heard on. -/
  heard : List Nat
  /-- The bus's last witness frame reported Standby. -/
  standby : Bool
  deriving DecidableEq, Repr

/-- A frame heard in the cycle in progress (R367 to R373). -/
structure SasFrame where
  /-- Slot 1–60; 61 the join slot, 0 the witness slot. -/
  slot : Nat
  /-- Offset d in ns. -/
  d : Int
  /-- The 28 frame bytes. -/
  bytes : List Byte
  /-- CRC checks. -/
  crcOk : Bool
  /-- Discarded as offender or victim (R372, R373). -/
  discarded : Bool
  /-- DISC of the slot before the frame, to leave it unchanged when the frame turns out a victim (R373). -/
  oldDisc : Nat
  /-- The slot's queued correction before the frame. -/
  oldCorr : Option Int
  /-- SAS.SLOT.DRIFT before the frame. -/
  oldDrift : Bool := false
  /-- Of a witness frame: what it changed, as it stood before. -/
  oldWit : Option WitOld := none
  deriving DecidableEq, Repr

/-- A Sastrugi bus (R367 to R378). -/
structure SasBus where
  /-- Cycle number c of the cycle in progress. -/
  cycle : Nat := 0
  /-- Timebase at the start of the cycle. -/
  start : Nat := 0
  /-- A cycle has started since reset. -/
  running : Bool := false
  /-- This module sent the beacon of the cycle. -/
  sent : Bool := false
  /-- A valid beacon of another module came in the cycle. -/
  heardBeacon : Bool := false
  /-- The last partner witness frame on the bus reported Standby (R330). -/
  pStandby : Bool := false
  /-- A beacon with a winning claim was heard in the cycle (R330). -/
  winningHeard : Bool := false
  /-- Frames heard in the cycle, oldest first. -/
  frames : List SasFrame := []
  /-- Corrections queued by slot, in bit times (R374). -/
  corr : Tab Int := []
  /-- Notices waiting: slot to 1 SUSPEND or 2 FREE (R373). -/
  notices : Tab Nat := []
  /-- The answer to a JOIN for the next beacon: slot, result, correction, UID (R375). -/
  grant : Option (Nat × Nat × Int × Nat) := none
  /-- JOIN frames taken in this cycle: offset and UID. -/
  joins : List (Int × Nat) := []
  /-- Queue of SAS.CMDQ, oldest first, at most 64 (R376). -/
  cmdq : List Nat := []
  /-- Last MSEQ taken from the mailbox (R378). -/
  mseq : Nat := 0
  /-- Mailbox entries taken and not yet sent, 8 bytes each. -/
  mbox : List (List Byte) := []
  /-- Consecutive cycles without a valid frame by slot (R373). -/
  idle : Tab Nat := []
  /-- The record kept back while the loop of the TCM core is held (R391): its bytes. -/
  heldRec : Option (List Byte) := none
  deriving DecidableEq, Repr

/-- A control pin channel beside its registers (R381 to R391). -/
structure CioSt where
  /-- Capture FIFO, oldest first: timestamp and direction (1 rising, 2 falling), at most 4. -/
  fifo : List (Nat × Nat) := []
  /-- Filtered pin level. -/
  pin : Bool := false
  /-- Level that the output stage asks for. -/
  level : Bool := false
  /-- PWM value written and not yet in effect: PERIOD and HIGH (R383). -/
  pwmNext : Option (Nat × Nat) := none
  /-- PWM value in effect: PERIOD and HIGH (R383). -/
  pwmNow : Nat × Nat := (0, 0)
  /-- SEQ of the channel record (R386). -/
  seq : Nat := 0
  /-- CMPF held back by a loop hold (R391). -/
  heldCmp : Bool := false
  /-- TMRF held back by a loop hold (R391). -/
  heldTmr : Bool := false
  deriving DecidableEq, Repr

/-- A loop handshake (R390). -/
structure LoopSt where
  /-- Request number last used. -/
  req : Nat := 0
  /-- OP of the handshake in progress: 1 EXCHANGE, 2 HOLD. -/
  op : Nat := 0
  /-- Time of step 1. -/
  since : Nat := 0
  deriving DecidableEq, Repr

/-! ### Interrupts and outputs -/

/-- A Cirque interrupt with what it carries (R236). -/
inductive Irq where
  /-- Channel interrupt: NOTIFY with code and value (R41), or a deadline expiry under DLNOTIFY (R50). -/
  | channel (chid code value : Nat)
  /-- Kernel interrupt (R153, R342): KID and world. -/
  | kernel (kid world : Nat)
  /-- Load interrupt: TAG (R171). -/
  | load (tag : Nat)
  /-- Any other line by its code (R236), with a detail word. -/
  | line (code detail : Nat)
  deriving DecidableEq, Repr

/-- What the block sends to the outside. -/
inductive Out where
  /-- A CRP message on a queue pair, byte by byte (R61 to R67). -/
  | crp (qp : Nat) (bytes : List Byte)
  /-- An NVMe command on a PCIe port: tag, kind of `NvmeCmd`, namespace, first LBA, length in bytes, and whether it goes with PRACT 1 and PRCHK 0b111
  (R404, R405). -/
  | nvme (port tag kind nsid lba n : Nat) (pi : Bool)
  /-- The 128-bit Host Identifier given to a controller of a port (R404). -/
  | hostId (port ctrl id : Nat)
  /-- An Abort of an NVMe command (R51). -/
  | nvmeAbort (port tag : Nat)
  /-- An RDMA READ request of a transaction's segment: remote address, key and length (R41 FETCH). -/
  | rdmaRead (qp raddr rkey len : Nat)
  /-- An RDMA WRITE of a transaction's segment (R41 DELIVER). -/
  | rdmaWrite (qp raddr rkey : Nat) (bytes : List Byte)
  /-- A service reply (R169, R170). -/
  | svcReply (qp : Nat) (bytes : List Byte)
  /-- A partner link flit (R316). -/
  | flit (bytes : List Byte)
  /-- A Sastrugi frame on a bus, with the nominal time of its start (R370, R371). -/
  | sas (bus start : Nat) (bytes : List Byte)
  /-- A level on an output pin: 1 ALIVE, 2 TPPS_OUT, 3 THERM_TRIP_N, 4 PCI_PERST_N of a port, 5 CIO of a channel (2 for high impedance) (R354, R365, R380, R459, R472). -/
  | pin (which index level : Nat)
  /-- An Ethernet frame that the port itself sends: kind 2 gratuitous announcement of an address entry, 3 congestion notification to a queue pair, 5 PFC XOFF, 6 PFC XON of a priority, 7 ARP or neighbour discovery answer of an address entry, 8 PTP event message with its sequence ID (R395 to R400). -/
  | eth (port kind arg : Nat)
  /-- A received frame handed to the Cirque firmware, with its receive timestamp: kind 1 ARP, 2 neighbour discovery, 3 ICMP, 4 PTP, 5 RoCEv2 to QPN 1 (R396, R400). -/
  | toFirmware (port kind time : Nat) (bytes : List Byte)
  /-- A message of a world handed to the service endpoint of the firmware (R168, R396). -/
  | toService (qp : Nat) (bytes : List Byte)
  /-- An answer of the RoCEv2 responder: kind 0 ACK, with the receive credits as arg, 1 RNR NAK, with the timer code, 2 NAK, with its code (R397, R398). -/
  | ack (qp kind psn arg : Nat)
  /-- A message of the Cirque mailbox delivered to the firmware (R320). -/
  | mail (bytes : List Byte)
  /-- A RoCEv2 resend from the oldest unacknowledged number (R398). -/
  | resend (qp psn : Nat)
  /-- An answer to a management controller access (R409). -/
  | bmc (bytes : List Byte)
  /-- A PMBus write of VOUT_COMMAND: the regulator's address and the set point in mV (R463). -/
  | vout (addr mv : Nat)
  /-- A JTAG capture of a data register (R412, R430). -/
  | jtag (v : Nat)
  /-- A refused inbound PCIe request (Unsupported Request), or the data of an accepted read (R406). -/
  | pcie (port : Nat) (ok : Bool) (bytes : List Byte)
  /-- The answer to a register read command: whether it was accepted, and the value (R10, R477). -/
  | regRead (ok : Bool) (v : Nat)
  deriving DecidableEq, Repr

/-! ### Ports -/

/-- A fabric port (R393 to R401), by fabric port index. -/
structure EthSt where
  /-- Link up. -/
  up : Bool := false
  /-- Priorities paused, with the time the pause began (R399). -/
  paused : Tab Nat := []
  /-- Priorities for which XOFF stands toward the sender (R399). -/
  xoff : List Nat := []
  /-- Bytes held in the receive buffer by priority (R399). -/
  rxHeld : Tab Nat := []
  /-- ETH.TXTS: timestamp and sequence ID, oldest first, at most 16 (R400). -/
  txts : List (Nat × Nat) := []
  /-- Segments whose gratuitous announcement is to be repeated, with the time (R395). -/
  garp : List (Nat × Nat) := []
  /-- What waits for the link or the end of a pause, with its priority, oldest first (R399, R401). -/
  queued : List (Nat × Out) := []
  deriving DecidableEq, Repr

/-- An NVMe command outstanding on a port (R404, R405). -/
structure NvmeCmd where
  /-- Transaction; none for the journal writer and the Cirque firmware. -/
  txn : Option Nat := none
  /-- Segment of the transaction. -/
  seg : Nat := 0
  /-- 1 write, 2 read, 3 journal slot write (R84), 4 reservation (R331), 5 flush slot write, 6 flush header write (R86), 7 load read (R171). -/
  kind : Nat := 1
  /-- Number of the controller it was sent to. -/
  ctrl : Nat := 0
  /-- NVMe namespace. -/
  nsid : Nat := 0
  /-- First LBA. -/
  lba : Nat := 0
  /-- Data length in bytes. -/
  len : Nat := 0
  /-- Metadata length in bytes. -/
  mlen : Nat := 0
  /-- PRP list length in bytes. -/
  llen : Nat := 0
  /-- Buffers of the data pages, in order; none for journal slots. -/
  pages : List Nat := []
  /-- Data of a journal or flush write. -/
  data : List Byte := []
  /-- Metadata bytes. -/
  mdata : List Byte := []
  /-- Time of the doorbell (R51). -/
  at_ : Nat := 0
  /-- Shared namespace index for kind 4 (R331); JSN of the record for kind 3 (R84). -/
  aux : Nat := 0
  /-- Aborted after its timeout: the completion still frees the tag (R51). -/
  aborted : Bool := false
  deriving DecidableEq, Repr

/-- Journal flush and namespace writes (R84 to R88). -/
structure JourSt where
  /-- PWR_FAIL_N was accepted: the ring is frozen and no message is taken or sent (R86). -/
  frozen : Bool := false
  /-- Timebase at the falling edge (R87). -/
  fell : Nat := 0
  /-- Slots in use at the freeze, in rising order. -/
  slots : List Nat := []
  /-- Highest JSN of the records that are flushed (R87). -/
  top : Nat := 0
  /-- Slot writes of the flush not yet completed. -/
  slotWrites : Nat := 0
  /-- Header writes of the flush not yet completed; none before they are issued. -/
  headWrites : Option Nat := none
  deriving DecidableEq, Repr

/-- A PCIe port (R402 to R408). -/
structure PciSt where
  /-- BIFUR and CXL as taken when EN rose (R403). -/
  bifur : Nat := 0
  /-- CXL as taken when EN rose. -/
  cxl : Bool := false
  /-- Links in L0. -/
  links : List Nat := []
  /-- PCI_PERST_N level (R459). -/
  perst : Bool := false
  /-- Timebase when EN rose (R459). -/
  enAt : Nat := 0
  /-- The firmware has named its controllers in PCI.CTRLMAP since the link came up: their queues exist (R404, R407, assumption 37). -/
  queues : Bool := false
  /-- Commands outstanding by tag (R405). -/
  tags : Tab NvmeCmd := []
  deriving DecidableEq, Repr

/-- Management interfaces (R409, R412). -/
structure MgmtSt where
  /-- An I3C dynamic address is assigned: the pins run I3C. -/
  dynAddr : Option Nat := none
  /-- The pins act as an SMBus target. -/
  smbus : Bool := false
  /-- The 1 s wait since PWRGOOD rose runs (R409). -/
  daaWait : Bool := true
  /-- Mailbox from the BMC to the Cirque firmware. -/
  mboxIn : List Byte := List.replicate 64 0
  /-- Mailbox from the Cirque firmware to the BMC. -/
  mboxOut : List Byte := List.replicate 64 0
  /-- Rail currents in mA as last read over PMBus (R463). -/
  rails : List Nat := []
  /-- JTAG instruction: 0 BYPASS, 1 IDCODE, 2 SAMPLE/PRELOAD, 3 EXTEST, 4 CLAMP, 5 HIGHZ, 6 DBGAUTH, 7 DBGACC (R412, R428). -/
  jtag : Nat := 1
  deriving DecidableEq, Repr

/-! ### Counters, trace and debug -/

/-- The counters of a world (R418 to R422), by world table slot. -/
structure PmuWorld where
  /-- 1 NARROW, 2 WIDE. -/
  alloc : Nat := 1
  /-- DUMPK. -/
  dumpk : Nat := 0
  /-- WINK. -/
  wink : Nat := 0
  /-- RINGLOG. -/
  ringlog : Nat := 4
  /-- RINGVA. -/
  ringva : Nat := 0
  /-- Selectors. -/
  sels : List Nat := []
  /-- Counts, 48 bits. -/
  cnt : List Nat := []
  /-- Window sums of MODE 3 counters in progress (R420). -/
  win : List Nat := []
  /-- Tick whose window boundary was closed last, in ns (R420). -/
  winAt : Nat := 0
  /-- Wrapped since the previous dump. -/
  wrapped : List Bool := []
  /-- Dumps since LOAD. -/
  seq : Nat := 0
  /-- Dumps lost since the previous written record. -/
  lost : Nat := 0
  deriving DecidableEq, Repr

/-- A trace source's reference state (R425, R426). -/
structure TrcSrc where
  /-- Time of its last stamp. -/
  last : Nat := 0
  /-- Branch outcomes held, oldest first (BR). -/
  br : List Bool := []
  /-- Packets since its last SYNC. -/
  since : Nat := 0
  /-- Packets lost in the present overflow. -/
  lost : Nat := 0
  /-- A SYNC is due before its next packet. -/
  sync : Bool := true
  deriving DecidableEq, Repr

/-- The trace buffer (R424 to R426). -/
structure TrcSt where
  /-- Packets, oldest first: their bytes. -/
  buf : List (List Byte) := []
  /-- Bytes in the buffer. -/
  fill : Nat := 0
  /-- Bytes placed in the present 64-byte drain block. -/
  block : List Byte := []
  /-- An overflow episode runs (R426). -/
  overflow : Bool := false
  /-- Sources by source byte. -/
  srcs : Tab TrcSrc := []
  deriving DecidableEq, Repr

/-- The debug port (R428 to R434). -/
structure DbgSt where
  /-- Session code of the grant in force; none before the first grant and after it ends. -/
  code : Option Nat := none
  /-- Timebase at which the last wrong code was shifted in (R429). -/
  lockAt : Nat := 0
  /-- World whose counters PMU.SNAPV holds; none while it holds a unit's, or nothing (R423, R429). -/
  snapWorld : Option Nat := none
  /-- Result of the last DBGACC request: DONE, REFUSED, tag and data. -/
  result : Bool × Bool × Nat × Nat := (false, false, 0, 0)
  /-- Halt requests that wait for a boundary, by logical core: 1 by the firmware's register, 2 under a TENANT session (R434). -/
  want : Tab Nat := []
  /-- Cores halted under a TENANT grant, with the time of the halt (R434). -/
  tenant : Tab Nat := []
  /-- Cores that run one step, by logical core (R433). -/
  stepping : List Nat := []
  /-- Cores resuming: the breakpoint at the resume address does not hit again before the instruction issues. -/
  passBp : List Nat := []
  deriving DecidableEq, Repr

/-- Thermal and power pins (R463 to R472). -/
structure PwrSt where
  /-- A warning stands: TMAX has not fallen 5 °C below WARNTH since (R472). -/
  warned : Bool := false
  /-- THERM_TRIP_N is low (R472). -/
  tripPin : Bool := false
  deriving DecidableEq, Repr

/-! ### The device -/

/-- Everything the HK7 holds beside memory, fuses and timebase. -/
structure Dev where
  /-- Register contents by `RegName.code` × 65,536 + element, strictly rising, none at its reset value (R7, R473). -/
  regs : Tab Word := []
  /-- The model's own field, not the spec's: how many free values have been drawn. DESIGN CHOICE 0, assumption 2. -/
  free : Nat := 0
  /-- Latched words of wide registers by key (R478). -/
  latch : Tab Word := []
  /-- The operation a BUSY command register runs, by register key: operands as its write gave them (R484). -/
  busy : Tab Nat := []
  /-- Mode logic (R22 to R25). -/
  mode : ModeSt := {}
  /-- Keepers (R356). -/
  kpr : KeeperSt := {}
  /-- Moraine (R346 to R353). -/
  mor : MorSt := {}
  /-- Units by source number KIND × 128 + INSTANCE (R346). -/
  units : Tab UnitSt := []
  /-- Worlds that have a slot, by world ID (R162). -/
  worlds : Tab WorldRec := []
  /-- ROOT of world 0x0000 (R181). Its source is not stated: DESIGN CHOICE 0, assumption 7. -/
  root0 : Nat := 0
  /-- Cornice cores by physical index, Floe cores by 1,000 + physical index (R221, R147). -/
  cores : Tab Core := []
  /-- Caches and directory (R261 to R292). -/
  coh : CohSt := {}
  /-- Resident context store by channel (R29, R30). -/
  chans : Tab Chan := []
  /-- Transactions before ENDED, by number. -/
  txns : Tab Txn := []
  /-- Number of the next transaction: the model's own name for it. -/
  nextTxn : Nat := 0
  /-- JSN of the next record (R80). -/
  jsn : Nat := 1
  /-- Journal slots in use: slot to channel (R47, R80). -/
  jslots : Tab Nat := []
  /-- Engine round robins (R39). -/
  wrr : Tab Wrr := []
  /-- The channel engines' patch set in force (R253, R446); none: ROM only. -/
  engPatch : Option PatchSet := none
  /-- Queue pairs by port × 2^24 + number. -/
  qps : Tab Qp := []
  /-- Compression. -/
  cmp : CmpSt := {}
  /-- Cipher and keys. -/
  cip : CipSt := {}
  /-- Kernel segments. -/
  flo : FloSt := {}
  /-- Névé pool. -/
  neve : NeveSt := {}
  /-- CXL.mem window size in bytes by PCIe port (R408). -/
  cxl : Tab Nat := []
  /-- Partner link. -/
  plk : PlkSt := {}
  /-- Servo. -/
  servo : ServoSt := {}
  /-- Sastrugi buses. -/
  sas : Tab SasBus := []
  /-- Control pin channels. -/
  cio : Tab CioSt := []
  /-- Loop handshakes by logical core. -/
  loops : Tab LoopSt := []
  /-- Fabric ports by fabric port index. -/
  eth : Tab EthSt := []
  /-- PCIe ports. -/
  pci : Tab PciSt := []
  /-- Management interfaces. -/
  mgmt : MgmtSt := {}
  /-- World counters by slot. -/
  pmu : Tab PmuWorld := []
  /-- Trace. -/
  trc : TrcSt := {}
  /-- Debug port. -/
  dbg : DbgSt := {}
  /-- Thermal and power pins. -/
  pwr : PwrSt := {}
  /-- Cumulative credit returns modulo 2^16 by channel (R61, R71); kept while the block is not resident (assumption 38). -/
  crets : Tab Nat := []
  /-- Client messages that wait for a context block, in order of arrival (R30). -/
  ctxq : List CtxWait := []
  /-- Service requests not yet served and replies not yet released, in order of arrival (R170, R186, R187). -/
  svc : List Svc := []
  /-- Microsecond of the last token refill (R164). -/
  refillAt : Nat := 0
  /-- NVMe commands that wait for a tag, a queue or the SHARED gate: port and command (R330, R404). -/
  nvmeq : List (Nat × NvmeCmd) := []
  /-- Journal flush. -/
  jour : JourSt := {}
  /-- Scrubs in progress. -/
  scrubs : List Scrub := []
  /-- Cirque interrupts raised and not yet taken away by their source, oldest first (R236). -/
  irqs : List Irq := []
  /-- What the block has sent to the outside, newest first: the model's own record of outputs. -/
  out : List Out := []
  deriving DecidableEq, Repr

/-- The state of the model: the queue of waiting commands, the timebase, the fuses, memory and the device. -/
structure State where
  /-- Commands that wait, first in first out. -/
  pending : List Instr := []
  /-- The timebase in ns, 64 bits (R359). -/
  now : Nat := 0
  /-- Fuse banks. -/
  fuse : Fuses := {}
  /-- Memory. -/
  mem : Mem := {}
  /-- The device. -/
  dev : Dev := {}
  deriving DecidableEq, Repr

/-- The machine right after SYS_RST_N is released (R7, R25): Thaw entered, no bring-up step taken, nothing pending. -/
def State.reset : State := {}

/-- The working state of a command: the state before it to read, the memory changes it has made (newest first) and the
device as it stands. -/
structure W where
  /-- Timebase. -/
  now : Nat
  /-- Fuses. -/
  fuse : Fuses
  /-- Memory before the command. -/
  mem : Mem
  /-- Memory changes, newest first. -/
  ws : List MemWrite
  /-- The device. -/
  dev : Dev
  deriving DecidableEq, Repr

end Sys2Proof.Machine
end

