-- ==== Sys2Proof/Machine/Ops.lean ====
section
/-! DEFINITION. The operations that every command's effect is made of: memory, registers, free values, mode transitions,
Moraine records and interrupts. -/

namespace Sys2Proof.Machine

open Sys2Proof

/-! ### Memory -/

/-- The byte at a physical address. -/
def Mem.byte (m : Mem) (a : Nat) : Byte := Tab.getD m.cells a 0

/-- The tag of word `wi` (address / 8). -/
def Mem.tag (m : Mem) (wi : Nat) : Tag := Tab.getD m.tags wi 0

/-- Make one change, keeping the canonical form. -/
def Mem.write (m : Mem) : MemWrite → Mem
  | .byte a b => { m with cells := Tab.putD 0 m.cells a b }
  | .tag wi t => { m with tags := Tab.putD 0 m.tags wi t }

/-- Make changes, oldest first. -/
def Mem.apply (m : Mem) (ws : List MemWrite) : Mem := ws.foldl Mem.write m

/-- The canonical form: addresses strictly rise and nothing is listed that reads as unlisted. -/
def Mem.wf (m : Mem) : Bool := Tab.wf 0 m.cells && Tab.wf 0 m.tags

/-- The working state at the start of a command. -/
def State.w (s : State) : W := ⟨s.now, s.fuse, s.mem, [], s.dev⟩

/-- Run a command's effect: it may change the device and memory, and nothing else of the state. -/
def lift (f : W → W) (s : State) : Host.Outcome State Fault Refusal :=
  let w := f s.w
  .next { s with mem := s.mem.apply w.ws.reverse, dev := w.dev }

/-- The byte that a memory change gives address `a`, if it changes it. -/
def MemWrite.byteAt (a : Nat) : MemWrite → Option Byte
  | .byte b v => if b = a then some v else none
  | .tag _ _ => none

/-- The tag that a memory change gives word `wi`, if it changes it. -/
def MemWrite.tagAt (wi : Nat) : MemWrite → Option Tag
  | .byte _ _ => none
  | .tag j t => if j = wi then some t else none

/-- The byte at `a` as it stands within the command. -/
def W.byte (w : W) (a : Nat) : Byte := (w.ws.findSome? (MemWrite.byteAt a)).getD (w.mem.byte a)

/-- The tag of word `wi` as it stands within the command. -/
def W.tagOf (w : W) (wi : Nat) : Tag := (w.ws.findSome? (MemWrite.tagAt wi)).getD (w.mem.tag wi)

/-- `n` bytes from address `a`. -/
def W.bytes (w : W) (a n : Nat) : List Byte := (upto a n).map w.byte

/-- `n` bytes from `a`, little-endian (R5). -/
def W.le (w : W) (a n : Nat) : Nat := ofLE (w.bytes a n)

/-- Write one byte, leaving tags. -/
def W.putByte (w : W) (a : Nat) (b : Byte) : W := { w with ws := .byte a b :: w.ws }

/-- Set the tag of word `wi`. -/
def W.putTag (w : W) (wi : Nat) (t : Tag) : W := { w with ws := .tag wi t :: w.ws }

/-- Write bytes from `a` up, leaving tags. -/
def W.putBytes (w : W) (a : Nat) : List Byte → W
  | [] => w
  | b :: t => (w.putByte a b).putBytes (a + 1) t

/-- Give every word that bytes `a` to `a + n - 1` touch one tag. -/
def W.tagRange (w : W) (a n : Nat) (t : Tag) : W :=
  if n = 0 then w else (upto (a / 8) ((a + n - 1) / 8 + 1 - a / 8)).foldl (fun w wi => w.putTag wi t) w

/-- A write by a unit of the HK7 or a DMA agent: words take tag RAW (R196). -/
def W.dmaWrite (w : W) (a : Nat) (bs : List Byte) : W := (w.putBytes a bs).tagRange a bs.length 0

/-- Write an `n`-byte little-endian field as a unit of the HK7 (R5, R196). -/
def W.putLe (w : W) (a n v : Nat) : W := w.dmaWrite a (leBytes n v)

/-- The aligned word number `wi` with its tag. -/
def W.word (w : W) (wi : Nat) : TWord := ⟨w.tagOf wi, BitVec.ofNat 64 (w.le (wi * 8) 8)⟩

/-- Store a whole word with its tag in one step (R196). -/
def W.putWord (w : W) (wi : Nat) (x : TWord) : W := (w.putBytes (wi * 8) (leBytes 8 x.val.toNat)).putTag wi x.tag

/-! ### Registers -/

/-- Whether the order code is HK7-M: IDREV CONFIG 0x4D (R4, R481). -/
def W.isM (w : W) : Bool := bits w.fuse.idrev 15 8 = 0x4D

/-- `x` on an HK7-X and `m` on an HK7-M. -/
def W.xm (w : W) (x m : Nat) : Nat := if w.isM then m else x

/-- The key of a register element in `Dev.regs`. -/
def regKey (r : RegName) (i : Nat) : Nat := r.code * 65536 + i

/-- The reset value of a register element: its fields' values, and the elements that R137 and R52 give one of their own. -/
def W.regRst (w : W) (r : RegName) (i : Nat) : Word :=
  if r = .KDF_PURPCTL ∧ i = 1 then 0x0001518002580000
  else if r = .NEVE_ALLOCSTAT ∧ w.isM then 0x18001800
  else BitVec.ofNat 64 r.resetNat

/-- The content of a register element. -/
def W.reg (w : W) (r : RegName) (i : Nat := 0) : Word := Tab.getD w.dev.regs (regKey r i) (w.regRst r i)

/-- Set the content of a register element. -/
def W.setReg (w : W) (r : RegName) (i : Nat) (v : Word) : W :=
  { w with dev := { w.dev with regs := Tab.putD (w.regRst r i) w.dev.regs (regKey r i) v } }

/-- The value of a field. -/
def W.get (w : W) (f : Fld) (i : Nat := 0) : Nat := bits (w.reg f.reg i) f.hi f.lo

/-- Whether a one-bit field is 1. -/
def W.flag (w : W) (f : Fld) (i : Nat := 0) : Bool := w.get f i = 1

/-- Set a field. -/
def W.set (w : W) (f : Fld) (v : Nat) (i : Nat := 0) : W := w.setReg f.reg i (setBits (w.reg f.reg i) f.hi f.lo v)

/-- Add to a count, which saturates at its all-ones value (R483). -/
def W.bump (w : W) (f : Fld) (k : Nat := 1) (i : Nat := 0) : W := w.set f (satAdd (f.hi + 1 - f.lo) (w.get f i) k) i

/-- A base field in its register's place: bits `hi:lo` of an address (R15, R29 and the other base registers). -/
def W.base (w : W) (f : Fld) (i : Nat := 0) : Nat := w.get f i <<< f.lo

/-! ### Free values -/

/-- Draw a fresh free value (assumption 2). -/
def W.fresh (w : W) : Word × W := (Config.freeValue w.dev.free, { w with dev := { w.dev with free := w.dev.free + 1 } })

/-- Draw `n` fresh free bytes (assumption 2). -/
def W.freshBytes (w : W) (n : Nat) : List Byte × W :=
  ((List.range n).map (Config.freeByte w.dev.free), { w with dev := { w.dev with free := w.dev.free + 1 } })

/-! ### Outputs and interrupts -/

/-- Send something to the outside. -/
def W.send (w : W) (o : Out) : W := { w with dev := { w.dev with out := o :: w.dev.out } }

/-- Raise a Cirque interrupt (R236). -/
def W.irq (w : W) (i : Irq) : W := { w with dev := { w.dev with irqs := w.dev.irqs ++ [i] } }

/-- Apply a change when a condition holds. -/
def W.when (w : W) (c : Bool) (f : W → W) : W := if c then f w else w

/-- Change the mode logic's state. -/
def W.modeSt (w : W) (f : ModeSt → ModeSt) : W := { w with dev := { w.dev with mode := f w.dev.mode } }

/-! ### Counters (R413 to R420) -/

/-- Add to a unit counter: 48 bits that wrap, OVF set by a wrap (R413, R416). -/
def W.pmuBump (w : W) (r : RegName) (i k : Nat) : W :=
  let v := w.reg r i
  let c := bits v 47 0 + k
  let v := setBits v 47 0 (c % 2 ^ 48)
  w.setReg r i (if 2 ^ 48 ≤ c then setBits v 63 63 1 else v)

/-- The unit kinds of R414 and R423. -/
inductive PmuKind where
  | crn | flo | eng | port
  deriving DecidableEq, Repr

/-- Selector, count register and number of programmable counters of a unit kind (R413, R414). -/
def PmuKind.regs : PmuKind → RegName × RegName × Nat
  | .crn => (.PMU_CRNSEL, .PMU_CRNCNT, 8)
  | .flo => (.PMU_FLOSEL, .PMU_FLOCNT, 8)
  | .eng => (.PMU_ENGSEL, .PMU_ENGCNT, 4)
  | .port => (.PMU_PRTSEL, .PMU_PRTCNT, 4)

/-- A world's counters after an event (R416, R418, R420): COUNT counters add it, WINDOW counters gather it. -/
def PmuWorld.event (p : PmuWorld) (idx ev k : Nat) : PmuWorld :=
  let hit (j : Nat) (mode : Nat) : Bool :=
    let s := BitVec.ofNat 64 (p.sels.getD j 0)
    bit s 63 && decide (bits s 10 0 = ev) && decide (bits s 62 61 = mode) && (decide (bits s 40 32 = 0x1FF) || decide (bits s 40 32 = idx))
      && !(decide (p.alloc = 2) && decide (j < 4))
  { p with
    cnt := p.cnt.mapIdx fun j c => if hit j 0 then (c + k) % 2 ^ 48 else c
    wrapped := p.wrapped.mapIdx fun j b => b || (hit j 0 && decide (2 ^ 48 ≤ p.cnt.getD j 0 + k))
    win := p.win.mapIdx fun j c => if hit j 3 then c + k else c }

/-- Change the world counters of a world, while it is ACTIVE or SUSPENDED (R418). -/
def W.pmuWorld (w : W) (world : Nat) (f : PmuWorld → PmuWorld) : W :=
  match Tab.find? w.dev.worlds world with
  | some r => if r.state = 1 ∨ r.state = 2 then { w with dev := { w.dev with pmu := Tab.modify w.dev.pmu r.slot f } } else w
  | none => w

/-- `k` events of code `ev` happen at unit `idx` of a kind, for a world (R415, R416, R418). -/
def W.event (w : W) (kind : PmuKind) (idx ev k world : Nat) : W :=
  let (sel, cnt, n) := kind.regs
  let w := (List.range n).foldl (fun (w : W) (j : Nat) =>
    let s := w.reg sel (idx * n + j)
    if bit s 63 && decide (bits s 62 61 = 0) && decide (bits s 10 0 = ev) then w.pmuBump cnt (idx * n + j) k else w) w
  w.pmuWorld world fun p => p.event idx ev k

/-! ### Moraine (R346 to R353) -/

/-- A report to Moraine before it is recorded (R346, R353). -/
structure Report where
  /-- CLASS. -/
  cls : Nat
  /-- Level of R347. -/
  level : Nat
  /-- SOURCE. -/
  src : Nat := 0
  /-- SUBCODE. -/
  sub : Nat := 0
  /-- WORLD. -/
  world : Nat := 0xFFFF
  /-- CHID. -/
  chid : Nat := 0
  /-- DETAIL. -/
  detail : Nat := 0
  deriving DecidableEq, Repr

/-- A source number: KIND and INSTANCE (R346). -/
def source (kind inst : Nat) : Nat := kind * 128 + inst

/-- The classes marked Yes in the Escalates column of R347. -/
def escalates (c : Nat) : Bool := c = 0x00 || c = 0x01 || c = 0x14 || c = 0x20 || c = 0x22 || c = 0x25

/-- The classes whose level 2 takes the source unit itself out of service rather than an object the class names (R348). -/
def unitClass (c : Nat) : Bool :=
  c = 0x01 || c = 0x11 || c = 0x12 || c = 0x10 || c = 0x14 || c = 0x16 || c = 0x18 || c = 0x20 || c = 0x22 || c = 0x25 || c = 0x2C || c = 0x32 || c = 0x33

/-- The state of a unit. -/
def W.unitOf (w : W) (src : Nat) : UnitSt := Tab.getD w.dev.units src {}

/-- Change the state of a unit. -/
def W.setUnit (w : W) (src : Nat) (u : UnitSt) : W := { w with dev := { w.dev with units := Tab.putD {} w.dev.units src u } }

/-- A unit leaves service and is not returned before the next Reset (R344). -/
def W.unitOut (w : W) (src : Nat) : W := w.setUnit src { svc := false, spare := false, out := true }

/-- The 32 bytes of a log record (R353). -/
def LogRec.bytes (r : LogRec) : List Byte :=
  leBytes 8 r.ts ++ leBytes 4 r.seq ++ leBytes 1 r.cls ++ leBytes 1 r.flags ++ leBytes 2 r.src ++ leBytes 1 r.sub ++ [0] ++
    leBytes 2 r.world ++ leBytes 4 r.chid ++ leBytes 8 r.detail

/-- The ring size in records (R353). -/
def W.logSize (w : W) : Nat := 2 ^ w.get F.MOR_LOGCTL_SIZE

/-- Whether the log ring is full (R353). -/
def W.logFull (w : W) : Bool := (w.get F.MOR_LOGHEAD_IDX + 1) % w.logSize = w.get F.MOR_LOGTAIL_IDX % w.logSize

/-- Put a record into the FIFO, or drop and count it when the FIFO, or the ring while logging is on, is full (R353). -/
def W.logPush (w : W) (r : LogRec) : W :=
  let w := { w with dev := { w.dev with mor := { w.dev.mor with seq := (w.dev.mor.seq + 1) % 2 ^ 32 } } }
  if 256 ≤ w.dev.mor.fifo.length || (w.flag F.MOR_CTL_LOGEN && w.logFull) then w.bump F.MOR_DROPCNT_COUNT
  else { w with dev := { w.dev with mor := { w.dev.mor with fifo := w.dev.mor.fifo ++ [r] } } }

/-- MOR.SUMMARY: PEND of class c in bit c (R353). -/
def W.summary (w : W) : Nat := (List.range 64).foldl (fun a c => a + w.get F.MOR_CLS_PEND c * 2 ^ c) 0

/-- The latch, the count and the log entry of one record (R349, R350); the level as recorded comes with the state. -/
def W.record (w : W) (r : Report) : W × Nat × LogRec :=
  let c := r.cls
  let pend := w.flag F.MOR_CLS_PEND c
  let esc := pend && escalates c && decide (r.level ≠ 0)
  let lv := if esc then min 3 (r.level + 1) else r.level
  let w :=
    if pend then
      let w := w.set F.MOR_CLS_OVERFLOW 1 c
      let w := if esc then w.set F.MOR_CLS_ESC 1 c else w
      w.set F.MOR_CLS_LEVEL (max lv (w.get F.MOR_CLS_LEVEL c)) c
    else
      let w := ((w.set F.MOR_CLS_PEND 1 c).set F.MOR_CLS_OVERFLOW 0 c).set F.MOR_CLS_ESC 0 c
      let w := ((w.set F.MOR_CLS_LEVEL lv c).set F.MOR_CLS_SOURCE r.src c).set F.MOR_CLS_SUBCODE r.sub c
      w.set F.MOR_CLSTS_TS w.now c
  let w := w.bump F.MOR_CLS_COUNT 1 c
  let flags := lv + (if esc then 4 else 0) + (if pend then 0 else 8)
  let l : LogRec := ⟨w.now, w.dev.mor.seq, c, flags, r.src, r.sub, r.world, r.chid, r.detail⟩
  let w := w.logPush l
  (w.set F.MOR_SUMMARY_PEND w.summary, lv, l)

/-! ### Trace (R424 to R426) -/

/-- Whether a source is traced: 0–35 Cornice cores, 64–131 channel engines, 192 the device (R424, R425). -/
def W.trcOn (w : W) (src world : Nat) : Bool :=
  w.flag F.TRC_CTL_EN &&
  (if src = 192 then true
   else (decide (w.get F.TRC_CTL_WFILT = 0xFFFF) || decide (w.get F.TRC_CTL_WFILT = world)) &&
     (if src < 32 then nbit (w.get F.TRC_SRCEN0_CORE) src
      else if src < 36 then nbit (w.get F.TRC_SRCEN1_CORE) (src - 32)
      else if src < 128 then nbit (w.get F.TRC_SRCEN2_ENG) (src - 64)
      else nbit (w.get F.TRC_SRCEN3_ENG) (src - 128)))

/-- Change the trace buffer. -/
def W.modTrc (w : W) (f : TrcSt → TrcSt) : W := { w with dev := { w.dev with trc := f w.dev.trc } }

/-- A trace source's state. -/
def W.trcSrc (w : W) (src : Nat) : TrcSrc := Tab.getD w.dev.trc.srcs src {}

/-- Replace a trace source's state. -/
def W.setTrcSrc (w : W) (src : Nat) (x : TrcSrc) : W := w.modTrc fun t => { t with srcs := Tab.putD {} t.srcs src x }

/-- Drop the oldest packets until `n` bytes fit into the 1 MiB buffer (R424, R426). -/
def trcMake (n : Nat) : List (List Byte) → Nat → List (List Byte) × Nat
  | [], _ => ([], 0)
  | p :: t, fill => if fill + n ≤ 2 ^ 20 then (p :: t, fill) else trcMake n t (fill - p.length)

/-- Put one packet into the buffer: with WRAP over the oldest, else dropped when the buffer is full, with one record for the
episode (R426). The source that loses a packet writes OVF and SYNC before its next one. -/
def W.trcRaw (w : W) (src : Nat) (p : List Byte) : W :=
  let t := w.dev.trc
  if t.fill + p.length ≤ 2 ^ 20 then
    (w.modTrc fun t => { t with buf := t.buf ++ [p], fill := t.fill + p.length, overflow := false })
  else if w.flag F.TRC_CTL_WRAP then
    let (b, f) := trcMake p.length t.buf t.fill
    w.modTrc fun t => { t with buf := b ++ [p], fill := f + p.length }
  else
    let x := w.trcSrc src
    let w := w.setTrcSrc src { x with lost := satAdd 16 x.lost 1, sync := true }
    if t.overflow then w
    else (w.modTrc fun t => { t with overflow := true }) |> fun w => (w.record { cls := 0x3D, level := 0, src := source 23 0 }).1

/-- The SYNC payload of a source (R425): an engine's channel, command and world are those of its running transaction. -/
def W.syncBytes (w : W) (src : Nat) : List Byte :=
  leBytes 8 w.now ++
  (if src < 36 then
    let c := Tab.getD w.dev.cores src {}
    leBytes 8 c.pc.toNat ++ leBytes 2 c.cworld
   else if src = 192 then []
   else match Tab.first? w.dev.txns fun _ t => decide (t.engine = some (src - 64)) && decide (t.wait = .none) with
    | some p => leBytes 4 p.2.chid ++ leBytes 2 p.2.idx ++ leBytes 2 p.2.world ++ [0, 0]
    | none => zeros 10)

/-- A source's SYNC packet (R425). -/
def W.trcSync (w : W) (src : Nat) : W :=
  let w := w.trcRaw src ([BitVec.ofNat 8 0x10, BitVec.ofNat 8 src] ++ w.syncBytes src)
  w.setTrcSrc src { w.trcSrc src with sync := false, since := 0, last := w.now }

/-- A packet of a traced source: outcomes held go first, OVF and SYNC where they are due (R425, R426). -/
def W.trcEmit (w : W) (src world type info : Nat) (pay : List Byte) : W :=
  if !w.trcOn src world then w
  else
    let hd (t i : Nat) : List Byte := [BitVec.ofNat 8 (t * 16 + i), BitVec.ofNat 8 src]
    let put (w : W) (p : List Byte) : W :=
      let w := w.trcRaw src p
      let x := w.trcSrc src
      w.setTrcSrc src { x with since := x.since + 1 }
    let x := w.trcSrc src
    let w := if x.lost = 0 then w else
      let w := put w (hd 9 0 ++ leBytes 2 x.lost)
      w.setTrcSrc src { w.trcSrc src with lost := 0 }
    let w := if x.sync || decide (4096 ≤ x.since) then w.trcSync src else w
    let w := if x.br.isEmpty || decide (type = 3) then w else
      let w := put w (hd 3 x.br.length ++ [BitVec.ofNat 8 ((x.br.mapIdx fun i b => b2n b * 2 ^ i).sum)])
      w.setTrcSrc src { w.trcSrc src with br := [] }
    put w (hd type info ++ pay)

/-- A conditional branch outcome: held until 8 fill a BR packet (R425). -/
def W.trcBranch (w : W) (src world : Nat) (taken : Bool) : W :=
  if !w.trcOn src world then w
  else
    let x := w.trcSrc src
    let br := x.br ++ [taken]
    if br.length < 8 then w.setTrcSrc src { x with br := br }
    else
      let w := w.setTrcSrc src { x with br := [] }
      w.trcEmit src world 3 8 [BitVec.ofNat 8 ((br.mapIdx fun i b => b2n b * 2 ^ i).sum)]

/-! ### Modes (R22 to R25) -/

/-- Mode codes of SYS.MODE.CUR. -/
def mRESET : Nat := 0
/-- Thaw. -/
def mTHAW : Nat := 1
/-- Paired Service. -/
def mPAIRED : Nat := 2
/-- Split Service. -/
def mSPLIT : Nat := 3
/-- Standby. -/
def mSTANDBY : Nat := 4
/-- Degraded. -/
def mDEGRADED : Nat := 5
/-- Recovery. -/
def mRECOVERY : Nat := 6
/-- Maintenance. -/
def mMAINT : Nat := 7

/-- The current mode; while SYS_RST_N or PWRGOOD is low the device is in Reset, which SYS.MODE never shows as CUR (R22). -/
def W.cur (w : W) : Nat := if w.dev.mode.rstN && w.dev.mode.pwrgood && !w.dev.mode.railBad then w.get F.SYS_MODE_CUR else mRESET

/-- A service mode (R22). -/
def isService (m : Nat) : Bool := m = mPAIRED || m = mSPLIT

/-- The service mode that the STRAP_PAIR sample selects (R337). -/
def W.serviceMode (w : W) : Nat := if w.dev.mode.strapPair then mPAIRED else mSPLIT

/-- SYS.MODE.RECOV follows the restarts and pair self-tests in progress (R22, R24). -/
def W.updRecov (w : W) : W :=
  w.set F.SYS_MODE_RECOV (b2n (w.flag F.KPR_RSTCTL_RUN || !w.dev.mode.pairTests.isEmpty))

/-- The place of a transition in the order of precedence (R25); a return from Recovery or Maintenance ranks 7 whatever its target. -/
def modeRank (m : Nat) : Nat :=
  if m = mTHAW then 2 else if m = mDEGRADED then 3 else if m = mSTANDBY then 4 else if m = mRECOVERY then 5 else if m = mMAINT then 6 else 7

/-- The MGMT cycle in which a transition is taken: the present one, or, where it has taken one already, the next (R25). -/
def W.modeCycle (w : W) : Nat :=
  match w.dev.mode.took with
  | some (c, _) => if w.now / 10 ≤ c then c + 1 else w.now / 10
  | none => w.now / 10

/-- One transition: CHG set, TRANS counted modulo 256, PREV and MODETS recorded (R25). The MODE line follows CHG (R236). An MGMT cycle takes one
transition, so that a second one falls in the next cycle. -/
def W.transition (w : W) (m : Nat) (rank : Nat := modeRank m) : W :=
  let old := w.get F.SYS_MODE_CUR
  let at_ := max w.now (w.modeCycle * 10)
  let w := w.set F.SYS_MODE_TRANS ((w.get F.SYS_MODE_TRANS + 1) % 256)
  let w := ((w.set F.SYS_MODE_PREV old).set F.SYS_MODE_CUR m).set F.SYS_MODE_CHG 1
  let w := (w.set F.SYS_MODETS_TS at_).trcEmit 192 0 0xA 0 (leBytes 1 m ++ leBytes 8 at_)
  -- leaving Recovery or Maintenance forgets the mode of origin and a held request (R23)
  w.modeSt fun s => { s with
    recFrom := if old = mRECOVERY then none else s.recFrom
    recReq := if old = mRECOVERY then false else s.recReq
    recHeld := if old = mRECOVERY then false else s.recHeld
    maintFrom := if m = mRECOVERY || m = mMAINT then s.maintFrom else none
    took := some (at_ / 10, rank) }

/-- A level 3 record: MOR.FATAL, Thaw with FATAL, outputs stopped (R352). Gates follow SYS.MODE.FATAL (R330, R380). -/
def W.fatal (w : W) (l : LogRec) : W :=
  let ws := l.bytes
  let w := (List.range 4).foldl (fun w i => w.set F.MOR_FATAL_WORD (leAt ws (8 * i) 8) i) w
  let w := if w.flag F.SYS_MODE_FATAL then w else (w.transition mTHAW).set F.SYS_MODE_FATAL 1
  w.modeSt fun s => { s with aliveStop := true }

/-- A record and the action of its level (R348 to R352). -/
def W.reportNow (w : W) (r : Report) : W :=
  let (w, lv, l) := w.record r
  let w := if lv = 2 && unitClass r.cls then w.unitOut r.src else w
  if lv = 3 then w.fatal l else w

/-- Report a fault to Moraine; in Reset, which a fault does not leave, nothing is recorded (R7, R24). What a unit that leaves service
leaves behind is the business of the rule that reports. -/
def W.report (w : W) (r : Report) : W := if w.cur = mRESET then w else w.reportNow r

/-- The MORAINE line: some class with PEND has LEVEL at NOTIFY or above (R353). -/
def W.moraineLine (w : W) : Bool :=
  (List.range 64).any fun c => w.flag F.MOR_CLS_PEND c && decide (w.get F.MOR_CTL_NOTIFY ≤ w.get F.MOR_CLS_LEVEL c)
    && decide (w.get F.MOR_CLS_LEVEL c ≠ 0)

/-! ### Cores -/

/-- The key of a core in `Dev.cores`. -/
def coreKey : CoreId → Nat
  | .crn p => p
  | .flo n => 1000 + n

/-- The Moraine source of a core (R346). -/
def coreSrc : CoreId → Nat
  | .crn p => source 2 p
  | .flo n => source (3 + n / 128) (n % 128)

/-- A core's state. -/
def W.core (w : W) (c : CoreId) : Core := Tab.getD w.dev.cores (coreKey c) {}

/-- Replace a core's state. -/
def W.setCore (w : W) (c : CoreId) (x : Core) : W := { w with dev := { w.dev with cores := Tab.putD {} w.dev.cores (coreKey c) x } }

/-- Change a core's state. -/
def W.modCore (w : W) (c : CoreId) (f : Core → Core) : W := w.setCore c (f (w.core c))

/-- Change a world's record, if it has one. -/
def W.modWorld (w : W) (wid : Nat) (f : WorldRec → WorldRec) : W :=
  { w with dev := { w.dev with worlds := Tab.modify w.dev.worlds wid f } }

/-- Whether a world is ACTIVE; world 0x0000 always is (assumption 20), 0xFFFF never (R162). -/
def W.worldActive (w : W) (wid : Nat) : Bool :=
  wid = 0 || (match Tab.find? w.dev.worlds wid with | some r => r.state = 1 | none => false)

/-- Count event `k` of WLD.CNT for a world (R166). -/
def W.worldCnt (w : W) (wid k : Nat) : W :=
  w.modWorld wid fun r => { r with cnt := r.cnt.set k (satAdd 64 (r.cnt.getD k 0) 1) }

end Sys2Proof.Machine
end

