-- ==== Sys2Proof/Machine/Access.lean ====
section
/-! DEFINITION. The memory map, the owner table and its checks, translation, and the cache metadata that accesses touch
(R172 to R184, R261 to R292). -/

namespace Sys2Proof.Machine

open Sys2Proof

/-! ### Tags (R196, R197) -/

/-- Tag numbers: RAW 0, CODE 7 and the reserved values are stated (R142, R176, R198); the rest are PRESUMED (assumption 8). -/
def tRAW : Tag := 0
/-- INT. -/
def tINT : Tag := 1
/-- F64. -/
def tF64 : Tag := 2
/-- F32P. -/
def tF32P : Tag := 3
/-- F16Q. -/
def tF16Q : Tag := 4
/-- BF16Q. -/
def tBF16Q : Tag := 5
/-- HND. -/
def tHND : Tag := 6
/-- CODE. -/
def tCODE : Tag := 7
/-- POISON. -/
def tPOISON : Tag := 0xE
/-- The reserved tags (R198). -/
def tReserved (t : Tag) : Bool := (decide (8 ≤ t.toNat) && decide (t.toNat ≤ 0xD)) || t = 0xF

/-! ### Memory map (R271, R278 to R283) -/

/-- What a physical address names (R283). -/
inductive PKind where
  | hbm | dram
  | cxl (p : Nat)
  | scratch (s off : Nat)
  | tcm (p off : Nat)
  | dev (off : Nat)
  | none
  deriving DecidableEq, Repr

/-- Bytes of HBM in service (R278). -/
def W.hbmSize (w : W) : Nat := w.get F.MEMH_CFG_UNITS * w.get F.MEMH_CFG_UNITGIB * 2 ^ 30
/-- Bytes of bulk DRAM in service (R279). -/
def W.dramSize (w : W) : Nat := w.get F.MEMB_CFG_UNITS * w.get F.MEMB_CFG_UNITGIB * 2 ^ 30

/-- The range of R283 that holds an address. -/
def W.pkind (w : W) (pa : Nat) : PKind :=
  if pa < 0x004000000000 then if pa < w.hbmSize then .hbm else .none
  else if pa < 0x200000000000 then if pa - 0x004000000000 < w.dramSize then .dram else .none
  else if pa < 0x300000000000 then
    let p := (pa - 0x200000000000) / 0x040000000000
    if (pa - 0x200000000000) % 0x040000000000 < Tab.getD w.dev.cxl p 0 then .cxl p else .none
  else if pa < 0x3D0000000000 then .none
  else if pa < 0x3E0000000000 then
    let s := (pa - 0x3D0000000000) / 0x200000
    if s < w.dev.coh.slices then .scratch s ((pa - 0x3D0000000000) % 0x200000) else .none
  else if pa < 0x3F0000000000 then
    let p := (pa - 0x3E0000000000) / 0x20000
    if p < w.xm 36 20 then .tcm p ((pa - 0x3E0000000000) % 0x20000) else .none
  else if pa < 0x400000000000 then .dev (pa - 0x3F0000000000)
  else .none

/-- The physical address of a TCM byte: its alias (R223). -/
def tcmAddr (p off : Nat) : Nat := 0x3E0000000000 + p * 0x20000 + off

/-- The memory unit that serves an address of HBM or bulk DRAM, as a Moraine source (R280, R346). -/
def W.memUnit (w : W) (pa : Nat) : Option Nat :=
  let pick (x n : Nat) (map : Nat) (b : Nat) : Option Nat :=
    if n = 0 then none
    else
      let q := x / 4096
      let g := q / n
      let u := (q % n + Nat.xor (nbits g 6 0) (nbits g 13 7)) % n
      -- unit u is the u-th unit in service, by MAP (R278, R279)
      let phys := (List.range 8).filter fun k => nbit map k
      (phys[u]?).map fun k => source 12 (b + k)
  match w.pkind pa with
  | .hbm => pick pa (w.get F.MEMH_CFG_UNITS) (w.get F.MEMH_CFG_MAP) 0
  | .dram => pick (pa - 0x004000000000) (w.get F.MEMB_CFG_UNITS) (w.get F.MEMB_CFG_MAP) 8
  | _ => none

/-- The PCIe port of a CXL.mem window that holds an address, while its link is down (R408). -/
def W.cxlDown (w : W) (pa : Nat) : Option Nat :=
  match w.pkind pa with
  | .cxl p => if (Tab.getD w.dev.pci p {}).links.contains 0 then none else some p
  | _ => none

/-- Whether the unit behind an address has failed in service, or is a CXL.mem device out of reach: its words read POISON (R280, R408). -/
def W.unitFailed (w : W) (pa : Nat) : Bool :=
  if (w.cxlDown pa).isSome then true
  else match w.memUnit pa with
  | some u => (w.unitOf u).out
  | none => false

/-- An access to a CXL.mem window while its link is down is reported (R408). -/
def W.cxlNote (w : W) (pa : Nat) : W :=
  match w.cxlDown pa with
  | some p => w.report { cls := 0x35, level := 2, src := source 15 p, detail := pa }
  | none => w

/-- A word as memory delivers it: POISON from a failed unit (R280) and for a reserved tag (R198). -/
def W.rdWord (w : W) (wi : Nat) : TWord :=
  let x := w.word wi
  if w.unitFailed (wi * 8) || tReserved x.tag then { x with tag := tPOISON } else x

/-! ### Owner table (R172 to R178) -/

/-- An owner-table entry (R172). -/
structure OwnEntry where
  /-- OWNER. -/
  owner : Nat
  /-- R right. -/
  r : Bool
  /-- W right. -/
  w : Bool
  /-- X right. -/
  x : Bool
  /-- D right. -/
  d : Bool
  /-- STATE: 0 FREE, 1 OWNED, 2 SHARED-RO, 3 FROZEN, 4 QUARANTINE. -/
  st : Nat
  /-- KSEL. -/
  ksel : Nat
  deriving DecidableEq, Repr

/-- Read an entry's 32 bits; none when it is invalid (R172). -/
def OwnEntry.ofNat (v : Nat) : Option OwnEntry :=
  let st := nbits v 11 9
  let owner := nbits v 31 16
  if 5 ≤ st || nbits v 4 0 ≠ 0 || (owner = 0xFFFF && st ≠ 0) then none
  else some ⟨owner, nbit v 15, nbit v 14, nbit v 13, nbit v 12, st, nbits v 8 5⟩

/-- The 32 bits of an entry (R172). -/
def OwnEntry.toNat (e : OwnEntry) : Nat :=
  e.owner * 65536 + b2n e.r * 32768 + b2n e.w * 16384 + b2n e.x * 8192 + b2n e.d * 4096 + e.st * 512 + e.ksel * 32

/-- The enabled region that holds an address (R175). -/
def W.region (w : W) (pa : Nat) : Option Nat :=
  (List.range 16).find? fun i =>
    w.flag F.OWN_RGNA_EN i && decide (w.base F.OWN_RGNA_START i ≤ pa) &&
      decide (pa < w.base F.OWN_RGNA_START i + w.get F.OWN_RGNB_SIZE i * 0x200000)

/-- The address of the owner-table entry of a page (R175). -/
def W.ownAddr (w : W) (pa : Nat) : Option Nat :=
  (w.region pa).map fun i =>
    w.base F.OWN_TBASE_BASE + (w.get F.OWN_RGNB_INDEX i + (pa - w.base F.OWN_RGNA_START i) / 4096) * 4

/-- The owner-table entry of a page; none outside every region or when it is invalid. -/
def W.ownEntry (w : W) (pa : Nat) : Option OwnEntry :=
  match w.ownAddr pa with
  | some a => OwnEntry.ofNat (w.le a 4)
  | none => none

/-- Whether an entry's page counts in its owner's PAGES (R166). -/
def OwnEntry.counts (e : OwnEntry) : Bool := e.st = 1 || e.st = 2 || e.st = 3

/-- Change an entry, and the PAGES counts it bears on (R166, R178). -/
def W.setOwn (w : W) (pa : Nat) (e : OwnEntry) : W :=
  match w.ownAddr pa with
  | none => w
  | some a =>
    let w := match OwnEntry.ofNat (w.le a 4) with
      | some o => if o.counts then w.modWorld o.owner fun r => { r with pages := r.pages - 1 } else w
      | none => w
    let w := if e.counts then w.modWorld e.owner fun r => { r with pages := r.pages + 1 } else w
    w.putLe a 4 e.toNat

/-- The three kinds of access. -/
inductive Acc3 where
  | rd | wr | ex
  deriving DecidableEq, Repr

/-- Who makes an access: its owner attribute (R182) and its Moraine source (R346). -/
structure Who where
  /-- Owner attribute. -/
  world : Nat
  /-- Moraine source of the agent. -/
  src : Nat
  /-- AKMASK, for code of a tenant world on a Cornice core (R172). -/
  akmask : Option Nat := none
  /-- DMA agent or engine: D is required (R173). -/
  dma : Bool := false
  /-- The load that froze the page (R173). -/
  loads : Bool := false
  deriving DecidableEq, Repr

/-- The owner check of one page (R173). -/
def W.ownOk (w : W) (who : Who) (acc : Acc3) (pa : Nat) : Bool :=
  if !w.flag F.OWN_CTL_EN then decide (who.world = 0)
  else if !w.worldActive who.world then false
  else
    match w.ownEntry pa with
    | none => false
    | some e =>
      if e.st = 1 then
        if who.world = 0 then decide (acc ≠ .ex) || e.owner = 0
        else
          decide (e.owner = who.world) &&
          (match acc with | .rd => e.r | .wr => e.w | .ex => e.x) &&
          (!who.dma || e.d) &&
          (match who.akmask with | some m => nbit m e.ksel | none => true)
      else if e.st = 2 then
        (match acc with | .rd => true | .wr => false | .ex => who.world ≠ 0 && e.x) && (match who.akmask with | some m => who.world = 0 || nbit m e.ksel | none => true)
      else if e.st = 3 then who.loads && decide (e.owner = who.world) && acc = .wr
      else false

/-- A refused access: OWN.CHECK with the agent, the acting world and the address, and the world's count (R166, R173, R346). -/
def W.ownRefuse (w : W) (who : Who) (pa : Nat) : W :=
  (w.worldCnt who.world 7).report { cls := 0x28, level := 0, src := who.src, world := who.world, detail := pa }

/-- The memory type of an address for an agent that does not translate: 0 NORMAL, 1 NORMAL-NC, 2 DEVICE (R175, R283, R302). -/
def W.mtype (w : W) (pa : Nat) : Nat :=
  match w.pkind pa with
  | .dev _ => 2
  | .tcm _ _ => 1
  | .scratch _ _ => 1
  | _ => match w.region pa with
    | some i => w.get F.OWN_RGNA_MTYPE i
    | none => 0

/-- Whether a control-window address lies in a pin page that the world owns: a world that is not ACTIVE passes no check, and no tenant passes one while
OWN.CTL.EN is 0 (R173, R183). -/
def W.pinPageOk (w : W) (world off : Nat) : Bool :=
  w.flag F.OWN_CTL_EN && w.worldActive world && decide (0xF00000 ≤ off) && decide (off < 0xF30000) && decide (w.get F.OWN_PINOWN_WORLD ((off - 0xF00000) / 4096) = world)

/-- Scratch ways of a slice whose content stands, the end of a change in progress taken first (R271, R272). -/
def W.scrWays (w : W) (s : Nat) : Nat := Tab.getD w.dev.coh.scrNew s (w.get F.SNP_SLICECTL_SCRWAYS s)

/-- Whether an agent may reach a physical address at all, by its range (R167, R173, R183, R223, R271, R283). -/
def W.physOk (w : W) (who : Who) (acc : Acc3) (pa : Nat) : Bool :=
  match w.pkind pa with
  | .none => false
  | .dev off => who.world = 0 || w.pinPageOk who.world off
  | .tcm _ _ => who.world = 0
  | .scratch s off => decide (off < w.scrWays s * 0x40000) && w.ownOk who acc pa
  | _ => w.ownOk who acc pa

/-- Record a refusal under the class its range names (R184, R271). -/
def W.physRefuse (w : W) (who : Who) (pa : Nat) : W :=
  match w.pkind pa with
  | .scratch s off =>
    if off < w.scrWays s * 0x40000 then w.ownRefuse who pa
    else (w.worldCnt who.world 7).report { cls := 0x2E, level := 0, src := who.src, world := who.world, detail := pa }
  | _ => w.ownRefuse who pa

/-- The 4 KiB pages that `n` bytes from `a` touch. -/
def pagesOf (a n : Nat) : List Nat :=
  if n = 0 then [] else (upto (a / 4096) ((a + n - 1) / 4096 + 1 - a / 4096)).map (· * 4096)

/-- The owner check of every page that a unit's access touches. -/
def W.rangeOk (w : W) (who : Who) (acc : Acc3) (a n : Nat) : Bool := (pagesOf a n).all fun p => w.physOk who acc p

/-- A write by a unit under its owner check; none when the check fails, with the record made by the caller. -/
def W.unitWrite (w : W) (who : Who) (a : Nat) (bs : List Byte) : Option W :=
  if w.rangeOk who .wr a bs.length then some (w.dmaWrite a bs) else none

/-- The owner attribute 0x0000 of channel engines, journal, spill, save and kernel store accesses (R182). -/
def cirqueWho (src : Nat) : Who := { world := 0, src := src, dma := true }

/-! ### Translation (R179 to R181) -/

/-- Why a walk ended (R180). The numbers in the record's DETAIL are DESIGN CHOICE (assumption 9). -/
inductive WalkWhy where
  | device | nonnormal | notowned | invalid | reserved | align | tag | rights
  deriving DecidableEq, Repr

/-- The number of a walk reason in DETAIL (assumption 9). -/
def WalkWhy.num : WalkWhy → Nat
  | .device => 1 | .nonnormal => 2 | .notowned => 3 | .invalid => 4 | .reserved => 5 | .align => 6 | .tag => 7 | .rights => 8

/-- A walk that failed: step level, entry address and reason (R180). -/
structure WalkFail where
  /-- Step level. -/
  level : Nat
  /-- Entry address. -/
  addr : Nat
  /-- Reason. -/
  why : WalkWhy
  deriving DecidableEq, Repr

/-- Whether a walk step may read its entry (R180). -/
def W.stepCheck (w : W) (world ea : Nat) : Option WalkWhy :=
  match w.pkind ea with
  | .dev _ => some .device
  | _ =>
    match w.region ea with
      | none => some .nonnormal
      | some i =>
        if w.get F.OWN_RGNA_MTYPE i ≠ 0 then some .nonnormal
        else if world = 0 && !w.flag F.OWN_CTL_EN then none
        else if !w.worldActive world then some .notowned
        else if !w.flag F.OWN_CTL_EN then some .notowned
        else match w.ownEntry ea with
          | none => some .notowned
          | some e => if (e.st = 1 || e.st = 2) && e.owner = world then none else some .notowned

/-- The checks of an entry's own content at a level, up to the rights (R179, R180). -/
def W.entryCheck (w : W) (world level : Nat) (x : TWord) : Option WalkWhy :=
  let v := x.val.toNat
  let leaf := nbit v 5
  let shift := 39 - 9 * level
  if x.tag = tPOISON || x.tag = tCODE || x.tag = tHND then some .tag
  else if !nbit v 0 then some .invalid
  else if nbit v 63 || nbits v 60 46 ≠ 0 || nbits v 11 6 ≠ 0 || nbit v 1 then some .reserved
  else if (level = 0 && leaf) || (level = 3 && !leaf) then some .reserved
  else if nbits v 62 61 = 3 || (!leaf && nbits v 62 61 ≠ 0) then some .reserved
  else if leaf && (nbits v 45 12 * 4096) % 2 ^ shift ≠ 0 then some .align
  else if leaf && nbits v 62 61 = 2 && world ≠ 0 then
    match w.pkind (nbits v 45 12 * 4096) with
    | .dev off => if level = 3 && w.pinPageOk world off then none else some .device
    | _ => some .device
  else none

/-- Walk the tables from a level on (R179); `fuel` counts the levels left. -/
def W.walkFrom (w : W) (world va : Nat) : Nat → Nat → Except WalkFail TlbEntry
  | 0, t => .error ⟨3, t, .invalid⟩
  | fuel + 1, t =>
    let level := 3 - fuel
    let shift := 39 - 9 * level
    let ea := t + (va >>> shift) % 512 * 8
    match w.stepCheck world ea with
    | some why => .error ⟨level, ea, why⟩
    | none =>
      let x := w.rdWord (ea / 8)
      match w.entryCheck world level x with
      | some why => .error ⟨level, ea, why⟩
      | none =>
        let v := x.val.toNat
        let pa := nbits v 45 12 * 4096
        if nbit v 5 then
          .ok { world := world, vpn := va / 4096, ppn := (pa + va % 2 ^ shift) / 4096, mtype := nbits v 62 61,
                r := nbit v 2, w := nbit v 3, x := nbit v 4, shift := shift, leaf := ea }
        else w.walkFrom world va fuel pa

/-- ROOT of a world (R163, R181). -/
def W.rootOf (w : W) (world : Nat) : Nat :=
  if world = 0 then w.dev.root0 else match Tab.find? w.dev.worlds world with | some r => r.root | none => 0

/-- The whole walk (R179). -/
def W.walk (w : W) (world va : Nat) : Except WalkFail TlbEntry := w.walkFrom world va 4 (w.rootOf world)

/-- The right an access needs, in a leaf (R179). -/
def TlbEntry.allows (e : TlbEntry) : Acc3 → Bool
  | .rd => e.r
  | .wr => e.w
  | .ex => e.x

/-- A right that the leaf lacks: its step level and entry (R180). -/
def TlbEntry.noRight (e : TlbEntry) : WalkFail := ⟨(39 - e.shift) / 9, e.leaf, .rights⟩

/-- Record a failed walk under OWN.WALK (R180, R184, assumption 9). -/
def W.walkRefuse (w : W) (src world : Nat) (f : WalkFail) : W :=
  w.report { cls := 0x29, level := 0, src := src, world := world, sub := 8,
             detail := f.why.num * 2 ^ 56 + f.level * 2 ^ 52 + f.addr }

/-- Translate for an HK7 unit that takes a tenant virtual address; every walk is fresh (R181 permits it, assumption 10). -/
def W.xlate (w : W) (world va : Nat) (acc : Acc3) : Except WalkFail (Nat × Nat) :=
  match w.walk world va with
  | .error f => .error f
  | .ok e => if e.allows acc then .ok (e.ppn * 4096 + va % 4096, e.mtype) else .error e.noRight

/-! ### Cache metadata (R261 to R268, R286 to R292) -/

/-- Home slice of a line (R265). -/
def W.homeSlice (w : W) (h : Nat) : Nat :=
  let f := Nat.xor (Nat.xor (nbits h 15 0) (nbits h 31 16)) (nbits h 39 32)
  if w.dev.coh.slices = 0 then 0 else f % w.dev.coh.slices

/-- Snowpack set of a line (R265). -/
def homeSet (h : Nat) : Nat :=
  Nat.xor (Nat.xor (nbits h 11 0) (nbits h 23 12)) (Nat.xor (nbits h 35 24) (nbits h 39 36))

/-- Change the coherence state. -/
def W.modCoh (w : W) (f : CohSt → CohSt) : W := { w with dev := { w.dev with coh := f w.dev.coh } }

/-- L2 set of a line: pa[16:6] on Cornice (mesh ID below 16), pa[17:6] on Floe (R261). -/
def l2Set (l2 line : Nat) : Nat := if l2 < 16 then line % 2048 else line % 4096

/-- The key of a line's way in an L2. -/
def l2Key (l2 line way : Nat) : Nat := l2 * 2 ^ 20 + l2Set l2 line * 16 + way

/-- The way of an L2 that holds a line (R286). -/
def W.l2Way (w : W) (l2 line : Nat) : Option Nat :=
  (List.range 16).find? fun k =>
    match Tab.find? w.dev.coh.l2 (l2Key l2 line k) with | some c => c.line = line | none => false

/-- The state of a line in an L2; none for I (R286). -/
def W.l2St (w : W) (l2 line : Nat) : Option LineSt :=
  (w.l2Way l2 line).bind fun k => (Tab.find? w.dev.coh.l2 (l2Key l2 line k)).map CLine.st

/-- Set or drop a line's state in an L2 that holds it. -/
def W.l2Put (w : W) (l2 line : Nat) (st : Option LineSt) : W :=
  match w.l2Way l2 line with
  | none => w
  | some k => w.modCoh fun c => { c with l2 := match st with
      | some s => Tab.modify c.l2 (l2Key l2 line k) fun x => { x with st := s }
      | none => Tab.del c.l2 (l2Key l2 line k) }

/-- The key of a line's way in a slice. -/
def W.snpKey (_w : W) (slice line way : Nat) : Nat := slice * 2 ^ 20 + homeSet line * 16 + way

/-- The way of its home slice that holds a line. -/
def W.snpWay (w : W) (line : Nat) : Option Nat :=
  let s := w.homeSlice line
  (List.range 16).find? fun k =>
    match Tab.find? w.dev.coh.snp (w.snpKey s line k) with | some c => c.line = line | none => false

/-- A line's 64 bytes and 8 tags as they stand. -/
def W.lineImage (w : W) (line : Nat) : List Byte × List Tag := (w.bytes (line * 64) 64, (upto (line * 8) 8).map w.tagOf)

/-- Make a line's 64 bytes and 8 tags those given. -/
def W.putLine (w : W) (line : Nat) (x : List Byte × List Tag) : W :=
  (List.range 8).foldl (fun (w : W) (k : Nat) => w.putTag (line * 8 + k) (x.2.getD k 0)) (w.putBytes (line * 64) x.1)

/-- A clean stale slice copy goes: what memory holds below it shows again (R276). -/
def W.uncover (w : W) (c : CLine) : W :=
  match c.stale with
  | some x => if c.st = .M then w else w.putLine c.line x
  | none => w

/-- Drop the slice copy of a line, if the slice holds one (R287). -/
def W.snpDrop (w : W) (line : Nat) : W :=
  match w.snpWay line with
  | none => w
  | some k =>
    let key := w.snpKey (w.homeSlice line) line k
    let w := match Tab.find? w.dev.coh.snp key with | some c => w.uncover c | none => w
    w.modCoh fun c => { c with snp := Tab.del c.snp key }

/-- One step of the LFSR of R268. -/
def lfsrStep (l : Nat) : Nat :=
  let b := Nat.xor (Nat.xor (nbits l 0 0) (nbits l 2 2)) (Nat.xor (nbits l 3 3) (nbits l 5 5))
  l / 2 + b * 32768

/-- The victim of R266 among eligible ways: the way, and the new ages of the eligible ways. Ways are given with their age, or
none when invalid. -/
def ageVictim (ways : List (Nat × Option Nat)) : Option (Nat × Nat) :=
  match ways.find? fun p => p.2.isNone with
  | some p => some (p.1, 0)
  | none =>
    let m := ways.foldl (fun a p => max a (p.2.getD 0)) 0
    match ways.find? fun p => p.2 = some m with
    | some p => some (p.1, 3 - m)
    | none => none

/-- The next eligible way from `k` up, wrapping from 15 to 0 (R268). -/
def nextEligible (ok : Nat → Bool) (k : Nat) : Option Nat :=
  ((List.range 16).map fun d => (k + d) % 16).find? ok

/-- Choose a way for a fill in a table of ways (R266, R268): the way, and the table with its ages raised; and the LFSR. -/
def pickWay (t : Tab CLine) (key : Nat → Nat) (ok : Nat → Bool) (repl : Bool) (lfsr : Nat) : Option (Nat × Tab CLine × Nat) :=
  let elig := (List.range 16).filter ok
  let ways := elig.map fun k => (k, (Tab.find? t (key k)).map CLine.age)
  if repl then
    match ways.find? fun p => p.2.isNone with
    | some p => some (p.1, t, lfsr)
    | none =>
      let l := lfsrStep lfsr
      (nextEligible ok (l % 16)).map fun k => (k, t, l)
  else
    match ageVictim ways with
    | none => none
    | some (k, up) => some (k, elig.foldl (fun t j => Tab.modify t (key j) fun c => { c with age := c.age + up }) t, lfsr)

/-- The LFSR of a slice or L2; unlisted: the seed (R268). -/
def W.lfsrOf (w : W) (i : Nat) : Nat := Tab.getD w.dev.coh.lfsr i 0xACE1

/-- Ways of a slice that fills may take: not scratch, and not being converted (R271, R272). -/
def W.snpWayOk (w : W) (s k : Nat) : Bool :=
  let n := max (w.get F.SNP_SLICECTL_SCRWAYS s) (Tab.getD w.dev.coh.scrNew s 0)
  decide (k < 16 - n)

/-- A DIRTY line leaves a slice through its victim buffer (R292). -/
def W.evictSnp (w : W) (s : Nat) (c : CLine) : W :=
  let w := w.uncover c
  if c.st = .M then
    let held := w.dev.coh.victims.filter fun p => p.1 = s
    let w := if 32 ≤ held.length then w.bump F.COH_VBFULL_COUNT 1 s else w
    w.modCoh fun x => { x with victims := x.victims ++ [(s, c.line)] }
  else w

/-- The age of a line that a fill brings in: 3 of a streaming fill, 1 of another; under the random method no ages are kept, and what it reads as
later is a free value (R266, R268, assumption 106). -/
def W.fillAge (w : W) (streaming : Bool) : Nat × W :=
  if w.flag F.SNP_CTL_REPL then (w.fresh.1.toNat % 4, w.fresh.2) else (if streaming then 3 else 1, w)

/-- The age of a line that was hit: 0, but unchanged under the random method (R266, R268). -/
def W.hitAge (w : W) (age : Nat) : Nat := if w.flag F.SNP_CTL_REPL then age else 0

/-- A hit in the home slice (R266). -/
def W.snpYoung (w : W) (line : Nat) : W :=
  match w.snpWay line with
  | some k => w.modCoh fun c => { c with snp := Tab.modify c.snp (w.snpKey (w.homeSlice line) line k) fun x => { x with age := w.hitAge x.age } }
  | none => w

/-- A hit in an L2 (R266). -/
def W.l2Young (w : W) (l2 line : Nat) : W :=
  match w.l2Way l2 line with
  | some k => w.modCoh fun c => { c with l2 := Tab.modify c.l2 (l2Key l2 line k) fun x => { x with age := w.hitAge x.age } }
  | none => w

/-- Fill a line into its home slice; streaming fills enter at age 3, demand fills at 1 (R263, R266). -/
def W.snpFill (w : W) (line : Nat) (streaming : Bool) (st : LineSt) : W :=
  let s := w.homeSlice line
  if w.dev.coh.slices = 0 || !w.flag F.SNP_SLICECTL_EN s then w
  else match w.snpWay line with
    | some k => w.modCoh fun c => { c with snp := Tab.modify c.snp (w.snpKey s line k) fun x =>
        { x with age := w.hitAge x.age, st := if st = .M then .M else x.st, stale := if st = .M then none else x.stale } }
    | none =>
      match pickWay w.dev.coh.snp (w.snpKey s line) (w.snpWayOk s) (w.flag F.SNP_CTL_REPL) (w.lfsrOf s) with
      | none => w
      | some (k, t, l) =>
        let old := Tab.find? t (w.snpKey s line k)
        let w := match old with | some c => w.evictSnp s c | none => w
        let (age, w) := w.fillAge streaming
        w.modCoh fun c => { c with
          snp := Tab.put t (w.snpKey s line k) { line := line, st := st, age := age }
          lfsr := Tab.putD 0xACE1 c.lfsr s l }

end Sys2Proof.Machine
end

