-- ==== Sys2Proof/Machine/Coh.lean ====
section
/-! DEFINITION. The coherence protocol at the home slice: requests, snoops, the directory, evictions, victim buffers,
reservations and the cache operations (R209, R262 to R277, R284 to R299). The data of every line is the one coherent image
in memory; this file moves the states. -/

namespace Sys2Proof.Machine

open Sys2Proof

/-- A line of memory: address / 64. -/
def lineOf (pa : Nat) : Nat := pa / 64

/-- The cluster L2 mesh ID of a core (R221, R284; a Floe cluster has nine cores, R140). -/
def coreL2 : CoreId → Nat
  | .crn p => p / 4
  | .flo n => 16 + n / 9

/-- The cores of an L2's cluster, by key. -/
def l2Cores (l2 : Nat) : List CoreId :=
  if l2 < 16 then (upto (4 * l2) 4).map .crn else (upto (9 * (l2 - 16)) 9).map .flo

/-! ### L1 lines (R225, R261, R262, R267, R274) -/

/-- D-L1 and I-L1 set of a line; a Floe I-L1 has 128 sets (R261). -/
def l1Set (c : CoreId) (icache : Bool) (line : Nat) : Nat :=
  match c, icache with
  | .flo _, true => line % 128
  | _, _ => line % 256

/-- The way of an L1 that holds a line. -/
def l1Way (t : Tab L1Line) (set line : Nat) : Option Nat :=
  (List.range 4).find? fun k => match Tab.find? t (set * 4 + k) with | some x => x.line = line | none => false

/-- The line in an L1, if held. -/
def l1Find (t : Tab L1Line) (set line : Nat) : Option L1Line :=
  (l1Way t set line).bind fun k => Tab.find? t (set * 4 + k)

/-- Drop a line from an L1 table unless it is a stale copy that no snoop reaches (R274). -/
def l1Drop (t : Tab L1Line) (set line : Nat) : Tab L1Line :=
  match l1Way t set line with
  | some k => (match Tab.find? t (set * 4 + k) with
    | some x => if x.stale.isSome then t else Tab.del t (set * 4 + k)
    | none => t)
  | none => t

/-- Remove a line from every L1 of an L2's cluster (R262). -/
def W.dropL1s (w : W) (l2 line : Nat) : W :=
  (l2Cores l2).foldl (fun w c =>
    if Tab.has w.dev.cores (coreKey c) then
      w.modCore c fun x => { x with il1 := l1Drop x.il1 (l1Set c true line) line, dl1 := l1Drop x.dl1 (l1Set c false line) line }
    else w) w

/-! ### Reservations (R209, R298, R299) -/

/-- A store by `who` (a core, or none for any other agent) to a line clears the reservations of the other cores on it. -/
def W.breakResv (w : W) (who : Option CoreId) (tcm : Option Nat) (line : Nat) : W :=
  { w with dev := { w.dev with cores := Tab.mapVal w.dev.cores fun k x =>
      match x.resv with
      | some r =>
        if r.line = line && (match tcm with | some p => r.tcm && k = p | none => !r.tcm) && (who.map coreKey ≠ some k) then
          { x with resv := none, lrUsed := false } else x
      | none => x } }

/-- The cores of an L2's cluster that hold a reservation on a line. -/
def W.resvCores (w : W) (l2 line : Nat) : List CoreId :=
  (l2Cores l2).filter fun c => (w.core c).resv = some ⟨false, line⟩

/-- A snoop that takes the line away ends the reservations of the cluster (R298). -/
def W.loseResv (w : W) (l2 line : Nat) : W :=
  (w.resvCores l2 line).foldl (fun w c => w.modCore c fun x => { x with resv := none, lrUsed := false }) w

/-! ### Directory (R287) -/

/-- The directory entry of a line. -/
def W.dirOf (w : W) (line : Nat) : Option DirEntry := Tab.find? w.dev.coh.dir line

/-- Set or drop a directory entry. -/
def W.setDir (w : W) (line : Nat) (e : Option DirEntry) : W :=
  w.modCoh fun c => { c with dir := match e with | some x => Tab.put c.dir line x | none => Tab.del c.dir line }

/-- Every L2 that a directory entry names. -/
def DirEntry.holders (e : DirEntry) : List Nat := (match e.owner with | some o => [o] | none => []) ++ e.sharers

/-- Index of a line in the contention predictor: pa[10:6] xor pa[15:11] (R296). -/
def predIdx (line : Nat) : Nat := Nat.xor (line % 32) (line / 32 % 32)

/-- A contention counter moves up or down within 0 to 3 (R296). -/
def Core.predMove (x : Core) (line : Nat) (up : Bool) : Core :=
  let k := predIdx line
  let n := Tab.getD x.pred k 0
  { x with pred := Tab.putD 0 x.pred k (if up then min 3 (n + 1) else n - 1) }

/-- A snoop takes a line away: the counter of a core whose near atomic brought it in at most 256 CORE cycles ago rises (R296). -/
def W.predSnoop (w : W) (l2 line : Nat) : W :=
  (l2Cores l2).foldl (fun (w : W) (c : CoreId) =>
    match (w.core c).near with
    | some (n, t) => if n = line && decide (w.now ≤ t + 170) then w.modCore c fun x => { (x.predMove line true) with near := none } else w
    | none => w) w

/-- An L2's answer to SnpInv or SnpI: the line goes to I, in its L1s too (R289). -/
def W.snoopInv (w : W) (l2 line : Nat) : W := (((w.predSnoop l2 line).l2Put l2 line none).dropL1s l2 line).loseResv l2 line

/-- An L2's answer to SnpS: M to O, O stays, E to S, S stays (R289). -/
def W.snoopS (w : W) (l2 line : Nat) : W :=
  match w.l2St l2 line with
  | some .M => w.l2Put l2 line (some .O)
  | some .E => w.l2Put l2 line (some .S)
  | _ => w

/-- Invalidate every copy of a line but one agent's (R288); the home never snoops the requester itself (R290). -/
def W.invalidateOthers (w : W) (line : Nat) (but : Option Nat) : W :=
  match w.dirOf line with
  | none => w
  | some e => (e.holders.filter fun h => some h ≠ but).foldl (fun w h => w.snoopInv h line) w

/-- Lines of one slice's directory set (R287). -/
def W.dirSet (w : W) (line : Nat) : List (Nat × DirEntry) :=
  w.dev.coh.dir.filter fun p => homeSet p.1 = homeSet line && w.homeSlice p.1 = w.homeSlice line

/-- A back-invalidation: every copy that an entry tracks is invalidated and the entry goes (R287). -/
def W.backInvalidate (w : W) (line : Nat) : W :=
  let w := w.invalidateOthers line none
  (w.setDir line none).bump F.COH_DIRCNT_COUNT 1 (w.homeSlice line)

/-- Make room for a new directory entry: the first entry not recently used of a full set is evicted; when all are, their
bits are cleared first (R287; which of several is DESIGN CHOICE, assumption 11). -/
def W.dirRoom (w : W) (line : Nat) : W :=
  let set := w.dirSet line
  if (w.dirOf line).isSome || set.length < 16 then w
  else
    match set.find? fun p => !p.2.used with
    | some p => w.backInvalidate p.1
    | none =>
      let w := set.foldl (fun w p => w.setDir p.1 (some { p.2 with used := false })) w
      match set.head? with
      | some p => w.backInvalidate p.1
      | none => w

/-- Record holders of a line (R287); no holder: no entry. -/
def W.track (w : W) (line : Nat) (owner : Option Nat) (owned : Bool) (sharers : List Nat) : W :=
  if owner.isNone && sharers.isEmpty then w.setDir line none
  else (w.dirRoom line).setDir line (some ⟨owner, owned, sharers.filter fun s => some s ≠ owner, true⟩)

/-! ### Victim buffers and memory (R292) -/

/-- Whether a line waits in the victim buffer of its slice. -/
def W.inVictim (w : W) (line : Nat) : Bool := w.dev.coh.victims.any fun p => p.1 = w.homeSlice line && p.2 = line

/-- A request that changes a line in the victim buffer first takes a copy of it back as DIRTY (R292). -/
def W.takeBack (w : W) (line : Nat) : W :=
  if w.inVictim line && (w.snpWay line).isNone then w.snpFill line false .M else w

/-! ### L2 fills and evictions (R266, R287, R288) -/

/-- An L2 writes back or gives notice of a line it evicts: WbD for M and O, Evc for S and E (R287, R288). -/
def W.evictNotice (w : W) (l2 : Nat) (c : CLine) : W :=
  let dirty := c.st = .M || c.st = .O
  -- a stale copy that was written overwrites the whole line in memory (R276)
  let w := match c.stale with | some x => if c.st = LineSt.M then w.putLine c.line x else w | none => w
  match w.dirOf c.line with
  | none => w
  | some e =>
    if !(e.holders.contains l2) then w
    else
      let w := if dirty then w.snpFill c.line false .M else w
      let owner := if e.owner = some l2 then none else e.owner
      w.track c.line owner (e.owned && owner.isSome) (e.sharers.filter fun s => s ≠ l2)

/-- Ways of a Floe L2 that a world may fill: its own entry's, or the default's (R158). A Cornice L2 has no masks. -/
def W.l2WayOk (w : W) (l2 world k : Nat) : Bool :=
  if l2 < 16 then true
  else
    let c := l2 - 16
    match (List.range 16).find? fun j => w.get F.FLO_L2MASK_WORLD (c * 16 + j) = world && world ≠ 0xFFFF with
    | some j => nbit (w.get F.FLO_L2MASK_WAYS (c * 16 + j)) k
    | none => nbit (w.get F.FLO_L2DEF_WAYS c) k

/-- Whether a cluster L2 is enabled (R274). -/
def W.l2En (w : W) (l2 : Nat) : Bool := if l2 < 16 then w.flag F.CRN_L2CTL_EN l2 else w.flag F.FLO_L2CTL_EN (l2 - 16)

/-- Place a line in an L2 with a state, evicting a victim under R266 or R268; its L1 copies go first (R262). -/
def W.l2Fill (w : W) (l2 world line : Nat) (st : LineSt) (streaming : Bool) : W :=
  if !w.l2En l2 then w
  else match w.l2Way l2 line with
    | some k =>
      -- a stale copy that the directory comes to know is the line's content from then on (R276)
      let w := match Tab.find? w.dev.coh.l2 (l2Key l2 line k) with
        | some c => (match c.stale with | some x => if st = LineSt.M then w.putLine line x else w | none => w)
        | none => w
      w.modCoh fun c => { c with l2 := Tab.modify c.l2 (l2Key l2 line k) fun x => { x with st := st, age := w.hitAge x.age, stale := if st = LineSt.M then none else x.stale } }
    | none =>
      match pickWay w.dev.coh.l2 (l2Key l2 line) (w.l2WayOk l2 world) (w.flag F.SNP_CTL_REPL) (w.lfsrOf (64 + l2)) with
      | none => w
      | some (k, t, l) =>
        let old := Tab.find? t (l2Key l2 line k)
        let w := match old with
          | some c => ((w.dropL1s l2 c.line).loseResv l2 c.line).evictNotice l2 c
          | none => w
        let (age, w) := w.fillAge streaming
        w.modCoh fun c => { c with
          l2 := Tab.put (match old with | some o => Tab.del t (l2Key l2 o.line k) | none => t) (l2Key l2 line k)
            { line := line, st := st, age := age }
          lfsr := Tab.putD 0xACE1 c.lfsr (64 + l2) l }

/-! ### Requests at the home (R288) -/

/-- RdS: the requester ends in S, or in E when no L2 held the line; the home slice takes a copy, as a streaming fill for a prefetch (R263, R270,
R288). A copy beside an owner in O is older than the owner's (R287). -/
def W.rdS (w : W) (l2 world line : Nat) (streaming : Bool := false) : W :=
  match w.dirOf line with
  | some e =>
    let w := match e.owner with | some o => if o = l2 then w else w.snoopS o line | none => w
    -- an owner in E or M becomes a sharer (from E) or stays the owner in O (from M)
    let keep := e.owner.filter fun o => w.l2St o line = some .O
    let sh := (match e.owner with | some o => if some o = keep then [] else [o] | none => []) ++ e.sharers ++ [l2]
    let w := (w.track line keep keep.isSome (sh.eraseDups)).snpFill line streaming .S
    w.l2Fill l2 world line .S streaming
  | none =>
    let w := w.takeBack line
    let w := w.snpFill line streaming .S
    let w := w.track line (some l2) false []
    w.l2Fill l2 world line .E streaming

/-- RdX: every other copy goes, the requester ends in M. -/
def W.rdX (w : W) (l2 world line : Nat) : W :=
  let w := ((w.invalidateOthers line (some l2)).takeBack line).snpYoung line
  let w := w.track line (some l2) false []
  w.l2Fill l2 world line .M false

/-- Upg: as RdX without data; from an L2 that no longer holds the line it is handled as RdX (R291). -/
def W.upg (w : W) (l2 world line : Nat) : W := w.rdX l2 world line

/-- WbD from an L2 that the directory names: the slice copy is DIRTY; otherwise acknowledged without writing (R288, R291). -/
def W.wbD (w : W) (l2 line : Nat) : W :=
  match w.l2St l2 line with
  | some st => (((w.dropL1s l2 line).loseResv l2 line).evictNotice l2 { line := line, st := if st = .O then .O else .M, age := 0 }).l2Put l2 line none
  | none => w

/-- Evc from an L2 in S or E (R288, R291). -/
def W.evc (w : W) (l2 line : Nat) : W :=
  match w.l2St l2 line with
  | some st => if st = .S || st = .E then
      (((w.dropL1s l2 line).loseResv l2 line).evictNotice l2 { line := line, st := st, age := 0 }).l2Put l2 line none else w
  | none => w

/-- RdNC: a holder keeps its state; without one a NORMAL access (`alloc`) is a streaming fill, and a NORMAL-NC one is served from a line that the
slice holds and allocates nothing (R263, R288). -/
def W.rdNC (w : W) (line : Nat) (alloc : Bool := true) : W :=
  if (w.dirOf line).isNone && alloc && decide (w.mtype (line * 64) = 0) then w.snpFill line true .S else w.snpYoung line

/-- WrL and WrP: every copy goes, the slice copy takes the line DIRTY (R288); a NORMAL-NC write (not `alloc`) allocates none (R263). -/
def W.wrHome (w : W) (line : Nat) (alloc : Bool := true) : W :=
  let w := ((w.invalidateOthers line none).takeBack line).setDir line none
  let w := w.breakResv none none line
  if (alloc && decide (w.mtype (line * 64) = 0)) || (w.snpWay line).isSome then w.snpFill line true .M else w

/-- The lines that `n` bytes from `pa` touch. -/
def linesOf (pa n : Nat) : List Nat := if n = 0 then [] else upto (pa / 64) ((pa + n - 1) / 64 + 1 - pa / 64)

/-- A write by a non-caching unit to memory, through the protocol (R263, R310): bytes with tag RAW. -/
def W.unitStore (w : W) (pa : Nat) (bs : List Byte) : W :=
  ((linesOf pa bs.length).foldl (fun (w : W) (l : Nat) => w.wrHome l) (w.cxlNote pa)).dmaWrite pa bs

/-- A read by a non-caching unit (R263, R310). -/
def W.unitTouch (w : W) (pa n : Nat) : W := (linesOf pa n).foldl (fun w l => w.rdNC l) (w.cxlNote pa)

/-- A unit's checked store under owner attribute 0x0000 or a world (R182); none when refused. -/
def W.storeAs (w : W) (who : Who) (pa : Nat) (bs : List Byte) : Option W :=
  if w.rangeOk who .wr pa bs.length then some (w.unitStore pa bs) else none

/-- A unit's checked little-endian read; none when refused. -/
def W.loadAs (w : W) (who : Who) (pa n : Nat) : Option (Nat × W) :=
  if w.rangeOk who .rd pa n then some (w.le pa n, w.unitTouch pa n) else none

/-- A Floe L2 hits only in the ways of the world that asks: a copy in another world's way leaves first (R158). -/
def W.l2Own (w : W) (l2 world line : Nat) : W :=
  match w.l2Way l2 line with
  | some k =>
    if w.l2WayOk l2 world k then w
    else match Tab.find? w.dev.coh.l2 (l2Key l2 line k) with
      | some c =>
        let w := ((w.dropL1s l2 line).loseResv l2 line).evictNotice l2 c
        w.modCoh fun q => { q with l2 := Tab.del q.l2 (l2Key l2 line k) }
      | none => w
  | none => w

/-! ### A core's access and its L1 (R225, R261, R267, R269, R270) -/

/-- The way an L1 fill takes: the lowest invalid one, else the lowest whose bit is 0 (R267). -/
def l1Pick (t : Tab L1Line) (set : Nat) : Nat :=
  let way k := Tab.find? t (set * 4 + k)
  match (List.range 4).find? fun k => (way k).isNone with
  | some k => k
  | none => ((List.range 4).find? fun k => match way k with | some y => !y.used | none => false).getD 0

/-- A hit sets the bit of the line's way (R267), and a store makes the line dirty. A stale line that another world hits takes its world, with the
write grant that its check gave (R225, R276). -/
def l1Hit (t : Tab L1Line) (set line world : Nat) (grant store : Bool) : Tab L1Line :=
  match l1Way t set line with
  | some k => Tab.modify t (set * 4 + k) fun e =>
      { e with used := true, dirty := e.dirty || store, world := world, wgrant := if e.world = world ∧ e.wgrant then true else grant }
  | none => t

/-- A fill sets the bit of its way; when that would leave every bit of the set at 1, the other three are cleared first (R267). -/
def l1Mark (t : Tab L1Line) (set k : Nat) : Tab L1Line :=
  let all := (List.range 4).all fun j => j = k || (match Tab.find? t (set * 4 + j) with | some y => y.used | none => false)
  let t := if all then (List.range 4).foldl (fun t j =>
    if j = k then t else Tab.modify t (set * 4 + j) fun y => { y with used := false }) t else t
  Tab.modify t (set * 4 + k) fun y => { y with used := true }

/-- A stale line that was written since the L1 was enabled again overwrites its 64 bytes and tags in memory (R276). -/
def W.staleBack (w : W) (x : L1Line) : W :=
  match x.stale with
  | some s => if x.dirty then w.putLine x.line s else w
  | none => w

/-- Put a line into a core's D-L1, writing back the line it displaces (R267, R276). -/
def W.dl1Fill (w : W) (c : CoreId) (set : Nat) (e : L1Line) : W :=
  let t := l1Drop (w.core c).dl1 set e.line
  let k := l1Pick t set
  let w := match Tab.find? t (set * 4 + k) with | some v => w.staleBack v | none => w
  w.modCore c fun x => { x with dl1 := l1Mark (Tab.put t (set * 4 + k) e) set k }

/-- Whether a core's D-L1 is enabled: CORECTL.DL1EN and not deterministic mode (R233, R246). -/
def Core.dl1En (x : Core) : Bool := x.corectl.getLsbD 1 && !x.corectl.getLsbD 5

/-- Whether a core's I-L1 is enabled (R233, R246). -/
def Core.il1En (x : Core) : Bool := x.corectl.getLsbD 2 && !x.corectl.getLsbD 5

/-- A stride in lines from −32 to 32 that is not 0, from a free value (R269, assumption 106). -/
def strideOf (v : Word) : Int := let k : Int := (v.toNat % 64 : Nat); if k < 32 then k - 32 else k - 31

/-- Train the stride prefetcher on a D-L1 miss: the entries, and the stride of one that triggers (R269, R270). `s0` is the stride of a new
entry. -/
def pfTrain (es : List PfEntry) (s0 : Int) (pc world line : Nat) : List PfEntry × Option Int :=
  match es.find? fun e => e.pc = pc && e.world = world with
  | some e =>
    let d : Int := (line : Int) - (e.last : Int)
    let e' := if d = e.stride then { e with conf := min 3 (e.conf + 1), last := line, used := true }
      else { e with stride := if -32 ≤ d && d ≤ 32 && d ≠ 0 then d else e.stride, conf := 0, last := line, used := true }
    (es.map fun x => if x.pc = pc && x.world = world then e' else x, if 2 ≤ e'.conf then some e'.stride else none)
  | none =>
    let n : PfEntry := ⟨pc, world, line, s0, 0, true⟩
    if es.length < 16 then (n :: es, none)
    else
      let es := if es.all fun x => x.used then es.map fun x => { x with used := false } else es
      match es.reverse.find? fun x => !x.used with
      | some v => (n :: es.filter (fun x => !(x.pc = v.pc && x.world = v.world)), none)
      | none => (n :: es.take 15, none)

/-- The prefetch requests of a triggering miss: lines of the same page, owner-checked, filled as streaming (R270). -/
def W.prefetch (w : W) (c : CoreId) (who : Who) (line : Nat) (stride : Int) : W :=
  let (dist, drop) := match c with
    | .crn _ => (w.get F.CRN_PFCTL_DIST, F.CRN_PFDROP_COUNT)
    | .flo _ => (w.get F.FLO_PFCTL_DIST, F.FLO_PFDROP_COUNT)
  (List.range dist).foldl (fun (w : W) (k : Nat) =>
    let t : Int := (line : Int) + ((k : Int) + 1) * stride
    if t < 0 then w
    else
      let l := t.toNat
      if l / 64 ≠ line / 64 then w
      else if !w.ownOk who .rd (l * 64) then w.bump drop
      else if (l1Find (w.core c).dl1 (l1Set c false l) l).isSome || (w.l2Way (coreL2 c) l).isSome then w
      else w.rdS (coreL2 c) who.world l true) w

/-- An event at a core, for the world whose code it runs (R415). -/
def W.coreEvent (w : W) (c : CoreId) (ev k world : Nat) : W :=
  match c with
  | .crn p => w.event .crn p ev k world
  | .flo n => w.event .flo n ev k world

/-- A NORMAL access of a core to a line: D-L1 lookup, L2 and home transactions on a miss, training (R225, R261, R263, R267, R269, R294). -/
def W.coreTouch (w : W) (c : CoreId) (who : Who) (pc pa : Nat) (store train : Bool) : W :=
  let w := w.cxlNote pa
  let line := lineOf pa
  let x := w.core c
  let l2 := coreL2 c
  let set := l1Set c false line
  let hit := match l1Find x.dl1 set line with
    | some e => e.stale.isSome || (e.world = who.world && (!store || e.wgrant))
    | none => false
  let en := match c with | .crn _ => x.dl1En | .flo _ => true
  if en && hit then
    let w := w.setCore c { x with dl1 := l1Hit x.dl1 set line who.world (w.ownOk who .wr (line * 64)) store }
    if store then (match w.l2St l2 line with
      | some .S => w.upg l2 who.world line
      | some .O => w.upg l2 who.world line
      | some .E => w.l2Put l2 line (some .M)
      | _ => w) else w
  else if !w.l2En l2 then (if store then w.wrHome line else w.rdNC line)
  else
    let w := (if en then w.coreEvent c 0x020 1 who.world else w).l2Own l2 who.world line
    let w := if (w.l2St l2 line).isNone then w.coreEvent c 0x022 1 who.world else w.l2Young l2 line
    let w := if store then (match w.l2St l2 line with
        | some .M => w
        | some .E => w.l2Put l2 line (some .M)
        | some _ => w.upg l2 who.world line
        | none => w.rdX l2 who.world line)
      else (match w.l2St l2 line with
        | some _ => w
        | none => w.rdS l2 who.world line)
    if !en then w
    else
      let wg := w.ownOk who .wr (line * 64)
      let w := w.dl1Fill c set ⟨line, who.world, wg, true, store, none⟩
      let pfEn := match c with | .crn _ => w.flag F.CRN_PFCTL_EN | .flo _ => w.flag F.FLO_PFCTL_EN
      if train && pfEn && !(w.core c).corectl.getLsbD 5 then
        let (v, w) := w.fresh
        let (es, go) := pfTrain (w.core c).pf (strideOf v) (nbits pc 13 2) who.world line
        let w := w.modCore c fun x => { x with pf := es }
        match go with
        | some s => w.prefetch c who line s
        | none => w
      else w

end Sys2Proof.Machine
end

