-- ==== Sys2Proof/Machine/Crc.lean ====
section
/-! DEFINITION. Reflected cyclic redundancy checks: CRC-32C (R220, R368) and CRC-64/XZ (R80, R316). -/

namespace Sys2Proof

/-- One bit of a reflected CRC: shift out the low bit and fold in the polynomial. -/
def crcBit (poly c : Nat) : Nat := if c % 2 = 1 then Nat.xor (c / 2) poly else c / 2

/-- One byte of a reflected CRC. -/
def crcByte (poly c : Nat) (b : Byte) : Nat := (fun c => crcBit poly (crcBit poly (crcBit poly (crcBit poly (crcBit poly (crcBit poly (crcBit poly (crcBit poly c)))))))) (Nat.xor c b.toNat)

/-- A reflected CRC register run over bytes in order. -/
def crcRun (poly : Nat) (c : Nat) (bs : List Byte) : Nat := bs.foldl (crcByte poly) c

/-- The CRC-32C polynomial, reflected (R220). -/
def crc32cPoly : Nat := 0x82F63B78

/-- CRC-32C with initial value and final XOR of all ones (R368). -/
def crc32c (bs : List Byte) : Nat := Nat.xor (crcRun crc32cPoly 0xFFFFFFFF bs) 0xFFFFFFFF

/-- CRC-64/XZ (R80). -/
def crc64 (bs : List Byte) : Nat := Nat.xor (crcRun 0xC96C5795D7870F42 0xFFFFFFFFFFFFFFFF bs) 0xFFFFFFFFFFFFFFFF

end Sys2Proof
end

