-- ==== Sys2Proof/Machine/Gates.lean ====
section
/-! DEFINITION. What several units share: logical cores and their TCMs, claims, output gates and refused register writes. -/

namespace Sys2Proof.Machine

open Sys2Proof

/-! ### Logical cores and TCMs (R221 to R223, R337) -/

/-- The physical core that serves a logical Cornice index: the pair's lead in Paired Service mode (R221, R337). -/
def W.physCore (w : W) (l : Nat) : Option Nat :=
  if w.dev.mode.strapPair then
    if w.get F.CRN_PAIRSTAT_STATE (l / 2) = 3 then none else some (w.get F.CRN_PAIRSTAT_LEAD (l / 2))
  else if w.flag F.CRN_MAP_VALID l then some (w.get F.CRN_MAP_PHYS l) else none

/-- The logical index of a physical Cornice core: the even index of its pair in Paired Service mode. -/
def W.logCore (w : W) (p : Nat) : Option Nat := (List.range 32).find? fun l => w.physCore l = some p

/-- The trailer that runs beside a lead (R338). -/
def W.trailer (w : W) (p : Nat) : Option Nat :=
  if !w.dev.mode.strapPair then none
  else (List.range 16).findSome? fun k =>
    if w.get F.CRN_PAIRSTAT_STATE k = 0 && w.get F.CRN_PAIRSTAT_LEAD k = p then some (w.get F.CRN_PAIRSTAT_TRAIL k) else none

/-- The cores whose TCMs take a write to core `p`'s TCM: both of a pair (R223, R338). -/
def W.tcmCores (w : W) (p : Nat) : List Nat := p :: (match w.trailer p with | some t => [t] | none => [])

/-- An alias write to TCM words in the undo log removes their entries (R257). -/
def W.undoDrop (w : W) (p off n : Nat) : W :=
  if Tab.has w.dev.cores p then
    w.modCore (.crn p) fun x => { x with undo := x.undo.filter fun u => !(decide (off / 8 ≤ u.1) && decide (u.1 ≤ (off + n - 1) / 8)) }
  else w

/-- A write through the alias to the TCM of a logical core, by a unit of world 0x0000 (R223, R196). It breaks a reservation on the line (R209). -/
def W.tcmPut (w : W) (l off : Nat) (bs : List Byte) : W :=
  match w.physCore l with
  | none => w
  | some p =>
    let w := (linesOf off bs.length).foldl (fun (w : W) (ln : Nat) => w.breakResv none (some p) ln) w
    let w := w.undoDrop p off bs.length
    (w.tcmCores p).foldl (fun (w : W) (q : Nat) => w.dmaWrite (tcmAddr q off) bs) w

/-- The TCM offset of a core's handshake block (R389). -/
def W.hsOff (w : W) (l : Nat) : Nat := w.get F.CIO_LOOP_HSOFF l * 16

/-- Maintenance is left by a decision on the link: an exchange of a control program that is not acknowledged is rolled back (R453). The others
complete. -/
def W.rollLoops (w : W) : W :=
  (List.range 32).foldl (fun (w : W) (l : Nat) =>
    if w.flag F.CIO_LOOP_BUSY l && !w.flag F.CIO_LOOP_ACKED l && (Tab.getD w.dev.loops l {}).op = 1 then
      ((w.tcmPut l (w.hsOff l) (zeros 8)).set F.CIO_LOOP_ERR 1 l).set F.CIO_LOOP_BUSY 0 l
    else w) w

/-- Little-endian bytes of a logical core's TCM. -/
def W.tcmLe (w : W) (l off n : Nat) : Nat :=
  match w.physCore l with
  | none => 0
  | some p => w.le (tcmAddr p off) n

/-- Whether a TCM range of a logical core lies in its Cirque part (R222). -/
def W.inCirquePart (w : W) (l off n : Nat) : Bool :=
  match w.physCore l with
  | none => false
  | some p =>
    let cs := bits (w.core (.crn p)).tcmctl 4 0 * 4096
    decide (0x20000 - cs ≤ off) && decide (off + n ≤ 0x20000)

/-- Whether a world may access a TCM range of a logical core (R222). -/
def W.tcmOk (w : W) (world l off n : Nat) : Bool :=
  world = 0 ||
  (match w.physCore l with
   | none => false
   | some p =>
     let t := (w.core (.crn p)).tcmctl
     decide (off + n ≤ 0x20000 - bits t 4 0 * 4096) && decide (bits t 31 16 = world))

/-! ### Register refusals (R11, R184) -/

/-- The physical base of the device registers (R12). -/
def devBase : Nat := 0x3F0000000000

/-- A write refused under R11, or an access of R477 refused: REG.REFUSE names the agent, the acting world and the address (R346). -/
def W.regRefuse (w : W) (src world off : Nat) : W :=
  w.report { cls := 0x09, level := 0, src := src, world := world, detail := devBase + off }

/-! ### Claims (R325) -/

/-- Whether claim `a` of slot `slot` wins over claim `b` (R325). -/
def claimWins (a b slot : Nat) : Bool :=
  let ra := nbits a 15 12
  let rb := nbits b 15 12
  if ra ≠ rb then decide (rb < ra)
  else
    let d := (nbits a 11 0 + 4096 - nbits b 11 0) % 4096
    if 1 ≤ d && d ≤ 2047 then true
    else if 2049 ≤ d then false
    else slot = 0

/-- STRAP_SLOT[0]: the home segment (R324, R335). -/
def W.home (w : W) : Nat := w.dev.mode.strapSlot % 2

/-- Whether this module's claim wins over the partner's latest; it wins while none has been heard (R325). -/
def W.weWin (w : W) : Bool := !w.dev.plk.known || claimWins (w.get F.PLK_CLAIM_OWN) (w.get F.PLK_CLAIM_PARTNER) w.home

/-- GEN := `g` with RANK from PLK.CTL (R325). -/
def W.setGen (w : W) (g : Nat) : W := w.set F.PLK_CLAIM_OWN (w.get F.PLK_CTL_RANK * 4096 + g % 4096)

/-- GEN of this module's claim. -/
def W.gen (w : W) : Nat := w.get F.PLK_CLAIM_OWN % 4096

/-! ### Output gates (R330) -/

/-- No output passes: Reset, Thaw or a level 3 record (R352, R380). -/
def W.shut (w : W) : Bool := decide (w.cur = mRESET) || decide (w.cur = mTHAW) || w.flag F.SYS_MODE_FATAL

/-- Whether the module serves a segment. -/
def W.serves (w : W) (s : Nat) : Bool := nbit (w.get F.PLK_SEG_SERVE) s

/-- Gate FABRIC[s]. -/
def W.gateFabric (w : W) (s : Nat) : Bool := w.serves s && !w.shut

/-- Gate TPPS. -/
def W.gateTpps (w : W) : Bool := w.serves 0 && !w.shut

/-- Gate CIO. -/
def W.gateCio (w : W) : Bool := !w.shut && decide (w.cur ≠ mSTANDBY)

/-- Gate SAS[n]; the register field follows the rule's opening and closing events. -/
def W.gateSas (w : W) (n : Nat) : Bool := w.flag F.SAS_STAT_MASTER n && !w.shut

/-- The enabled entries of PLK.SHNS. -/
def W.shns (w : W) : List Nat := (List.range 32).filter fun i => w.flag F.PLK_SHNS_EN i

/-- Gate SHARED (R330, R331). -/
def W.gateShared (w : W) : Bool :=
  !w.shut && !w.dev.plk.conflict && !w.dev.plk.lastRow && w.shns.all fun i => w.dev.plk.acquired.contains i

/-- PLK.SEG.GATES. -/
def W.gates (w : W) : Nat :=
  b2n w.gateShared * 8 + b2n w.gateTpps * 4 + b2n (w.gateFabric 1) * 2 + b2n (w.gateFabric 0)

/-- Segment of a Sastrugi bus (PLK.SASSEG). -/
def W.sasSeg (w : W) (n : Nat) : Nat := b2n (nbit (w.get F.PLK_SASSEG_SEG) n)

/-- Segment of a channel (R322). -/
def W.chSeg (w : W) (chid : Nat) : Nat := if chid < w.get F.PLK_CHSPLIT_SPLIT then 0 else 1

/-- Change the partner link's state. -/
def W.modPlk (w : W) (f : PlkSt → PlkSt) : W := { w with dev := { w.dev with plk := f w.dev.plk } }

/-- A level 3 record, or Thaw or Reset, closes the SAS gates as events. -/
def W.closeSas (w : W) : W := (List.range 4).foldl (fun (w : W) (n : Nat) => w.set F.SAS_STAT_MASTER 0 n) w

/-- Run a command whose effect may set the timebase (R359, R360). -/
def liftNow (f : W → W) (s : State) : Host.Outcome State Fault Refusal :=
  let w := f s.w
  .next { s with now := w.now, mem := s.mem.apply w.ws.reverse, dev := w.dev }

/-- Run a command whose effect may burn fuses (R443). -/
def liftFuse (f : W → W) (s : State) : Host.Outcome State Fault Refusal :=
  let w := f s.w
  .next { s with fuse := w.fuse, mem := s.mem.apply w.ws.reverse, dev := w.dev }

end Sys2Proof.Machine
end

