-- ==== Sys2Proof/Machine/Time.lean ====
section
/-! DEFINITION. The timebase, its servo and the PPS output (R359 to R366). -/

namespace Sys2Proof.Machine

open Sys2Proof

/-- Change the servo. -/
def W.modServo (w : W) (f : ServoSt → ServoSt) : W := { w with dev := { w.dev with servo := f w.dev.servo } }

/-- TIM.FREQ as a signed number (R362). -/
def W.freq (w : W) : Int := sext 32 (w.get F.TIM_FREQ_FREQ)

/-- Set TIM.FREQ, within the bound of R362. -/
def W.setFreq (w : W) (f : Int) : W :=
  let c := max (-(2 ^ 21 : Int)) (min (2 ^ 21 : Int) f)
  w.set F.TIM_FREQ_FREQ ((c % (2 ^ 32 : Int)).toNat)

/-- One TIME cycle: the count advances by 1 ns, or by 0 or 2 where the accumulator carries (R359, R362). The count has 64 bits. -/
def W.timeCycle (w : W) : W :=
  let a : Int := w.dev.servo.acc + w.freq
  let step : Nat := if (2 ^ 32 : Int) ≤ a then 2 else if a < 0 then 0 else 1
  let w := w.modServo fun s => { s with acc := (a % (2 ^ 32 : Int)).toNat }
  { w with now := (w.now + step) % 2 ^ 64 }

/-- A TIM.SET write: taken in Thaw with a value not below the count (R359, R360); `error` asks for the refusal under R11. -/
def W.timSet (w : W) (v : Nat) : Except W W :=
  if w.cur = mTHAW ∧ w.now ≤ v then .ok { w with now := v % 2 ^ 64 } else .error w

/-- The effect of a TIM.CTL write on the servo: the selected reference is taken up (assumption 31); EN 0 keeps freq at 0 (R361). -/
def W.timCtlWritten (w : W) : W :=
  let w := (w.set F.TIM_STAT_ACTIVE (w.get F.TIM_CTL_SRC)).set F.TIM_STAT_HOLDOVER 0
  let w := w.modServo fun s => { s with tref := decide (w.get F.TIM_CTL_SRC = 1), rejected := 0, last := some w.now, hbSum := 0, hbCount := 0 }
  if w.flag F.TIM_CTL_EN then w else w.setFreq 0

/-- The servo takes a phase sample `e` in ns over an interval of `i` ns from reference `ref` (R361 to R363). Divisions round down (assumption 32). -/
def W.sample (w : W) (ref : Nat) (e : Int) (i : Nat) (step : Bool) : W :=
  if !w.flag F.TIM_CTL_EN || decide (w.get F.TIM_STAT_ACTIVE ≠ ref) || decide (i = 0) then w
  else
    let thr : Nat := w.get F.TIM_CTL_STEPTHR * 1000
    let w := if 1000 < e.natAbs then w.set F.TIM_STAT_LOCKED 0 else w
    let w := w.modServo fun s => { s with last := some w.now }
    if thr < e.natAbs ∧ !step then w.modServo fun s => { s with rejected := s.rejected + 1, good := 0 }
    else
      let q : Int := (e * (2 ^ 32 : Int)) / (i : Int)
      let ff : Int := w.dev.servo.ff - q / ((2 ^ w.get F.TIM_CTL_GAIN : Nat) : Int)
      let good := if e.natAbs ≤ 100 then w.dev.servo.good + 1 else 0
      let w := w.modServo fun s => { s with ff := ff, rejected := 0, good := good }
      let w := (w.setFreq (ff - q)).set F.TIM_STAT_HOLDOVER 0
      if 8 ≤ good then w.set F.TIM_STAT_LOCKED 1 else w

/-- The phase error of a PPS edge: the count less the whole second nearest to it (R361). -/
def ppsError (now : Nat) : Int := let r := now % 1000000000; if r < 500000000 then (r : Int) else (r : Int) - 1000000000

/-- A rising edge of TPPS_IN while the source is PPS gives a sample (R361, R362). The first edge of Thaw also steps the count forward to a whole second
while LOCKED is 0, and its sample, from the count before the step, is taken whatever its size (R360, assumption 108). -/
def W.ppsEdge (w : W) : W :=
  let first := decide (w.cur = mTHAW) && !w.dev.servo.stepped
  let w := if first then w.modServo fun s => { s with stepped := true } else w
  if w.get F.TIM_CTL_SRC ≠ 1 then w
  else
    let e := ppsError w.now
    if first && !w.flag F.TIM_STAT_LOCKED then ({ w with now := ceilDiv w.now 1000000000 * 1000000000 % 2 ^ 64 }).sample 1 e 1000000000 true
    else w.sample 1 e 1000000000 false

/-- TPPS_IN edge. -/
def execPpsEdge (s : State) : Host.Outcome State Fault Refusal := liftNow W.ppsEdge s

/-- The sample of a TIM.OFFSET write with GO (R361): ERROR over INTERVAL ms. -/
def W.ptpSample (w : W) : W := w.sample 2 (sext 40 (w.get F.TIM_OFFSET_ERROR)) (w.get F.TIM_OFFSET_INTERVAL * 1000000) false

/-- Every 10 ms: the mean over 1,000 HEARTBEATs makes a sample, rounded down (R361, assumption 32). -/
def W.partnerSample (w : W) : W :=
  if w.dev.servo.hbCount < 1000 then w
  else
    let e : Int := w.dev.servo.hbSum / (w.dev.servo.hbCount : Int)
    (w.modServo fun s => { s with hbSum := 0, hbCount := 0 }).sample 3 e 10000000 false

/-- A partner phase sample falls due. -/
def execPartnerSample (s : State) : Host.Outcome State Fault Refusal := lift W.partnerSample s

/-- Whether the reference in use has faulted (R363). -/
def W.refFaulted (w : W) : Bool :=
  let a := w.get F.TIM_STAT_ACTIVE
  let since := w.now - w.dev.servo.last.getD 0
  w.flag F.TIM_CTL_EN && !w.flag F.TIM_STAT_HOLDOVER &&
  ((decide (a ≠ 0) && decide (4 ≤ w.dev.servo.rejected)) ||
   (decide (a = 1) && decide (2500000000 ≤ since)) ||
   (decide (a = 3) && decide (25000000 ≤ since)) ||
   (decide (a = 2) && decide (4 * w.get F.TIM_OFFSET_INTERVAL * 1000000 ≤ since)))

/-- A reference fault: REFFAULT and TIM.SYNC; the fallback reference, or holdover at the learned rate (R361, R363). -/
def W.refFault (w : W) : W :=
  if !w.refFaulted then w
  else
    let w := (w.set F.TIM_STAT_REFFAULT 1).report { cls := 0x39, level := 1, src := source 17 0 }
    let w := w.modServo fun s => { s with rejected := 0, last := some w.now, hbSum := 0, hbCount := 0 }
    if w.get F.TIM_CTL_SRC2 ≠ 0 ∧ w.get F.TIM_STAT_ACTIVE = w.get F.TIM_CTL_SRC ∧ w.get F.TIM_CTL_SRC2 ≠ w.get F.TIM_CTL_SRC then
      w.set F.TIM_STAT_ACTIVE (w.get F.TIM_CTL_SRC2)
    else (w.set F.TIM_STAT_HOLDOVER 1).setFreq w.dev.servo.ff

/-- Missing or rejected samples declare a reference fault. -/
def execReferenceFault (s : State) : Host.Outcome State Fault Refusal := lift W.refFault s

/-- TREF_10M is lost under PPS: the TIME clock runs from REFCLK_SYS, without a step (R361). -/
def execTrefLoss (s : State) : Host.Outcome State Fault Refusal :=
  lift (fun w => if w.get F.TIM_STAT_ACTIVE = 1 then w.modServo fun s => { s with tref := false } else w) s

/-- Drive TPPS_OUT. -/
def W.setPps (w : W) (b : Bool) : W :=
  if w.dev.servo.ppsOut = b then w else (w.modServo fun s => { s with ppsOut := b }).send (.pin 2 0 (b2n b))

/-- TPPS_OUT rises at a whole second, within 2 ns, while its gate is open (R365). -/
def execPpsOutRise (s : State) : Host.Outcome State Fault Refusal :=
  lift (fun w => if w.gateTpps ∧ w.flag F.TIM_PPSOUT_EN ∧ w.now % 1000000000 ≤ 2 then w.setPps true else w) s

/-- TPPS_OUT falls after WIDTH µs, or when its gate has closed (R365). -/
def execPpsOutFall (s : State) : Host.Outcome State Fault Refusal :=
  lift (fun w =>
    if w.dev.servo.ppsOut ∧ (w.get F.TIM_PPSOUT_WIDTH * 1000 ≤ w.now % 1000000000 ∨ !w.gateTpps) then w.setPps false else w) s

end Sys2Proof.Machine
end

