-- ==== Sys2Proof/Machine/Sastrugi.lean ====
section
/-! DEFINITION. The Sastrugi buses: cycles, beacons, node frames, joins, witness frames and cycle records (R367 to R378). -/

namespace Sys2Proof.Machine

open Sys2Proof

/-- The state of a bus. -/
def W.bus (w : W) (n : Nat) : SasBus := Tab.getD w.dev.sas n {}

/-- Replace the state of a bus. -/
def W.setBus (w : W) (n : Nat) (b : SasBus) : W := { w with dev := { w.dev with sas := Tab.putD {} w.dev.sas n b } }

/-- Change the state of a bus. -/
def W.modBus (w : W) (n : Nat) (f : SasBus → SasBus) : W := w.setBus n (f (w.bus n))

/-- The element of SAS.SLOT[n][k]. -/
def slotIx (n k : Nat) : Nat := n * 60 + (k - 1)

/-- An SAS interrupt: a slot state change (R373, R236). -/
def W.sasIrq (w : W) (n : Nat) : W := w.irq (.line 0x18 n)

/-- A record of class SAS.BUS (R347). -/
def W.sasReport (w : W) (n k : Nat) (sub : Nat) : W := w.report { cls := 0x3A, level := 0, src := source 18 n, sub := sub, detail := k }

/-- A correction of −round(d / 50 ns) bit times; halves round away from zero (R374, assumption 33). -/
def corrOf (d : Int) : Int :=
  let m : Int := ((d.natAbs + 25) / 50 : Nat)
  if d < 0 then m else -m

/-- A signed number in `n` bytes, big-endian. -/
def beInt (n : Nat) (x : Int) : List Byte := beBytes n ((x % ((2 ^ (8 * n) : Nat) : Int)).toNat)

/-- The frame bytes with their CRC, big-endian (R368). -/
def sasSeal (body : List Byte) : List Byte := body ++ beBytes 4 (crc32c body)

/-- Whether a received frame's CRC checks (R368). -/
def sasCrcOk (bs : List Byte) : Bool :=
  decide (4 ≤ bs.length) && decide (crc32c (bs.take (bs.length - 4)) = ofBE (bs.drop (bs.length - 4)))

/-- Count a frame whose CRC does not check (R368). -/
def W.sasCrcErr (w : W) (n : Nat) : W := w.bump F.SAS_CRCERR_COUNT 1 n

/-- The LINKUP bit of beacons and witness frames (R370, R371). -/
def W.linkUp (w : W) : Bool := w.get F.PLK_STAT_LINK = 2

/-- Whether the bus is a witness bus (R327). -/
def W.isWit (w : W) (n : Nat) : Bool := nbit (w.get F.PLK_CTL_WIT) n

/-- Something valid was heard from the partner: its claim, mode and segments, and on a witness bus that it is alive (R325, R327). -/
def W.heardPartner (w : W) (n claim mode serve : Nat) : W :=
  let w := w.set F.PLK_CLAIM_PARTNER claim
  w.modPlk fun p => { p with pMode := mode, pServe := serve, known := true, heard := if w.isWit n && !p.heard.contains n then n :: p.heard else p.heard }

/-! ### Beacons -/

/-- Take entries from a waiting table in slot order, at most `n`; what is left waits. -/
def takeTab {α : Type} (n : Nat) (t : Tab α) : List (Nat × α) × Tab α := (t.take n, t.drop n)

/-- The mailbox of the bus in the TCM: its sequence and the entries whose slot is nonzero (R378). -/
def W.mailbox (w : W) (n : Nat) : Nat × List (List Byte) :=
  let l := w.get F.SAS_TCMB_CORE n
  let off := w.get F.SAS_TCMB_OFF n * 2048
  let es := (List.range 10).map fun i => leBytes 8 (w.tcmLe l (off + 0x5C8 + 8 * i) 8)
  (w.tcmLe l (off + 0x5C0) 8, es.filter fun e => decide (e.headD 0 ≠ 0))

/-- Take the mailbox once each time MSEQ changes (R378). -/
def W.takeMailbox (w : W) (n : Nat) : W :=
  if !w.flag F.SAS_TCMB_EN n then w
  else
    let (q, es) := w.mailbox n
    if (w.bus n).mseq = q then w else w.modBus n fun b => { b with mseq := q, mbox := b.mbox ++ es }

/-- The grant for the one JOIN of the last cycle (R375): two JOINs garble each other, and none is granted. -/
def W.joinGrant (w : W) (n : Nat) : W :=
  match (w.bus n).joins with
  | [(d, u)] =>
    let slots := upto 1 60
    let held := slots.find? fun k => w.get F.SAS_SLOT_UID (slotIx n k) = u
    let free := slots.find? fun k => w.get F.SAS_SLOT_STATE (slotIx n k) = 0 && !w.flag F.SAS_SLOT_PIN (slotIx n k)
    let corr := corrOf d
    match held.orElse fun _ => free with
    | some k =>
      let i := slotIx n k
      let w := (((w.set F.SAS_SLOT_UID u i).set F.SAS_SLOT_STATE 1 i).set F.SAS_SLOT_DISC 0 i).set F.SAS_SLOT_ADV ((corr % 256).toNat) i
      (w.modBus n fun b => { b with grant := some (k, 0, corr, u), idle := Tab.del b.idle k }).sasIrq n
    | none => w.modBus n fun b => { b with grant := some (0, 1, corr, u) }
  | _ => w

/-- The master's beacon of the cycle (R370, R373, R374, R376). -/
def W.sendBeacon (w : W) (n : Nat) : W :=
  let w := w.takeMailbox n
  let b := w.bus n
  let (corr, corr') := takeTab 8 b.corr
  let (note, note') := takeTab 6 b.notices
  let mb := b.mbox.take 10
  let q := b.cmdq.take (10 - mb.length)
  let cmds := mb ++ q.map (beBytes 8)
  let pad (l : List Byte) (m : Nat) : List Byte := l ++ zeros (m - l.length)
  let g := match b.grant with
    | some (k, r, c, u) => beBytes 1 k ++ beBytes 1 r ++ beInt 1 c ++ [0] ++ beBytes 6 u
    | none => zeros 10
  let body := [0xBE, 0x10, BitVec.ofNat 8 n, BitVec.ofNat 8 (b2n w.linkUp)] ++ beBytes 2 (w.get F.PLK_CLAIM_OWN) ++
    beBytes 1 (w.get F.SYS_MODE_CUR) ++ beBytes 1 (w.get F.PLK_SEG_SERVE) ++ beBytes 8 b.start ++ beBytes 4 b.cycle ++
    [BitVec.ofNat 8 corr.length, BitVec.ofNat 8 cmds.length, 0, 0] ++
    pad (corr.flatMap fun p => beBytes 1 p.1 ++ beInt 1 p.2) 16 ++ g ++
    pad (note.map fun p => BitVec.ofNat 8 (p.2 * 64 + p.1)) 6 ++ pad cmds.flatten 80
  let w := corr.foldl (fun (w : W) (p : Nat × Int) =>
    let i := slotIx n p.1
    w.set F.SAS_SLOT_ADV (((sext 8 (w.get F.SAS_SLOT_ADV i) + p.2) % 256).toNat) i) w
  let w := w.modBus n fun b =>
    { b with corr := corr', notices := note', grant := none, mbox := b.mbox.drop 10, cmdq := b.cmdq.drop q.length, sent := true }
  w.send (.sas n (b.start + 1200) (sasSeal body))

/-- The slots that had no valid frame in the cycle that ended count on toward IDLELIM (R373). -/
def W.countIdle (w : W) (n : Nat) : W :=
  let fs := (w.bus n).frames
  (upto 1 60).foldl (fun (w : W) (k : Nat) =>
    if w.get F.SAS_SLOT_STATE (slotIx n k) = 0 then w
    else if fs.any fun f => f.slot = k && f.crcOk && !f.discarded then w.modBus n fun b => { b with idle := Tab.del b.idle k }
    else w.modBus n fun b => { b with idle := Tab.put b.idle k (Tab.getD b.idle k 0 + 1) }) w

/-- Beacons and witness frames that were due since the last HEARTBEAT and did not come in the cycle (R327). -/
def W.countMissed (w : W) (n : Nat) : W :=
  let b := w.bus n
  if w.isWit n && !w.dev.plk.heard.contains n && (match w.dev.plk.lastHb with | some t => decide (t ≤ b.start) | none => true) then
    w.modPlk fun p => { p with missed := if p.missed.contains n then p.missed else n :: p.missed }
  else w

/-- The number of the cycle that the timebase stands in (R369). -/
def W.cycleOf (w : W) (n : Nat) : Nat := (w.now / 1000 - w.get F.SAS_CTL_PHASE n) / 1000

/-- A cycle starts: the last one is closed, the SAS gate may open (R330), and the master sends its beacon (R370). -/
def W.cycleStart (w : W) (n : Nat) : W :=
  let c := w.cycleOf n
  let b := w.bus n
  if !w.flag F.SAS_CTL_EN n || decide (w.cur = mRESET) || decide (w.cur = mTHAW) || (b.running && decide (c ≤ b.cycle))
      || decide (w.now / 1000 < w.get F.SAS_CTL_PHASE n) then w
  else
    let w := if b.running then (w.countIdle n).countMissed n else w
    let w := w.set F.SAS_STAT_BEACON (b2n (b.sent || b.heardBeacon)) n
    let opens := b.running && w.serves (w.sasSeg n) && !w.flag F.SYS_MODE_FATAL && (!b.heardBeacon || b.pStandby) && !b.winningHeard
    let w := if opens then w.set F.SAS_STAT_MASTER 1 n else if w.serves (w.sasSeg n) then w else w.set F.SAS_STAT_MASTER 0 n
    let w := if w.gateSas n then w.joinGrant n else w
    let w := w.modBus n fun b =>
      { b with cycle := c, start := (c * 1000 + w.get F.SAS_CTL_PHASE n) * 1000, running := true, sent := false,
               heardBeacon := false, winningHeard := false, frames := [], joins := [] }
    if w.gateSas n then w.sendBeacon n else w

/-- A Sastrugi cycle starts on a bus. -/
def execSasCycleStart (n : Nat) (s : State) : Host.Outcome State Fault Refusal :=
  lift (fun w => if n < 4 then w.cycleStart n else w) s

/-- A module that is not master sends its WITNESS frame on a witness bus (R371, R377). -/
def W.witnessSend (w : W) (n : Nat) : W :=
  let b := w.bus n
  if !w.flag F.SAS_CTL_EN n || !w.isWit n || w.gateSas n || !b.running || decide (w.cur = mRESET) || decide (w.cur = mTHAW) then w
  else
    let body := [0, 3, BitVec.ofNat 8 b.cycle, BitVec.ofNat 8 (b2n w.linkUp)] ++ beBytes 2 (w.get F.PLK_CLAIM_OWN) ++
      beBytes 1 (w.get F.SYS_MODE_CUR) ++ beBytes 1 (w.get F.PLK_SEG_SERVE) ++ zeros 16
    w.send (.sas n (b.start + 61200) (sasSeal body))

/-- The witness slot of a cycle. -/
def execWitnessSend (n : Nat) (s : State) : Host.Outcome State Fault Refusal :=
  lift (fun w => if n < 4 then w.witnessSend n else w) s

/-- A listener's slot map follows the grant and the notices of a beacon (R377). -/
def W.followBeacon (w : W) (n : Nat) (bs : List Byte) : W :=
  let g := (bs.drop 40).take 10
  let k := ofBE (g.take 1)
  let w :=
    if 1 ≤ k ∧ k ≤ 60 ∧ ofBE ((g.drop 1).take 1) = 0 then
      let i := slotIx n k
      let w := ((w.set F.SAS_SLOT_UID (ofBE (g.drop 4)) i).set F.SAS_SLOT_STATE 1 i).set F.SAS_SLOT_DISC 0 i
      (w.set F.SAS_SLOT_ADV (ofBE ((g.drop 2).take 1)) i).sasIrq n
    else w
  ((bs.drop 50).take 6).foldl (fun (w : W) (x : Byte) =>
    let k := x.toNat % 64
    if k = 0 ∨ 60 < k then w
    else if x.toNat / 64 = 1 then (w.set F.SAS_SLOT_STATE 2 (slotIx n k)).sasIrq n
    else if x.toNat / 64 = 2 then (w.set F.SAS_SLOT_STATE 0 (slotIx n k)).sasIrq n
    else w) w

/-- A beacon of the other module (R325, R327, R330, R370). -/
def W.takeBeacon (w : W) (n : Nat) (bs : List Byte) : W :=
  if !w.flag F.SAS_CTL_EN n then w
  else if bs.length ≠ 140 ∨ !sasCrcOk bs then w.sasCrcErr n
  else if bs.headD 0 ≠ 0xBE ∨ ofBE ((bs.drop 1).take 1) ≠ 0x10 ∨ ofBE ((bs.drop 2).take 1) ≠ n then w
  else
    let claim := ofBE ((bs.drop 4).take 2)
    let w := w.heardPartner n claim (ofBE ((bs.drop 6).take 1)) (ofBE ((bs.drop 7).take 1))
    let wins := claimWins claim (w.get F.PLK_CLAIM_OWN) (1 - w.home)
    let w := w.modBus n fun b => { b with heardBeacon := true, pStandby := false, winningHeard := b.winningHeard || wins }
    let w := if wins then w.set F.SAS_STAT_MASTER 0 n else w
    if w.gateSas n then w else w.followBeacon n bs

/-- A beacon is received. -/
def execSasBeacon (n : Nat) (bytes : List Byte) (s : State) : Host.Outcome State Fault Refusal :=
  lift (fun w => if n < 4 then w.takeBeacon n bytes else w) s

/-! ### Node frames -/

/-- The bit times a frame occupies in its cycle: a slot's nominal start and 252 bit times (R369); offsets in ns. -/
def frameSpan (f : SasFrame) : Int × Int :=
  let a : Int := ((1224 + 300 * f.slot : Nat) : Int) * 50 + f.d
  (a, a + 252 * 50)

/-- Whether two frames overlap on the bus. -/
def framesMeet (f g : SasFrame) : Bool := decide ((frameSpan f).1 < (frameSpan g).2) && decide ((frameSpan g).1 < (frameSpan f).2)

/-- A frame whose own start lies outside the guards (R372). -/
def outside (d : Int) : Bool := decide (1200 < d.natAbs)

/-- Charge an offender: DISC of its slot and SAS.DISCCNT; the third in a row suspends the slot (R373). -/
def W.offender (w : W) (n k : Nat) : W :=
  let i := slotIx n k
  let w := (w.bump F.SAS_DISCCNT_COUNT 1 n).sasReport n k 2
  if k = 61 ∨ k = 0 then w
  else
    let w := w.set F.SAS_SLOT_DISC (min 3 (w.get F.SAS_SLOT_DISC i + 1)) i
    if w.get F.SAS_SLOT_DISC i = 3 ∧ w.get F.SAS_SLOT_STATE i ≠ 2 ∧ w.gateSas n then
      ((((w.set F.SAS_SLOT_STATE 2 i).modBus n fun b => { b with notices := Tab.put b.notices k 1 }).sasIrq n)).sasReport n k 3
    else w

/-- Earlier frames of the cycle that a new offender overlaps become victims: their effects are taken back (R372, R373). -/
def W.victims (w : W) (n : Nat) (f : SasFrame) : W :=
  let hit (g : SasFrame) : Bool := !g.discarded && framesMeet f g
  let w := ((w.bus n).frames.filter hit).foldl (fun (w : W) (g : SasFrame) =>
    let w := w.bump F.SAS_VICTCNT_COUNT 1 n
    let w := if 600 < g.d.natAbs then w.set F.SAS_DRIFTCNT_COUNT (w.get F.SAS_DRIFTCNT_COUNT n - 1) n else w
    if g.slot = 61 then w.modBus n fun b => { b with joins := [] }
    else if g.slot = 0 then
      match g.oldWit with
      | some o =>
        ((w.set F.PLK_CLAIM_PARTNER o.claim).modPlk fun p =>
          { p with pMode := o.mode, pServe := o.serve, known := o.known, heard := o.heard }).modBus n fun b => { b with pStandby := o.standby }
      | none => w
    else
      let w := (w.set F.SAS_SLOT_DISC g.oldDisc (slotIx n g.slot)).set F.SAS_SLOT_DRIFT (b2n g.oldDrift) (slotIx n g.slot)
      w.modBus n fun b => { b with corr := match g.oldCorr with | some c => Tab.put b.corr g.slot c | none => Tab.del b.corr g.slot }) w
  w.modBus n fun b => { b with frames := b.frames.map fun g => if hit g then { g with discarded := true } else g }

/-- Remember a frame of the cycle. -/
def W.addFrame (w : W) (n : Nat) (f : SasFrame) : W := w.modBus n fun b => { b with frames := b.frames ++ [f] }

/-- A frame in a slot that carries no 28 bytes, fails its CRC, which is counted, or is of another KIND is discarded (R368, R371). -/
def W.badFrame (w : W) (n kind : Nat) (f : SasFrame) : Option W :=
  let f := { f with crcOk := false, discarded := true }
  if f.bytes.length ≠ 28 ∨ !sasCrcOk f.bytes then some ((w.sasCrcErr n).addFrame n f)
  else if ofBE ((f.bytes.drop 1).take 1) ≠ kind then some (w.addFrame n f)
  else none

/-- A frame in the DRIFT class: counted and recorded (R372). -/
def W.driftNote (w : W) (n k : Nat) (d : Int) : W :=
  if 600 < d.natAbs then (w.bump F.SAS_DRIFTCNT_COUNT 1 n).sasReport n k 1 else w

/-- Whether an offender of the cycle overlaps a frame (R372). -/
def W.overlapped (w : W) (n : Nat) (f : SasFrame) : Bool := (w.bus n).frames.any fun g => outside g.d && framesMeet f g

/-- A frame that an offender overlapped (R373). -/
def W.victim (w : W) (n : Nat) (f : SasFrame) : W := (w.bump F.SAS_VICTCNT_COUNT 1 n).addFrame n { f with discarded := true }

/-- A node DATA frame in slot `k`, `d` ns after its nominal start (R372 to R374). -/
def W.dataFrame (w : W) (n k : Nat) (d : Int) (bs : List Byte) : W :=
  let i := slotIx n k
  let f : SasFrame := { slot := k, d := d, bytes := bs, crcOk := true, discarded := false, oldDisc := w.get F.SAS_SLOT_DISC i, oldCorr := Tab.find? (w.bus n).corr k,
                        oldDrift := w.flag F.SAS_SLOT_DRIFT i }
  match w.badFrame n 1 f with
  | some w => w
  | none =>
    if outside d then ((w.offender n k).victims n f).addFrame n { f with discarded := true }
    else if w.get F.SAS_SLOT_STATE i = 2 then (w.offender n k).addFrame n { f with discarded := true }
    else if w.overlapped n f then w.victim n f
    else
      let w := ((w.set F.SAS_SLOT_DISC 0 i).addFrame n f).driftNote n k d
      if 600 < d.natAbs then
        let w := w.set F.SAS_SLOT_DRIFT 1 i
        if w.gateSas n then w.modBus n fun b => { b with corr := Tab.put b.corr k (corrOf d) } else w
      else w

/-- A frame in a node slot. -/
def execSasDataFrame (n k : Nat) (d : Int) (bytes : List Byte) (s : State) : Host.Outcome State Fault Refusal :=
  lift (fun w => if n < 4 ∧ 1 ≤ k ∧ k ≤ 60 ∧ w.flag F.SAS_CTL_EN n then w.dataFrame n k d bytes else w) s

/-- A JOIN frame in the join slot: kept for the next beacon; two in one cycle garble each other (R375). -/
def W.joinFrame (w : W) (n : Nat) (d : Int) (bs : List Byte) : W :=
  let f : SasFrame := { slot := 61, d := d, bytes := bs, crcOk := true, discarded := false, oldDisc := 0, oldCorr := none }
  let others := (w.bus n).frames.filter fun g => decide (g.slot = 61) && g.crcOk && !outside g.d
  match w.badFrame n 2 f with
  | some w => w
  | none =>
    if outside d then ((w.offender n 61).victims n f).addFrame n { f with discarded := true }
    else if w.overlapped n f then w.victim n f
    else if !others.isEmpty then
      let w := (w.bump F.SAS_VICTCNT_COUNT (others.filter fun g => !g.discarded).length n).modBus n fun b =>
        { b with joins := [], frames := b.frames.map fun g => if g.slot = 61 then { g with discarded := true } else g }
      w.victim n f
    else ((w.addFrame n f).driftNote n 61 d).modBus n fun b => { b with joins := b.joins ++ [(d, ofBE ((bs.drop 6).take 6))] }

/-- A frame in the join slot. -/
def execSasJoinFrame (n : Nat) (d : Int) (bytes : List Byte) (s : State) : Host.Outcome State Fault Refusal :=
  lift (fun w => if n < 4 ∧ w.flag F.SAS_CTL_EN n then w.joinFrame n d bytes else w) s

/-- A partner WITNESS frame, `d` ns after its nominal start; outside the guards it is discarded (R327, R372, R377). -/
def W.witnessFrame (w : W) (n : Nat) (d : Int) (bs : List Byte) : W :=
  let p := w.dev.plk
  let f : SasFrame := { slot := 0, d := d, bytes := bs, crcOk := true, discarded := false, oldDisc := 0, oldCorr := none,
                        oldWit := some { claim := w.get F.PLK_CLAIM_PARTNER, mode := p.pMode, serve := p.pServe, known := p.known, heard := p.heard,
                                         standby := (w.bus n).pStandby } }
  match w.badFrame n 3 f with
  | some w => w
  | none =>
    if outside d then ((w.offender n 0).victims n f).addFrame n { f with discarded := true }
    else if w.overlapped n f then w.victim n f
    else
    let w := (w.addFrame n f).driftNote n 0 d
    let mode := ofBE ((bs.drop 6).take 1)
    (w.heardPartner n (ofBE ((bs.drop 4).take 2)) mode (ofBE ((bs.drop 7).take 1))).modBus n fun b => { b with pStandby := decide (mode = mSTANDBY) }

/-- A frame in the witness slot. -/
def execSasWitnessFrame (n : Nat) (d : Int) (bytes : List Byte) (s : State) : Host.Outcome State Fault Refusal :=
  lift (fun w => if n < 4 ∧ w.flag F.SAS_CTL_EN n then w.witnessFrame n d bytes else w) s

/-! ### Cycle records and slots -/

/-- NODE[k] of the cycle record (R378). -/
def W.nodeEntry (w : W) (n k : Nat) : List Byte :=
  let b := w.bus n
  let susp := w.get F.SAS_SLOT_STATE (slotIx n k) = 2
  match b.frames.find? fun f => f.slot = k with
  | some f =>
    let ok := f.crcOk && !f.discarded
    let drift := ok && decide (600 < f.d.natAbs)
    let rs := b2n ok + 2 * b2n drift + 4 * b2n f.discarded + 16 * b2n susp
    (if ok then (f.bytes.drop 6).take 16 ++ ((f.bytes.drop 4).take 2).reverse ++ (f.bytes.drop 3).take 1 else zeros 19) ++
      [BitVec.ofNat 8 rs] ++ leBytes 2 ((f.d % (65536 : Int)).toNat) ++ [0, 0]
  | none => zeros 19 ++ [BitVec.ofNat 8 (8 + 16 * b2n susp)] ++ zeros 4

/-- The record of the cycle in progress, up to the mailbox words (R378). -/
def W.cycleRecord (w : W) (n : Nat) : List Byte :=
  let b := w.bus n
  leBytes 4 b.cycle ++ [BitVec.ofNat 8 n, BitVec.ofNat 8 (b2n b.sent + 2 * b2n (!(b.sent || b.heardBeacon)))] ++ [0, 0] ++
    leBytes 8 b.start ++ zeros 16 ++ (upto 1 60).flatMap (w.nodeEntry n)

/-- Whether the loop of a logical core is held (R390). -/
def W.loopHeld (w : W) (l : Nat) : Bool := w.flag F.CIO_LOOP_ACKED l

/-- Write the record to the TCM of the named core, unless its loop is held (R378, R391). -/
def W.recordTcm (w : W) (n : Nat) (r : List Byte) : W :=
  if !w.flag F.SAS_TCMB_EN n then w
  else
    let l := w.get F.SAS_TCMB_CORE n
    if w.loopHeld l then w.modBus n fun b => { b with heldRec := some r }
    else w.tcmPut l (w.get F.SAS_TCMB_OFF n * 2048) r

/-- After the join slot: the record goes to the ring, under its owner check, and to the TCM (R378). -/
def W.recordWrite (w : W) (n : Nat) : W :=
  let b := w.bus n
  if !b.running || decide (w.now < b.start + 990000) then w
  else
    let r := w.cycleRecord n
    let w :=
      if !w.flag F.SAS_SMP_EN n then w
      else
        let a := w.base F.SAS_SMP_BASE n + b.cycle % 2 ^ w.get F.SAS_SMP_SIZE n * 2048
        let who := cirqueWho (source 18 n)
        match w.storeAs who a (r ++ zeros (2048 - r.length)) with
        | some w => w
        | none => w.physRefuse who a
    w.recordTcm n r

/-- The cycle record falls due. -/
def execSasRecordWrite (n : Nat) (s : State) : Host.Outcome State Fault Refusal :=
  lift (fun w => if n < 4 then w.recordWrite n else w) s

/-- A slot with no valid frame for IDLELIM cycles becomes FREE (R373). -/
def W.slotIdle (w : W) (n k : Nat) : W :=
  let i := slotIx n k
  let lim := w.get F.SAS_CTL_IDLELIM n
  if lim = 0 ∨ w.get F.SAS_SLOT_STATE i = 0 ∨ Tab.getD (w.bus n).idle k 0 < lim ∨ !w.gateSas n then w
  else ((w.set F.SAS_SLOT_STATE 0 i).modBus n fun b => { b with notices := Tab.put b.notices k 2, idle := Tab.del b.idle k, corr := Tab.del b.corr k }).sasIrq n

/-- A slot's idle limit is reached. -/
def execSlotIdleExpiry (n k : Nat) (s : State) : Host.Outcome State Fault Refusal :=
  lift (fun w => if n < 4 ∧ 1 ≤ k ∧ k ≤ 60 then w.slotIdle n k else w) s

/-- A SAS.CMDQ write: queued, or refused under R11 with QFULL when 64 entries wait (R376); `error` asks for the refusal. -/
def W.cmdqWrite (w : W) (n v : Nat) : Except W W :=
  if 64 ≤ (w.bus n).cmdq.length then .error (w.set F.SAS_STAT_QFULL 1 n)
  else .ok (w.modBus n fun b => { b with cmdq := b.cmdq ++ [v - nbits v 39 32 * 2 ^ 32] })

end Sys2Proof.Machine
end

