-- ==== Sys2Proof/Machine/Cio.lean ====
section
/-! DEFINITION. The control I/O channels and the loop handshake (R380 to R391). -/

namespace Sys2Proof.Machine

open Sys2Proof

/-- A channel's state. -/
def W.ch (w : W) (n : Nat) : CioSt := Tab.getD w.dev.cio n {}

/-- Replace a channel's state. -/
def W.setCh (w : W) (n : Nat) (c : CioSt) : W := { w with dev := { w.dev with cio := Tab.putD {} w.dev.cio n c } }

/-- Change a channel's state. -/
def W.modCh (w : W) (n : Nat) (f : CioSt → CioSt) : W := w.setCh n (f (w.ch n))

/-- Whether the events of a channel are held by the loop of its bound core (R390, R391). -/
def W.chHeld (w : W) (n : Nat) : Bool := w.flag F.CIO_BIND_EN n && w.loopHeld (w.get F.CIO_BIND_CORE n)

/-- The level the channel's mode asks of its pin; none while the output is withheld (R380, R183, R383). -/
def W.pinLevel (w : W) (n : Nat) : Option Bool :=
  if !w.gateCio || decide (w.get F.OWN_PINOWN_WORLD n = 0xFFFF) then none
  else
    match w.get F.CIO_CFG_MODE n with
    | 2 => some (w.flag F.CIO_CFG_OUTVAL n)
    | 3 => some (w.ch n).level
    | 4 => let (p, h) := (w.ch n).pwmNow
           some (decide (p ≠ 0) && decide (w.now % (max p 1) < h))
    | _ => none

/-- Show the pin's output (2 stands for high impedance). -/
def W.pinShow (w : W) (n : Nat) : W :=
  w.send (.pin 5 n (match w.pinLevel n with | none => 2 | some b => b2n b))

/-- The register fields that mirror the FIFO and the pin (R381, R385). -/
def W.chSync (w : W) (n : Nat) : W :=
  let c := w.ch n
  let w := (w.set F.CIO_STAT_EDGEP (b2n (!c.fifo.isEmpty)) n).set F.CIO_STAT_PIN (b2n c.pin) n
  let (t, d) := c.fifo.headD (0, 0)
  ((w.set F.CIO_CAP_TS t n).set F.CIO_CAPINFO_DIR d n).set F.CIO_CAPINFO_COUNT c.fifo.length n

/-- Rewrite the 64-byte channel record of a bound channel, unless its loop is held (R386, R391). SEQ ends even; CTRL and VALUE stand. -/
def W.chRecord (w : W) (n : Nat) : W :=
  let w := w.chSync n
  if !w.flag F.CIO_BIND_EN n || w.chHeld n then w
  else
    let w := w.modCh n fun c => { c with seq := (c.seq + 2) % 2 ^ 64 }
    let c := w.ch n
    let dirs := (c.fifo.mapIdx fun i e => e.2 * 4 ^ i).sum
    let flags := b2n c.pin + 2 * w.get F.CIO_STAT_CMPF n + 4 * w.get F.CIO_STAT_TMRF n + 8 * w.get F.CIO_STAT_OVF n +
      16 * c.fifo.length + 256 * dirs + 2 ^ 32 * w.get F.CIO_STAT_LOST n
    let caps := (List.range 4).flatMap fun i => leBytes 8 (c.fifo.getD i (0, 0)).1
    w.tcmPut (w.get F.CIO_BIND_CORE n) (w.get F.CIO_BIND_OFF n * 64) (leBytes 8 c.seq ++ leBytes 8 flags ++ caps)

/-- The CIO interrupt line (R385). -/
def W.cioLine (w : W) : Bool :=
  (List.range 48).any fun n =>
    (w.flag F.CIO_CFG_IEEDGE n && w.flag F.CIO_STAT_EDGEP n) || (w.flag F.CIO_CFG_IECMP n && w.flag F.CIO_STAT_CMPF n)
      || (w.flag F.CIO_CFG_IETMR n && w.flag F.CIO_STAT_TMRF n)

/-- A filtered edge: the pin has held its new level for FILT ns, and the stamp is that of the transition (R381). -/
def W.pinEdge (w : W) (n : Nat) (level : Bool) : W :=
  if (w.ch n).pin = level then w
  else
    let w := w.modCh n fun c => { c with pin := level }
    let sel := w.get F.CIO_CFG_EDGE n
    let w :=
      if !(if level then nbit sel 0 else nbit sel 1) then w
      else if (w.ch n).fifo.length < 4 then
        w.modCh n fun c => { c with fifo := c.fifo ++ [(w.now - w.get F.CIO_CFG_FILT n, if level then 1 else 2)] }
      else (w.bump F.CIO_STAT_LOST 1 n).set F.CIO_STAT_OVF 1 n
    w.chRecord n

/-- A filtered pin edge. -/
def execPinEdge (n : Nat) (level : Bool) (s : State) : Host.Outcome State Fault Refusal :=
  lift (fun w => if n < 48 then w.pinEdge n level else w) s

/-- Pop up to `k` captures. -/
def W.capPop (w : W) (n k : Nat) : W := (w.modCh n fun c => { c with fifo := c.fifo.drop k }).chRecord n

/-- CMPACT on the pin's level in COMPARE mode (R380, R382). -/
def W.cmpAct (w : W) (n : Nat) : W :=
  if w.get F.CIO_CFG_MODE n ≠ 3 then w
  else
    let w := match w.get F.CIO_CFG_CMPACT n with
      | 1 => w.modCh n fun c => { c with level := true }
      | 2 => w.modCh n fun c => { c with level := false }
      | 3 => w.modCh n fun c => { c with level := !c.level }
      | _ => w
    w.pinShow n

/-- The timebase reaches CMP (R382): the action, CMPF and the reload. While the loop is held CMPF waits (R391). -/
def W.compareFire (w : W) (n : Nat) : W :=
  let t := w.get F.CIO_CMP_TIME n
  if t = 0 ∨ w.now < t then w
  else
    let per := w.get F.CIO_CMPPER_NS n
    let w := (w.cmpAct n).set F.CIO_CMP_TIME (if per = 0 then 0 else (t + per) % 2 ^ 64) n
    if w.chHeld n then w.modCh n fun c => { c with heldCmp := true }
    else (w.set F.CIO_STAT_CMPF 1 n).chRecord n

/-- A compare unit fires. -/
def execCompareFire (n : Nat) (s : State) : Host.Outcome State Fault Refusal :=
  lift (fun w => if n < 48 then w.compareFire n else w) s

/-- A PWM period starts: a value written before it takes effect (R383). -/
def W.pwmStart (w : W) (n : Nat) : W :=
  let c := w.ch n
  let next := c.pwmNext.getD c.pwmNow
  let p := if c.pwmNow.1 = 0 then next.1 else c.pwmNow.1
  if p = 0 ∨ w.now % p ≠ 0 ∨ w.get F.CIO_CFG_MODE n ≠ 4 then w
  else (w.modCh n fun c => { c with pwmNow := next, pwmNext := none }).pinShow n

/-- A PWM period boundary. -/
def execPwmPeriodStart (n : Nat) (s : State) : Host.Outcome State Fault Refusal :=
  lift (fun w => if n < 48 then w.pwmStart n else w) s

/-- The count of a timer level (R366); 0 for off. -/
def levelCount (level now : Nat) : Nat :=
  match level with
  | 1 => now / 1000
  | 2 => now / 1000000
  | 3 => now / 1000000000
  | _ => 0

/-- The level timer fires (R384). -/
def W.levelFire (w : W) (n : Nat) : W :=
  let lv := w.get F.CIO_TMRCTL_LEVEL n
  let t := w.get F.CIO_TMRNEXT_COUNT n
  let cnt := levelCount lv w.now
  if lv = 0 ∨ cnt < t then w
  else
    let per := w.get F.CIO_TMRCTL_PER n
    let w :=
      if per = 0 then w.set F.CIO_TMRCTL_LEVEL 0 n
      else
        let k := (cnt - t) / per + 1
        (w.set F.CIO_TMRNEXT_COUNT ((t + k * per) % 2 ^ 64) n).bump F.CIO_TMRCTL_MISSED (k - 1) n
    if w.chHeld n then w.modCh n fun c => { c with heldTmr := true }
    else (w.set F.CIO_STAT_TMRF 1 n).chRecord n

/-- A channel's level timer fires. -/
def execLevelTimerFire (n : Nat) (s : State) : Host.Outcome State Fault Refusal :=
  lift (fun w => if n < 48 then w.levelFire n else w) s

/-- A CTRL request of a bound record (R387): kinds 1 to 3 act on the output and need DRIVE, a pop of captures needs SENSE (assumption 34). -/
def W.ctrlRequest (w : W) (n kind v : Nat) : W :=
  let drive := w.flag F.OWN_PINOWN_DRIVE n
  let sense := w.flag F.OWN_PINOWN_SENSE n
  let bad := w.report { cls := 0x3B, level := 0, src := source 19 n, world := w.get F.OWN_PINOWN_WORLD n }
  match kind with
  | 1 => if drive then (w.set F.CIO_CFG_OUTVAL (v % 2) n).pinShow n else bad
  | 2 => if drive then
      let h := nbits v 31 0
      let w := w.set F.CIO_PWM_HIGH h n
      w.modCh n fun c => { c with pwmNext := some (w.get F.CIO_PWM_PERIOD n, h) }
    else bad
  | 3 => if drive then w.set F.CIO_CMP_TIME v n else bad
  | 4 => if sense then
      let w := w.modCh n fun c => { c with fifo := c.fifo.drop (v % 8) }
      let w := if nbit v 8 then w.set F.CIO_STAT_CMPF 0 n else w
      if nbit v 9 then w.set F.CIO_STAT_TMRF 0 n else w
    else bad
  | _ => w

/-- Poll one channel's record (R387). -/
def W.ctrlPoll (w : W) (n : Nat) : W :=
  if !w.flag F.CIO_BIND_EN n || w.chHeld n then w
  else
    let l := w.get F.CIO_BIND_CORE n
    let off := w.get F.CIO_BIND_OFF n * 64
    let c := w.tcmLe l (off + 0x30) 8
    if !nbit c 63 then w
    else
      let w := w.ctrlRequest n (nbits c 62 60) (w.tcmLe l (off + 0x38) 8)
      (w.tcmPut l (off + 0x30) (leBytes 8 (c - 2 ^ 63))).chRecord n

/-- A whole µs: pending requests of every bound record are applied (R387). -/
def execCtrlRequestPoll (s : State) : Host.Outcome State Fault Refusal :=
  lift (fun w => if w.now % 1000 ≤ 1 then (List.range 48).foldl W.ctrlPoll w else w) s

/-- An accepted OWN.PINOWN write resets the channel (R385). -/
def W.chReset (w : W) (n : Nat) : W :=
  let w := w.setCh n { pin := (w.ch n).pin }
  let w := [RegName.CIO_CFG, .CIO_STAT, .CIO_CMP, .CIO_CMPPER, .CIO_TMRNEXT, .CIO_PWM, .CIO_TMRCTL, .CIO_BIND].foldl (fun (w : W) (r : RegName) => w.setReg r n 0) w
  (w.chSync n).pinShow n

/-! ### The loop handshake (R389 to R391) -/

/-- A core's handshake state. -/
def W.loop (w : W) (l : Nat) : LoopSt := Tab.getD w.dev.loops l {}

/-- Replace it. -/
def W.setLoop (w : W) (l : Nat) (x : LoopSt) : W := { w with dev := { w.dev with loops := Tab.putD {} w.dev.loops l x } }

/-- OP EXCHANGE or HOLD: REQ with a new number, or ERR (R390): EXCHANGE only in Maintenance, HOLD in a service mode (assumption 35). -/
def W.loopStart (w : W) (l op : Nat) : W :=
  let modeOk := if op = 1 then decide (w.cur = mMAINT) else isService w.cur
  if w.flag F.CIO_LOOP_BUSY l || !modeOk || (w.physCore l).isNone then w.set F.CIO_LOOP_ERR 1 l
  else
    let num := ((w.loop l).req + 1) % 2 ^ 32
    let w := (w.set F.CIO_LOOP_BUSY 1 l).setLoop l { req := num, op := op, since := w.now }
    w.tcmPut l (w.hsOff l) (leBytes 8 (num * 2 ^ 32 + op))

/-- The channels bound to a core. -/
def W.boundTo (w : W) (l : Nat) : List Nat := (List.range 48).filter fun n => w.flag F.CIO_BIND_EN n && w.get F.CIO_BIND_CORE n = l

/-- Held events go to the records (R391): the cycle record of each bus first, then each channel's flags and record. -/
def W.releaseHeld (w : W) (l : Nat) : W :=
  let w := (List.range 4).foldl (fun (w : W) (n : Nat) =>
    match (w.bus n).heldRec with
    | some r => if w.get F.SAS_TCMB_CORE n = l then (w.modBus n fun b => { b with heldRec := none }).recordTcm n r else w
    | none => w) w
  (w.boundTo l).foldl (fun (w : W) (n : Nat) =>
    let c := w.ch n
    let w := w.modCh n fun c => { c with heldCmp := false, heldTmr := false }
    let w := if c.heldCmp then w.set F.CIO_STAT_CMPF 1 n else w
    (if c.heldTmr then w.set F.CIO_STAT_TMRF 1 n else w).chRecord n) w

/-- OP GO: ends a handshake that was acknowledged, else ERR (R390 step 5). -/
def W.loopGo (w : W) (l : Nat) : W :=
  if !w.flag F.CIO_LOOP_ACKED l then w.set F.CIO_LOOP_ERR 1 l
  else
    let w := (w.set F.CIO_LOOP_ACKED 0 l).releaseHeld l
    let w := w.tcmPut l (w.hsOff l) (zeros 8)
    (w.set F.CIO_LOOP_DONE 1 l).set F.CIO_LOOP_BUSY 0 l

/-- The first whole µs after the program wrote ACK := REQ (R390 step 3). -/
def W.loopAcked (w : W) (l : Nat) : W :=
  let x := w.loop l
  if w.flag F.CIO_LOOP_BUSY l ∧ !w.flag F.CIO_LOOP_ACKED l ∧ w.now % 1000 ≤ 1 ∧ w.tcmLe l (w.hsOff l + 8) 8 = x.req * 2 ^ 32 + x.op then
    w.set F.CIO_LOOP_ACKED 1 l
  else w

/-- The acknowledgement of a loop handshake is seen. -/
def execLoopAcked (l : Nat) (s : State) : Host.Outcome State Fault Refusal :=
  lift (fun w => if l < 32 then w.loopAcked l else w) s

/-- No ACK within LIMIT ms: REQ cleared, ERR, nothing held (R390). -/
def W.loopTimeout (w : W) (l : Nat) : W :=
  if w.flag F.CIO_LOOP_BUSY l ∧ !w.flag F.CIO_LOOP_ACKED l ∧ (w.loop l).since + w.get F.CIO_LOOP_LIMIT l * 1000000 ≤ w.now then
    ((w.tcmPut l (w.hsOff l) (zeros 8)).set F.CIO_LOOP_ERR 1 l).set F.CIO_LOOP_BUSY 0 l
  else w

/-- The acknowledgement limit of a loop handshake passes. -/
def execLoopAckTimeout (l : Nat) (s : State) : Host.Outcome State Fault Refusal :=
  lift (fun w => if l < 32 then w.loopTimeout l else w) s

end Sys2Proof.Machine
end

