-- ==== Sys2Proof/Machine/Codec.lean ====
section
/-! DEFINITION. What the compression engines decode (R95, R109, R110): check values, bit streams, and DEFLATE, zlib and gzip frames as
RFC 1951, 1950 and 1952 define them. -/

namespace Sys2Proof

/-- What a decoding step finds: a failure subcode of R110, or its result. -/
abbrev Dec (α : Type) := Except Nat α

/-- Frame or member header invalid (R110). -/
def dHDR : Nat := 1
/-- An option outside R95, or no check value under CHK (R110). -/
def dUNSUP : Nat := 2
/-- Invalid block, code, distance or offset (R110). -/
def dDATA : Nat := 3
/-- The output would exceed EXPLEN (R110). -/
def dLONG : Nat := 4
/-- The input was used up before the frame ended, or the frame ended early (R110). -/
def dSHORT : Nat := 5
/-- Check value mismatch (R110). -/
def dCHECK : Nat := 6
/-- Frame_Content_Size or ISIZE differs from the output (R110). -/
def dSIZE : Nat := 7

/-! ### Check values (R94, R109) -/

/-- Adler-32 (RFC 1950). -/
def adler32 (bs : List Byte) : Nat :=
  let p := bs.foldl (fun (p : Nat × Nat) b => let a := (p.1 + b.toNat) % 65521; (a, (p.2 + a) % 65521)) (1, 0)
  p.2 * 65536 + p.1

/-- CRC-32 (RFC 1952). -/
def crc32 (bs : List Byte) : Nat := Nat.xor (crcRun 0xEDB88320 0xFFFFFFFF bs) 0xFFFFFFFF

/-! ### Bit streams -/

/-- The bits of bytes, least significant first. -/
def bitsOf (bs : List Byte) : List Bool := bs.flatMap fun b => (List.range 8).map fun i => b.getLsbD i

/-- Bytes of bits, least significant first; the last byte is filled with zeros. -/
def bytesOf (l : List Bool) : List Byte :=
  (List.range ((l.length + 7) / 8)).map fun i => BitVec.ofNat 8 (((l.drop (8 * i)).take 8).foldr (fun b n => b2n b + 2 * n) 0)

/-- The number whose bits come least significant first. -/
def lsbNum (l : List Bool) : Nat := l.foldr (fun b n => b2n b + 2 * n) 0

/-- The number whose bits come most significant first. -/
def msbNum (l : List Bool) : Nat := l.foldl (fun n b => 2 * n + b2n b) 0

/-- The low `n` bits of a number, least significant first. -/
def numBits (n v : Nat) : List Bool := (List.range n).map fun i => v.testBit i

/-- Take `n` bits off a stream whose end is STLEN. -/
def takeBits (n : Nat) (l : List Bool) : Dec (Nat × List Bool) :=
  let h := l.take n
  if h.length < n then .error dSHORT else .ok (lsbNum h, l.drop n)

/-- Take `n` bytes. -/
def takeBytes (n : Nat) (l : List Byte) : Dec (List Byte × List Byte) :=
  let h := l.take n
  if h.length < n then .error dSHORT else .ok (h, l.drop n)

/-! ### Output (R109, R110) -/

/-- The output of a decoding: newest byte first, its length and EXPLEN. -/
structure Dout where
  /-- Bytes, newest first. -/
  rev : List Byte := []
  /-- How many. -/
  n : Nat := 0
  /-- EXPLEN. -/
  lim : Nat

/-- One byte of output. -/
def Dout.push (o : Dout) (b : Byte) : Dec Dout := if o.lim ≤ o.n then .error dLONG else .ok { o with rev := b :: o.rev, n := o.n + 1 }

/-- Bytes of output. -/
def Dout.pushAll (o : Dout) : List Byte → Dec Dout
  | [] => .ok o
  | b :: bs => match o.push b with | .ok o => o.pushAll bs | .error e => .error e

/-- A match: `len` bytes from distance `d` (R96). -/
def Dout.copy (o : Dout) (d : Nat) : Nat → Dec Dout
  | 0 => .ok o
  | len + 1 => match o.push (o.rev.getD (d - 1) 0) with | .ok o => o.copy d len | .error e => .error e

/-! ### DEFLATE (RFC 1951) -/

/-- A prefix code: how many codes have each length from 1 on, and the symbols in code order. -/
structure Huff where
  /-- Counts of lengths 1 to 15. -/
  counts : List Nat
  /-- Symbols by length, then by value. -/
  syms : List Nat

/-- The code of a list of code lengths. -/
def Huff.of (lens : List Nat) : Huff :=
  { counts := (List.range 15).map fun i => (lens.filter fun x => x = i + 1).length
    syms := (List.range 15).flatMap fun i => (List.range lens.length).filter fun s => lens.getD s 0 = i + 1 }

/-- Code space left after all codes, in units of the longest length: negative when the lengths claim too much. -/
def Huff.left (h : Huff) : Int := h.counts.foldl (fun (l : Int) (c : Nat) => 2 * l - (c : Int)) 1

/-- A set of lengths is a code: complete, or, where one symbol may stand alone, a single code of one bit (RFC 1951 3.2.7). -/
def Huff.good (h : Huff) (alone : Bool) : Bool :=
  decide (h.left = 0) || (alone && decide (h.syms.length = 0 || (h.syms.length = 1 && h.counts.headD 0 = 1)))

/-- Follow a code bit by bit. -/
def Huff.walk (syms : List Nat) : List Nat → Nat → Nat → Nat → List Bool → Dec (Nat × List Bool)
  | [], _, _, _, _ => .error dDATA
  | _ :: _, _, _, _, [] => .error dSHORT
  | c :: cs, code, first, idx, b :: bs =>
    let code := code + b2n b
    if code < first + c then .ok (syms.getD (idx + (code - first)) 0, bs)
    else Huff.walk syms cs (2 * code) (2 * (first + c)) (idx + c) bs

/-- Decode one symbol. -/
def Huff.sym (h : Huff) (bits : List Bool) : Dec (Nat × List Bool) := Huff.walk h.syms h.counts 0 0 0 bits

/-- Base lengths of the length symbols 257 to 285. -/
def lenBase : List Nat := [3, 4, 5, 6, 7, 8, 9, 10, 11, 13, 15, 17, 19, 23, 27, 31, 35, 43, 51, 59, 67, 83, 99, 115, 131, 163, 195, 227, 258]
/-- Their extra bits. -/
def lenExtra : List Nat := [0, 0, 0, 0, 0, 0, 0, 0, 1, 1, 1, 1, 2, 2, 2, 2, 3, 3, 3, 3, 4, 4, 4, 4, 5, 5, 5, 5, 0]
/-- Base distances of the distance symbols 0 to 29. -/
def distBase : List Nat :=
  [1, 2, 3, 4, 5, 7, 9, 13, 17, 25, 33, 49, 65, 97, 129, 193, 257, 385, 513, 769, 1025, 1537, 2049, 3073, 4097, 6145, 8193, 12289, 16385, 24577]
/-- Their extra bits. -/
def distExtra (s : Nat) : Nat := s / 2 - 1

/-- Symbols of a block up to its end; `win` is the farthest distance. -/
def inflSyms (win : Nat) (lit dist : Huff) : Nat → List Bool → Dout → Dec (List Bool × Dout)
  | 0, _, _ => .error dSHORT
  | fuel + 1, bits, o =>
    match lit.sym bits with
    | .error e => .error e
    | .ok (s, bits) =>
      if s < 256 then
        match o.push (BitVec.ofNat 8 s) with | .ok o => inflSyms win lit dist fuel bits o | .error e => .error e
      else if s = 256 then .ok (bits, o)
      else if 285 < s then .error dDATA
      else do
        let (x, bits) ← takeBits (lenExtra.getD (s - 257) 0) bits
        let (d, bits) ← dist.sym bits
        if 29 < d then .error dDATA
        else
          let (y, bits) ← takeBits (distExtra d) bits
          let back := distBase.getD d 0 + y
          if o.n < back ∨ win < back then .error dDATA
          else match o.copy back (lenBase.getD (s - 257) 0 + x) with | .ok o => inflSyms win lit dist fuel bits o | .error e => .error e

/-- The code lengths of a dynamic block, run-length coded. -/
def inflLens (h : Huff) (total : Nat) : Nat → List Nat → List Bool → Dec (List Nat × List Bool)
  | 0, _, _ => .error dDATA
  | fuel + 1, acc, bits =>
    if total ≤ acc.length then (if total < acc.length then .error dDATA else .ok (acc.reverse, bits))
    else do
      let (s, bits) ← h.sym bits
      if s < 16 then inflLens h total fuel (s :: acc) bits
      else if s = 16 then
        match acc with
        | [] => .error dDATA
        | p :: _ => do
          let (x, bits) ← takeBits 2 bits
          inflLens h total fuel (List.replicate (3 + x) p ++ acc) bits
      else if s = 17 then do
        let (x, bits) ← takeBits 3 bits
        inflLens h total fuel (List.replicate (3 + x) 0 ++ acc) bits
      else do
        let (x, bits) ← takeBits 7 bits
        inflLens h total fuel (List.replicate (11 + x) 0 ++ acc) bits

/-- The order of the code length code's lengths. -/
def lenOrder : List Nat := [16, 17, 18, 0, 8, 7, 9, 6, 10, 5, 11, 4, 12, 3, 13, 2, 14, 1, 15]

/-- The 3-bit lengths of the code length code. -/
def inflOrder : List Nat → List (Nat × Nat) → List Bool → Dec (List (Nat × Nat) × List Bool)
  | [], acc, bits => .ok (acc, bits)
  | s :: ss, acc, bits => match takeBits 3 bits with | .ok (x, bits) => inflOrder ss ((s, x) :: acc) bits | .error e => .error e

/-- The two codes of a dynamic block. -/
def inflDynamic (bits : List Bool) : Dec (Huff × Huff × List Bool) := do
  let (hlit, bits) ← takeBits 5 bits
  let (hdist, bits) ← takeBits 5 bits
  let (hclen, bits) ← takeBits 4 bits
  if 29 < hlit ∨ 29 < hdist then .error dDATA
  else
    let (ord, bits) ← inflOrder (lenOrder.take (hclen + 4)) [] bits
    let cl := Huff.of ((List.range 19).map fun s => ((ord.find? fun p => p.1 = s).map Prod.snd).getD 0)
    if !cl.good false then .error dDATA
    else
      let (lens, bits) ← inflLens cl (258 + hlit + hdist) 400 [] bits
      let lit := Huff.of (lens.take (257 + hlit))
      let dist := Huff.of (lens.drop (257 + hlit))
      if lens.getD 256 0 = 0 ∨ !lit.good true ∨ !dist.good true then .error dDATA else .ok (lit, dist, bits)

/-- The fixed literal and length code. -/
def fixedLit : Huff := Huff.of (List.replicate 144 8 ++ List.replicate 112 9 ++ List.replicate 24 7 ++ List.replicate 8 8)
/-- The fixed distance code. -/
def fixedDist : Huff := Huff.of (List.replicate 32 5)

/-- One block: BFINAL, and what follows it. -/
def inflBlock (win : Nat) (bits : List Bool) (o : Dout) : Dec (Bool × List Bool × Dout) := do
  let (fin, bits) ← takeBits 1 bits
  let (ty, bits) ← takeBits 2 bits
  if ty = 0 then
    let bits := bits.drop (bits.length % 8)
    let (len, bits) ← takeBits 16 bits
    let (nlen, bits) ← takeBits 16 bits
    if len + nlen ≠ 65535 then .error dDATA
    else
      let have_ := min len (bits.length / 8)
      let o ← o.pushAll (bytesOf (bits.take (8 * have_)))
      if have_ < len then .error dSHORT else .ok (fin = 1, bits.drop (8 * len), o)
  else if ty = 1 then
    let (bits, o) ← inflSyms win fixedLit fixedDist (bits.length + 1) bits o
    .ok (fin = 1, bits, o)
  else if ty = 2 then
    let (lit, dist, bits) ← inflDynamic bits
    let (bits, o) ← inflSyms win lit dist (bits.length + 1) bits o
    .ok (fin = 1, bits, o)
  else .error dDATA

/-- Blocks up to the one with BFINAL. -/
def inflBlocks (win : Nat) : Nat → List Bool → Dout → Dec (List Bool × Dout)
  | 0, _, _ => .error dSHORT
  | fuel + 1, bits, o => match inflBlock win bits o with
    | .error e => .error e
    | .ok (fin, bits, o) => if fin then .ok (bits, o) else inflBlocks win fuel bits o

/-- DEFLATE data: the bytes that follow it, and the output. -/
def inflate (win explen : Nat) (bs : List Byte) : Dec (List Byte × List Byte) := do
  let (bits, o) ← inflBlocks win (8 * bs.length + 1) (bitsOf bs) { lim := explen }
  .ok (bs.drop (bs.length - bits.length / 8), o.rev.reverse)

/-- The end of a frame (R109, R110): its check value, its size, and whether output and input both end where they must. -/
def frameEnd (check size : Bool) (explen : Nat) (rest out : List Byte) : Dec (List Byte) :=
  if !check then .error dCHECK
  else if !size then .error dSIZE
  else if out.length ≠ explen ∨ rest ≠ [] then .error dSHORT
  else .ok out

/-- A DEFLATE segment (R95, R98): it carries no check value. -/
def unDeflate (chk : Bool) (explen : Nat) (bs : List Byte) : Dec (List Byte) :=
  if chk then .error dUNSUP
  else do
    let (rest, out) ← inflate 32768 explen bs
    frameEnd true true explen rest out

/-- A zlib frame (RFC 1950, R95): matches reach back over the window that CINFO declares (R96). -/
def unZlib (explen : Nat) (bs : List Byte) : Dec (List Byte) := do
  let cmf := leAt bs 0 1
  if bs ≠ [] ∧ (cmf % 16 ≠ 8 ∨ 7 < cmf / 16) then .error dHDR
  else
  let (h, bs) ← takeBytes 2 bs
  let flg := leAt h 1 1
  if (cmf * 256 + flg) % 31 ≠ 0 then .error dHDR
  else if nbit flg 5 then .error dUNSUP
  else
    let (rest, out) ← inflate (2 ^ (cmf / 16 + 8)) explen bs
    let (a, rest) ← takeBytes 4 rest
    frameEnd (ofBE a = adler32 out) true explen rest out

/-- Skip a zero-terminated string. -/
def skipString (bs : List Byte) : Dec (List Byte) :=
  match bs.dropWhile fun b => b ≠ 0 with | [] => .error dSHORT | _ :: r => .ok r

/-- A gzip member (RFC 1952, R95): bytes after it, a second member among them, are a frame end before STLEN. -/
def unGzip (explen : Nat) (bs : List Byte) : Dec (List Byte) := do
  let id : List Byte := [0x1F, 0x8B, 8]
  let flg := leAt bs 3 1
  if id.take bs.length ≠ bs.take 3 then .error dHDR
  else if 31 < flg then .error dUNSUP
  else
    let (_, b) ← takeBytes 10 bs
    let b ← if nbit flg 2 then (do
      let (x, b) ← takeBytes 2 b
      let (_, b) ← takeBytes (leAt x 0 2) b
      pure b) else pure b
    let b ← if nbit flg 3 then skipString b else pure b
    let b ← if nbit flg 4 then skipString b else pure b
    let (bad, b) ← if nbit flg 1 then (do
      let (x, r) ← takeBytes 2 b
      pure (decide (leAt x 0 2 ≠ crc32 (bs.take (bs.length - b.length)) % 65536), r)) else pure (false, b)
    if bad then .error dHDR
    else
      let (rest, out) ← inflate 32768 explen b
      let (c, rest) ← takeBytes 8 rest
      frameEnd (leAt c 0 4 = crc32 out) (leAt c 4 4 = out.length % 2 ^ 32) explen rest out

end Sys2Proof
end

