-- ==== Sys2Proof/Machine/Zstd.lean ====
section
/-! DEFINITION. Zstandard frames as RFC 8878 defines them, within the limits of R95, and their content checksum XXH64 (R94, R95, R109). -/

namespace Sys2Proof

/-! ### XXH64 -/

/-- The state of XXH64 (R107): four accumulators, the total length and the bytes not yet folded in. -/
structure Xxh where
  /-- The four accumulators. -/
  acc : List Word := [0x60EA27EEADC0B5D6, 0xC2B2AE3D27D4EB4F, 0, 0x61C8864E7A143579]
  /-- Total length. -/
  len : Nat := 0
  /-- Bytes of an unfinished stripe. -/
  tail : List Byte := []
  deriving DecidableEq, Repr

/-- The five primes of XXH64. -/
def xxP1 : Word := 0x9E3779B185EBCA87
/-- Second prime. -/
def xxP2 : Word := 0xC2B2AE3D27D4EB4F
/-- Third prime. -/
def xxP3 : Word := 0x165667B19E3779F9
/-- Fourth prime. -/
def xxP4 : Word := 0x85EBCA77C2B2AE63
/-- Fifth prime. -/
def xxP5 : Word := 0x27D4EB2F165667C5

/-- One lane's round. -/
def xxRound (a x : Word) : Word := (a + x * xxP2).rotateLeft 31 * xxP1

/-- One more byte: a full stripe of 32 folds into the accumulators. -/
def Xxh.byte (s : Xxh) (b : Byte) : Xxh :=
  let t := s.tail ++ [b]
  if t.length < 32 then { s with len := s.len + 1, tail := t }
  else { acc := s.acc.mapIdx fun i a => xxRound a (BitVec.ofNat 64 (leAt t (8 * i) 8)), len := s.len + 1, tail := [] }

/-- XXH64 over bytes with seed 0. -/
def Xxh.run (bs : List Byte) : Xxh := bs.foldl Xxh.byte {}

/-- The bytes left at the end: words, then a half word, then single bytes. -/
def xxTail : Nat → Word → List Byte → Word
  | 0, h, _ => h
  | n + 1, h, t =>
    if t = [] then h
    else if 8 ≤ t.length then xxTail n ((h ^^^ xxRound 0 (BitVec.ofNat 64 (leAt t 0 8))).rotateLeft 27 * xxP1 + xxP4) (t.drop 8)
    else if 4 ≤ t.length then xxTail n ((h ^^^ (BitVec.ofNat 64 (leAt t 0 4) * xxP1)).rotateLeft 23 * xxP2 + xxP3) (t.drop 4)
    else xxTail n ((h ^^^ (BitVec.ofNat 64 (leAt t 0 1) * xxP5)).rotateLeft 11 * xxP1) (t.drop 1)

/-- The hash of a state. -/
def Xxh.hash (s : Xxh) : Nat :=
  let a (i : Nat) : Word := s.acc.getD i 0
  let h : Word :=
    if s.len < 32 then xxP5
    else s.acc.foldl (fun h v => (h ^^^ xxRound 0 v) * xxP1 + xxP4)
      ((a 0).rotateLeft 1 + (a 1).rotateLeft 7 + (a 2).rotateLeft 12 + (a 3).rotateLeft 18)
  let h := xxTail 32 (h + BitVec.ofNat 64 s.len) s.tail
  let h := (h ^^^ (h >>> 33)) * xxP2
  let h := (h ^^^ (h >>> 29)) * xxP3
  (h ^^^ (h >>> 32)).toNat

/-! ### Backward bit streams -/

/-- The bits of a stream that is read from its end: the last byte's highest 1 bit is its mark. -/
def backBits (bs : List Byte) : Dec (List Bool) :=
  match (bitsOf bs).reverse.dropWhile (! ·) with
  | _ :: l => if bs.getLast?.getD 0 = 0 then .error dDATA else .ok l
  | [] => .error dDATA

/-- Take `n` bits of a backward stream, most significant first; a stream that runs out is invalid. -/
def backTake (n : Nat) (l : List Bool) : Dec (Nat × List Bool) :=
  let h := l.take n
  if h.length < n then .error dDATA else .ok (msbNum h, l.drop n)

/-! ### FSE tables (RFC 8878 4.1) -/

/-- A state of an FSE table: its symbol, the bits to read for the next state, and that state's base. -/
structure FseCell where
  /-- Symbol. -/
  sym : Nat
  /-- Bits of the next state. -/
  nb : Nat
  /-- Base of the next state. -/
  base : Nat
  deriving DecidableEq, Repr

/-- An FSE decoding table. -/
structure Fse where
  /-- Accuracy log. -/
  log : Nat
  /-- States. -/
  cells : List FseCell
  deriving DecidableEq, Repr

/-- The next position of the spread that lies below `high`. -/
def spreadNext (size high : Nat) : Nat → Nat → Nat
  | 0, p => p
  | n + 1, p => let p := (p + size / 2 + size / 8 + 3) % size; if p < high then p else spreadNext size high n p

/-- Spread one symbol over `n` places. -/
def spreadSym (size high s : Nat) : Nat → Tab Nat × Nat → Tab Nat × Nat
  | 0, a => a
  | n + 1, (t, p) => spreadSym size high s n (Tab.put t p s, spreadNext size high size p)

/-- The table of a distribution; −1 stands for a probability below 1. -/
def Fse.build (log : Nat) (norm : List Int) : Fse :=
  let size := 2 ^ log
  let low := (List.range norm.length).filter fun s => norm.getD s 0 = -1
  let high := size - low.length
  let t : Tab Nat := (low.zipIdx).foldl (fun t p => Tab.put t (size - 1 - p.2) p.1) []
  let (t, _) := (List.range norm.length).foldl (fun a s => spreadSym size high s (norm.getD s 0).toNat a) (t, 0)
  let step (a : Tab Nat × List FseCell) (i : Nat) : Tab Nat × List FseCell :=
    let s := Tab.getD t i 0
    let x := Tab.getD a.1 s (max 1 (norm.getD s 0).toNat)
    let nb := log - Nat.log2 x
    (Tab.put a.1 s (x + 1), ⟨s, nb, x * 2 ^ nb - size⟩ :: a.2)
  ⟨log, ((List.range size).foldl step ([], [])).2.reverse⟩

/-- Two-bit counts of further zero probabilities. -/
def fseZeros : Nat → List Bool → Nat → Dec (Nat × List Bool)
  | 0, _, _ => .error dDATA
  | f + 1, bits, n => match takeBits 2 bits with
    | .error _ => .error dDATA
    | .ok (r, bits) => if r = 3 then fseZeros f bits (n + 3) else .ok (n + r, bits)

/-- The probabilities of a distribution, newest first. -/
def fseNorm (maxSym : Nat) : Nat → Nat → List Int → List Bool → Dec (List Int × List Bool)
  | 0, _, _, _ => .error dDATA
  | f + 1, left, acc, bits =>
    if left = 0 then .ok (acc, bits)
    else if maxSym < acc.length then .error dDATA
    else
      let k := Nat.log2 (left + 1) + 1
      match takeBits (k - 1) bits with
      | .error _ => .error dDATA
      | .ok (low, more) =>
        let thr := 2 ^ k - 1 - (left + 1)
        let (v, rest, ok) :=
          if low < thr then (low, more, true)
          else match more with
            | [] => (0, [], false)
            | b :: more => if b then (low + 2 ^ (k - 1) - thr, more, true) else (low, more, true)
        let p : Int := (v : Int) - 1
        if !ok || decide (left < p.natAbs) then .error dDATA
        else if p = 0 then
          match fseZeros (maxSym + 2) rest 0 with
          | .error e => .error e
          | .ok (z, rest) => fseNorm maxSym f left (List.replicate (z + 1) 0 ++ acc) rest
        else fseNorm maxSym f (left - p.natAbs) (p :: acc) rest

/-- A table description: the table and the bytes after it. -/
def Fse.read (maxLog maxSym : Nat) (bs : List Byte) : Dec (Fse × List Byte) :=
  match takeBits 4 (bitsOf bs) with
  | .error _ => .error dDATA
  | .ok (a, bits) =>
    if maxLog < a + 5 then .error dDATA
    else match fseNorm maxSym (maxSym + 2) (2 ^ (a + 5)) [] bits with
      | .error e => .error e
      | .ok (acc, rest) =>
        if maxSym + 1 < acc.length then .error dDATA else .ok (Fse.build (a + 5) acc.reverse, bs.drop (bs.length - rest.length / 8))

/-- The cell of a state. -/
def Fse.at_ (t : Fse) (s : Nat) : FseCell := t.cells.getD s ⟨0, 0, 0⟩

/-! ### Literals (RFC 8878 3.1.1.3.1, 4.2) -/

/-- A Huffman table: the longest code, and symbol and code length by the code's bits. -/
structure HufT where
  /-- Longest code. -/
  log : Nat
  /-- Symbol and length for each value of `log` bits. -/
  cells : List (Nat × Nat)
  deriving DecidableEq, Repr

/-- The table of the weights given; the last symbol's weight completes them. -/
def HufT.of (ws : List Nat) : Dec HufT :=
  let sum := (ws.map fun w => if w = 0 then 0 else 2 ^ (w - 1)).foldl (· + ·) 0
  let log := Nat.log2 sum + 1
  let left := 2 ^ log - sum
  if sum = 0 ∨ 11 < log ∨ (ws.any fun w => 11 < w) ∨ 2 ^ Nat.log2 left ≠ left ∨ 255 < ws.length then .error dDATA
  else
    let ws := ws ++ [Nat.log2 left + 1]
    .ok ⟨log, (List.range 11).flatMap fun i => (List.range ws.length).flatMap fun s =>
      if ws.getD s 0 = i + 1 then List.replicate (2 ^ i) (s, log - i) else []⟩

/-- FSE coded weights: two states in turn, until the stream is used up. -/
def hufWeights (t : Fse) : Nat → Nat → Nat → List Nat → List Bool → Dec (List Nat)
  | 0, _, _, _, _ => .error dDATA
  | f + 1, s1, s2, acc, bits =>
    let c := t.at_ s1
    if bits.length < c.nb then .ok ((t.at_ s2).sym :: c.sym :: acc)
    else match backTake c.nb bits with
      | .error e => .error e
      | .ok (x, bits) => hufWeights t f s2 (c.base + x) (c.sym :: acc) bits

/-- A Huffman tree description: the table and the bytes after it. -/
def HufT.read (bs : List Byte) : Dec (HufT × List Byte) :=
  match bs with
  | [] => .error dDATA
  | h :: r =>
    let h := h.toNat
    if h < 128 then
      if r.length < h then .error dDATA
      else match Fse.read 6 255 (r.take h) with
        | .error e => .error e
        | .ok (t, more) => match backBits more with
          | .error e => .error e
          | .ok bits => match backTake t.log bits with
            | .error e => .error e
            | .ok (s1, bits) => match backTake t.log bits with
              | .error e => .error e
              | .ok (s2, bits) => match hufWeights t 256 s1 s2 [] bits with
                | .error e => .error e
                | .ok ws => (HufT.of ws.reverse).map fun t => (t, r.drop h)
    else
      let n := h - 127
      if r.length < (n + 1) / 2 then .error dDATA
      else (HufT.of ((List.range n).map fun i => if i % 2 = 0 then leAt r (i / 2) 1 / 16 else leAt r (i / 2) 1 % 16)).map fun t => (t, r.drop ((n + 1) / 2))

/-- `n` literals of one stream, which they use up exactly. -/
def HufT.stream (t : HufT) : Nat → List Bool → List Byte → Dec (List Byte)
  | 0, bits, acc => if bits = [] then .ok acc.reverse else .error dDATA
  | n + 1, bits, acc =>
    let h := bits.take t.log
    let (s, len) := t.cells.getD (msbNum h * 2 ^ (t.log - h.length)) (0, 99)
    if h.length < len then .error dDATA else t.stream n (bits.drop len) (BitVec.ofNat 8 s :: acc)

/-- `n` literals of one stream's bytes. -/
def HufT.bytes (t : HufT) (n : Nat) (bs : List Byte) : Dec (List Byte) := match backBits bs with | .ok l => t.stream n l [] | .error e => .error e

/-- What later blocks of a frame use again: the Huffman table, the tables of literal lengths, offsets and match lengths, and the repeat
offsets (R107). -/
structure ZState where
  /-- Huffman table. -/
  huf : Option HufT := none
  /-- Literal length table. -/
  ll : Option Fse := none
  /-- Offset table. -/
  off : Option Fse := none
  /-- Match length table. -/
  ml : Option Fse := none
  /-- Repeat offsets. -/
  reps : List Nat := [1, 4, 8]
  deriving DecidableEq, Repr

/-- The literals section: the literals, the bytes after it, and the Huffman table in force. -/
def zLiterals (st : ZState) (bs : List Byte) : Dec (List Byte × List Byte × ZState) :=
  match bs with
  | [] => .error dDATA
  | b :: _ =>
    let ty := b.toNat % 4
    let sf := b.toNat / 4 % 4
    if ty < 2 then
      let (hl, n) := if sf % 2 = 0 then (1, b.toNat / 8) else if sf = 1 then (2, leAt bs 0 2 / 16) else (3, leAt bs 0 3 / 16)
      if bs.length < hl then .error dDATA
      else
        let r := bs.drop hl
        if ty = 0 then (if r.length < n then .error dDATA else .ok (r.take n, r.drop n, st))
        else match r with | [] => .error dDATA | x :: r => .ok (List.replicate n x, r, st)
    else
      let (hl, k) := if sf < 2 then (3, 10) else if sf = 2 then (4, 14) else (5, 18)
      let v := leAt bs 0 hl / 16
      let n := v % 2 ^ k
      let size := v / 2 ^ k % 2 ^ k
      let r := (bs.drop hl).take size
      let after := bs.drop (hl + size)
      if bs.length < hl + size then .error dDATA
      else do
        let (t, r) ← (if ty = 2 then HufT.read r else match st.huf with | some t => .ok (t, r) | none => .error dDATA)
        let st := { st with huf := some t }
        if sf = 0 then
          let l ← t.bytes n r
          .ok (l, after, st)
        else
          let s1 := leAt r 0 2
          let s2 := leAt r 2 2
          let s3 := leAt r 4 2
          let q := (n + 3) / 4
          let r := r.drop 6
          if r.length < s1 + s2 + s3 + 1 ∨ n < 3 * q then .error dDATA
          else
            let l1 ← t.bytes q (r.take s1)
            let l2 ← t.bytes q ((r.drop s1).take s2)
            let l3 ← t.bytes q ((r.drop (s1 + s2)).take s3)
            let l4 ← t.bytes (n - 3 * q) (r.drop (s1 + s2 + s3))
            .ok (l1 ++ l2 ++ l3 ++ l4, after, st)

/-! ### Sequences (RFC 8878 3.1.1.3.2, 3.1.1.4) -/

/-- The predefined distribution of literal lengths. -/
def llDefault : List Int :=
  [4, 3, 2, 2, 2, 2, 2, 2, 2, 2, 2, 2, 2, 1, 1, 1, 2, 2, 2, 2, 2, 2, 2, 2, 2, 3, 2, 1, 1, 1, 1, 1, -1, -1, -1, -1]
/-- The predefined distribution of match lengths. -/
def mlDefault : List Int := [1, 4, 3, 2, 2, 2, 2, 2, 2] ++ List.replicate 37 1 ++ List.replicate 7 (-1)
/-- The predefined distribution of offsets. -/
def offDefault : List Int := [1, 1, 1, 1, 1, 1, 2, 2, 2] ++ List.replicate 15 1 ++ List.replicate 5 (-1)

/-- Base and extra bits of a literal length code. -/
def llCode (c : Nat) : Nat × Nat :=
  if c < 16 then (c, 0)
  else ([(16, 1), (18, 1), (20, 1), (22, 1), (24, 2), (28, 2), (32, 3), (40, 3), (48, 4), (64, 6)].getD (c - 16) (2 ^ (c - 19), c - 19))
/-- Base and extra bits of a match length code. -/
def mlCode (c : Nat) : Nat × Nat :=
  if c < 32 then (c + 3, 0)
  else ([(35, 1), (37, 1), (39, 1), (41, 1), (43, 2), (47, 2), (51, 3), (59, 3), (67, 4), (83, 4), (99, 5)].getD (c - 32) (2 ^ (c - 36) + 3, c - 36))

/-- One table of the sequences section by its mode: predefined, RLE, FSE or repeated. -/
def zTable (mode defLog maxLog maxSym : Nat) (defNorm : List Int) (old : Option Fse) (bs : List Byte) : Dec (Fse × List Byte) :=
  match mode with
  | 0 => .ok (Fse.build defLog defNorm, bs)
  | 1 => match bs with
    | [] => .error dDATA
    | b :: r => if maxSym < b.toNat then .error dDATA else .ok (⟨0, [⟨b.toNat, 0, 0⟩]⟩, r)
  | 2 => Fse.read maxLog maxSym bs
  | _ => match old with | some t => .ok (t, bs) | none => .error dDATA

/-- The offset of a sequence, and the repeat offsets after it. -/
def zOffset (reps : List Nat) (v ll : Nat) : Nat × List Nat :=
  let a := reps.getD 0 0
  let b := reps.getD 1 0
  let c := reps.getD 2 0
  if 3 < v then (v - 3, [v - 3, a, b])
  else match v - 1 + b2n (decide (ll = 0)) with
    | 0 => (a, reps)
    | 1 => (b, [b, a, c])
    | 2 => (c, [c, a, b])
    | _ => (a - 1, [a - 1, a, b])

/-- Execute the sequences of a block; the literals that are left follow the last. -/
def zSeqs (win : Nat) (lt ot mt : Fse) : Nat → Nat → Nat → Nat → List Bool → List Byte → List Nat → Dout → Dec (List Nat × Dout)
  | 0, _, _, _, bits, lits, reps, o => if bits = [] then (o.pushAll lits).map fun o => (reps, o) else .error dDATA
  | n + 1, ls, os, ms, bits, lits, reps, o =>
    let lc := lt.at_ ls
    let oc := ot.at_ os
    let mc := mt.at_ ms
    do
      let (x, bits) ← backTake oc.sym bits
      let (y, bits) ← backTake (mlCode mc.sym).2 bits
      let (z, bits) ← backTake (llCode lc.sym).2 bits
      let ll := (llCode lc.sym).1 + z
      let (d, reps) := zOffset reps (2 ^ oc.sym + x) ll
      if lits.length < ll then .error dDATA
      else
        let o ← o.pushAll (lits.take ll)
        if d = 0 ∨ o.n < d ∨ win < d then .error dDATA
        else
          let o ← o.copy d ((mlCode mc.sym).1 + y)
          if n = 0 then zSeqs win lt ot mt n ls os ms bits (lits.drop ll) reps o
          else
            let (a, bits) ← backTake lc.nb bits
            let (b, bits) ← backTake mc.nb bits
            let (c, bits) ← backTake oc.nb bits
            zSeqs win lt ot mt n (lc.base + a) (oc.base + c) (mc.base + b) bits (lits.drop ll) reps o

/-- The content of a compressed block. -/
def zBlock (win : Nat) (st : ZState) (bs : List Byte) (o : Dout) : Dec (ZState × Dout) := do
  let (lits, r, st) ← zLiterals st bs
  match r with
  | [] => .error dDATA
  | b0 :: r1 =>
    if b0 = 0 then (if r1 = [] then (o.pushAll lits).map fun o => (st, o) else .error dDATA)
    else
      let k := b0.toNat
      let (n, hl) := if k < 128 then (k, 1) else if k < 255 then ((k - 128) * 256 + leAt r 1 1, 2) else (leAt r 1 2 + 0x7F00, 3)
      if r.length < hl + 1 then .error dDATA
      else
        let m := leAt r hl 1
        if m % 4 ≠ 0 then .error dUNSUP
        else
          let (lt, r) ← zTable (m / 64) 6 9 35 llDefault st.ll (r.drop (hl + 1))
          let (ot, r) ← zTable (m / 16 % 4) 5 8 31 offDefault st.off r
          let (mt, r) ← zTable (m / 4 % 4) 6 9 52 mlDefault st.ml r
          let bits ← backBits r
          let (ls, bits) ← backTake lt.log bits
          let (os, bits) ← backTake ot.log bits
          let (ms, bits) ← backTake mt.log bits
          let (reps, o) ← zSeqs win lt ot mt n ls os ms bits lits st.reps o
          .ok ({ st with ll := some lt, off := some ot, ml := some mt, reps := reps }, o)

/-! ### Frames (RFC 8878 3.1) -/

/-- Blocks up to the last: each at most the block maximum, on either side (R95). -/
def zBlocks (win : Nat) : Nat → ZState → List Byte → Dout → Dec (List Byte × Dout)
  | 0, _, _, _ => .error dSHORT
  | f + 1, st, bs, o => do
    let (h, r) ← takeBytes 3 bs
    let v := leAt h 0 3
    let ty := v / 2 % 4
    let size := v / 8
    let most := min win 131072
    if ty = 3 ∨ most < size then .error dDATA
    else
      let (st, r, o') ← (match ty with
        | 0 => (do
          let o' ← o.pushAll (r.take size)
          if r.length < size then .error dSHORT else .ok (st, r.drop size, o'))
        | 1 => (match r with
          | [] => .error dSHORT
          | b :: r => (do
            let o' ← o.pushAll (List.replicate size b)
            .ok (st, r, o')))
        | _ => (do
          let (c, r) ← takeBytes size r
          let (st, o') ← zBlock win st c o
          .ok (st, r, o')) : Dec (ZState × List Byte × Dout))
      if most < o'.n - o.n then .error dDATA
      else if v % 2 = 1 then .ok (r, o') else zBlocks win f st r o'

/-- Skippable frames before the frame are skipped (R95). -/
def zSkip : Nat → List Byte → Dec (List Byte)
  | 0, bs => .ok bs
  | f + 1, bs =>
    if leAt bs 1 3 = 0x184D2A ∧ 0x50 ≤ leAt bs 0 1 ∧ leAt bs 0 1 ≤ 0x5F then do
      let (h, r) ← takeBytes 8 bs
      let (_, r) ← takeBytes (leAt h 4 4) r
      zSkip f r
    else .ok bs

/-- The window that a Window_Descriptor names. -/
def zWindow (b : Nat) : Nat := 2 ^ (10 + b / 8) + 2 ^ (10 + b / 8) / 8 * (b % 8)

/-- A Zstandard segment (R95, R109). -/
def unZstd (chk : Bool) (explen : Nat) (bs : List Byte) : Dec (List Byte) := do
  let bs ← zSkip bs.length bs
  let magic : List Byte := [0x28, 0xB5, 0x2F, 0xFD]
  if magic.take bs.length ≠ bs.take 4 then .error dHDR
  else
    let (h, r) ← takeBytes 5 bs
    let d := leAt h 4 1
    let single := nbit d 5
    if nbit d 3 then .error dUNSUP
    else
      let (w, r) ← takeBytes (if single then 0 else 1) r
      let (id, r) ← takeBytes ([0, 1, 2, 4].getD (d % 4) 0) r
      let fl := d / 64
      let (f, r) ← takeBytes (if fl = 0 then b2n single else 2 ^ fl) r
      let fcs : Option Nat := if f = [] then none else some (ofLE f + if fl = 1 then 256 else 0)
      let win := if single then fcs.getD 0 else zWindow (leAt w 0 1)
      if ofLE id ≠ 0 ∨ 8388608 < win ∨ (chk && !nbit d 2) then .error dUNSUP
      else
        let (rest, o) ← zBlocks win (bs.length + 1) {} r { lim := explen }
        let out := o.rev.reverse
        let size := match fcs with | some n => decide (n = explen) && decide (n = out.length) | none => true
        if nbit d 2 then
          let (c, rest) ← takeBytes 4 rest
          frameEnd (ofLE c = (Xxh.run out).hash % 2 ^ 32) size explen rest out
        else frameEnd true size explen rest out

/-- What decoding a frame of a segment finds, by the descriptor's FORMAT and the profile's CHK (R95, R98, R109): the failure subcode in the
order of R110, or the output. -/
def unFrame (format : Nat) (chk : Bool) (explen : Nat) (bs : List Byte) : Dec (List Byte) :=
  match format with
  | 1 => unDeflate chk explen bs
  | 2 => unZlib explen bs
  | 3 => unGzip explen bs
  | 4 => unZstd chk explen bs
  | _ => .error dUNSUP

end Sys2Proof
end

