-- ==== Sys2Proof/Machine/Encode.lean ====
section
/-! DEFINITION. The frames that COMPRESS jobs form (R94, R96, R97, R108): headers, blocks of at most 8 KiB and trailers. Which matches an engine
finds is not in the spec: a coded block is one that decodes to its input. -/

namespace Sys2Proof

/-- FORMAT of a profile word (R97). -/
def profFormat (p : Nat) : Nat := nbits p 3 0
/-- LEVEL of a profile word. -/
def profLevel (p : Nat) : Nat := nbits p 23 20

/-- The window log of a COMPRESS: 0 selects the format's maximum, capped at SEGSHIFT (R97). -/
def profWlog (p segshift : Nat) : Nat := if nbits p 28 24 ≠ 0 then nbits p 28 24 else min (if profFormat p = 4 then 23 else 15) segshift

/-- Input bytes of a block: 8 KiB, or less where a Zstandard window is smaller: RFC 8878 lets no block pass it (assumption 102). -/
def encSize (p wlog : Nat) : Nat := if profFormat p = 4 && !nbit p 9 then min 8192 (2 ^ wlog) else 8192

/-- Blocks of `n` input bytes. -/
def encCount (p wlog n : Nat) : Nat := max 1 (ceilDiv n (encSize p wlog))

/-- The header of a frame for `n` input bytes (R94). The length of Frame_Content_Size is that of the worked example (assumption 102). -/
def encHead (p wlog n : Nat) : List Byte :=
  let level := profLevel p
  match profFormat p with
  | 2 =>
    let v := ((wlog - 8) * 16 + 8) * 256 + level * 64
    beBytes 2 (v + (31 - v % 31) % 31)
  | 3 => [0x1F, 0x8B, 8, 0, 0, 0, 0, 0, if level = 3 then 2 else if level = 1 then 4 else 0, 255]
  | 4 => [0x28, 0xB5, 0x2F, 0xFD] ++
    (if nbit p 9 then leBytes 1 (0xA0 + 4 * b2n (nbit p 8)) ++ leBytes 4 n else leBytes 1 (4 * b2n (nbit p 8)) ++ leBytes 1 ((wlog - 10) * 8))
  | _ => []

/-- The trailer of a frame (R94). -/
def encTail (p : Nat) (input : List Byte) : List Byte :=
  match profFormat p with
  | 2 => beBytes 4 (adler32 input)
  | 3 => leBytes 4 (crc32 input) ++ leBytes 4 input.length
  | 4 => if nbit p 8 then leBytes 4 (Xxh.run input).hash else []
  | _ => []

/-- How far an encoder has come: the frame so far, and what later Zstandard blocks may use again (R107). -/
structure Enc where
  /-- Bits of the frame so far, least significant of each byte first. -/
  bits : List Bool
  /-- Zstandard tables and repeat offsets. -/
  z : ZState := {}

/-- The output before a block, for checking what a coded block decodes to. -/
def encPast (hist blk : List Byte) : Dout := { rev := hist.reverse, n := hist.length, lim := hist.length + blk.length }

/-- A DEFLATE block that is coded by fixed or dynamic codes is one that decodes to its input (R94, R96, R108). -/
def deflateOk (wlog ty : Nat) (last : Bool) (hist blk : List Byte) (c : List Bool) : Bool :=
  decide (lsbNum ((c.drop 1).take 2) = ty) &&
  match inflBlock (2 ^ wlog) c (encPast hist blk) with
  | .ok (fin, rest, o) => fin == last && rest.isEmpty && o.rev.take blk.length == blk.reverse && o.n == hist.length + blk.length
  | .error _ => false

/-- A stored DEFLATE block after `n` bits. -/
def deflateStored (n : Nat) (last : Bool) (blk : List Byte) : List Bool :=
  [last, false, false] ++ List.replicate ((8 - (n + 3) % 8) % 8) false ++ numBits 16 blk.length ++ numBits 16 (65535 - blk.length) ++ bitsOf blk

/-- The shortest, the first of equal ones. -/
def shortest {α : Type} : List α → List (List α) → List α
  | best, [] => best
  | best, c :: cs => shortest (if c.length < best.length then c else best) cs

/-- One DEFLATE block: stored only at LEVEL 0, else the shortest of the three codings (R94). -/
def deflateBlock (p wlog run k : Nat) (last : Bool) (hist blk : List Byte) (e : Enc) : Enc :=
  let coded := if profLevel p = 0 then [] else
    [1, 2].filterMap fun ty =>
      let c := Config.deflateBlock (ty = 2) ⟨profLevel p, wlog, run, k, last, hist, blk⟩
      if deflateOk wlog ty last hist blk c then some c else none
  { e with bits := e.bits ++ shortest (deflateStored e.bits.length last blk) coded }

/-- A Zstandard block: its header and content (RFC 8878 3.1.1.2). -/
def zFrameBlock (ty : Nat) (last : Bool) (n : Nat) (c : List Byte) : List Byte := leBytes 3 (b2n last + 2 * ty + 8 * n) ++ c

/-- One Zstandard block: raw only at LEVEL 0, else the shortest of raw, RLE and compressed (R94). -/
def zstdBlock (p wlog run k : Nat) (last : Bool) (hist blk : List Byte) (e : Enc) : Enc :=
  let raw := zFrameBlock 0 last blk.length blk
  if profLevel p = 0 then { e with bits := e.bits ++ bitsOf raw }
  else
    let rle := match blk with | b :: _ => if blk.all (· == b) then [zFrameBlock 1 last blk.length [b]] else [] | [] => []
    let c := Config.zstdBlock ⟨profLevel p, wlog, run, k, last, hist, blk⟩
    let z := match zBlock (2 ^ wlog) e.z c (encPast hist blk) with
      | .ok (z, o) => if o.rev.take blk.length == blk.reverse && o.n == hist.length + blk.length then some z else none
      | .error _ => none
    let best := shortest raw rle
    let comp := zFrameBlock 2 last c.length c
    match z with
    | some z => if comp.length < best.length then { bits := e.bits ++ bitsOf comp, z := z } else { e with bits := e.bits ++ bitsOf best }
    | none => { e with bits := e.bits ++ bitsOf best }

/-- The frame up to its `n`th block. `cuts` are the blocks before which the job was resumed: a resumed job may code what follows in another way
(R108). -/
def encRun (p wlog : Nat) (cuts : List Nat) (input : List Byte) (n : Nat) : Enc :=
  let size := encSize p wlog
  let last := encCount p wlog input.length - 1
  (List.range n).foldl (fun (e : Enc) (k : Nat) =>
    let run := (cuts.filter fun c => decide (c ≤ k)).length
    let hist := input.take (k * size)
    let blk := (input.drop (k * size)).take size
    if profFormat p = 4 then zstdBlock p wlog run k (k = last) hist blk e else deflateBlock p wlog run k (k = last) hist blk e)
    { bits := bitsOf (encHead p wlog input.length) }

/-- The whole frame (R94). -/
def encFrame (p wlog : Nat) (cuts : List Nat) (input : List Byte) : List Byte :=
  bytesOf (encRun p wlog cuts input (encCount p wlog input.length)).bits ++ encTail p input

end Sys2Proof
end

