-- ==== Sys2Proof/Machine/Link.lean ====
section
/-! DEFINITION. Sending on the partner link, and the flits that carry it (R316 to R320). -/

namespace Sys2Proof.Machine

open Sys2Proof

/-- The modules are paired (R324). -/
def W.paired (w : W) : Bool := w.flag F.PLK_STAT_PAIRED

/-- Journal writes follow R84: the mode is Degraded, or Recovery entered from it. -/
def W.degradedWay (w : W) : Bool :=
  decide (w.cur = mDEGRADED) || (decide (w.cur = mRECOVERY) && decide (w.dev.mode.recFrom = some mDEGRADED))

/-- The 256 bytes of a flit (R316). -/
def flitBytes (ftype vcf fseq ackseq crvc crcnt : Nat) (payload : List Byte) : List Byte :=
  let b := leBytes 1 ftype ++ leBytes 1 vcf ++ beBytes 2 fseq ++ beBytes 2 ackseq ++ leBytes 1 (crvc * 16) ++ leBytes 1 crcnt ++
    (payload ++ zeros 240).take 240
  b ++ beBytes 8 (crc64 b)

/-- The credits that the next flit returns: those of the lowest channel that owes any, at most 255 (R316, R319). -/
def PlkSt.owes (p : PlkSt) : Nat × Nat :=
  match (List.range 4).find? fun v => decide (0 < p.owed.getD v 0) with
  | some v => (v, min 255 (p.owed.getD v 0))
  | none => (0, 0)

/-- Send one flit, with the acknowledgement and the credits it carries (R316, R317). -/
def W.putFlit (w : W) (ftype vcf fseq : Nat) (payload : List Byte) : W :=
  let p := w.dev.plk
  let (v, n) := p.owes
  let w := w.modPlk fun p => { p with owed := p.owed.set v (p.owed.getD v 0 - n), sinceAck := 0 }
  (w.event .port 40 0x201 256 0xFFFF).send (.flit (flitBytes ftype vcf fseq ((p.expect + 65535) % 65536) v n payload))

/-- Take the next flit to send: the highest-precedence channel with a flit and a credit, in the window (R317, R319). -/
def W.pumpOne (w : W) : Option W :=
  let p := w.dev.plk
  if w.get F.PLK_STAT_LINK ≠ 2 || decide (512 ≤ p.replay.length) then none
  else match [2, 0, 1, 3].find? fun v => !(p.waiting.getD v []).isEmpty && decide (0 < p.credits.getD v 0) with
    | none => none
    | some v =>
      match p.waiting.getD v [] with
      | [] => none
      | f :: rest =>
        let f := { f with seq := p.nextSeq }
        let w := w.modPlk fun p => { p with
          waiting := p.waiting.set v rest
          credits := p.credits.set v (p.credits.getD v 0 - 1)
          sent := p.sent.set v (p.sent.getD v 0 + 1)
          replay := p.replay ++ [f]
          nextSeq := (p.nextSeq + 1) % 65536 }
        some (w.putFlit 1 f.vcf f.seq f.payload)

/-- Send as many flits as the link takes. -/
def W.pumpN : Nat → W → W
  | 0, w => w
  | n + 1, w => match w.pumpOne with | some w => W.pumpN n w | none => w

/-- Send every flit that may go now. -/
def W.pump (w : W) : W := W.pumpN ((w.dev.plk.waiting.map List.length).sum) w

/-- Cut a message into flits: SOM on the first, EOM on the last (R316, R319). -/
def flitsOf (vc : Nat) (first : Bool) : Nat → List Byte → List PlkFlit
  | 0, _ => []
  | n + 1, bs =>
    let last := decide (bs.length ≤ 240)
    let f : PlkFlit := ⟨0, vc * 16 + (if first then 8 else 0) + (if last then 4 else 0), bs.take 240⟩
    if last then [f] else f :: flitsOf vc false n (bs.drop 240)

/-- The 16-byte message header (R320). -/
def msgHead (mtype slot mlen key : Nat) : List Byte :=
  leBytes 1 mtype ++ [0] ++ beBytes 2 slot ++ beBytes 4 mlen ++ beBytes 8 key

/-- Send a message on a virtual channel; nothing is sent while the modules are not paired. -/
def W.plkSend (w : W) (vc mtype slot key : Nat) (body : List Byte) : W :=
  if !w.paired then w
  else
    let bs := msgHead mtype slot body.length key ++ body
    let fs := flitsOf vc true (bs.length / 240 + 1) bs
    (w.modPlk fun p => { p with
      waiting := p.waiting.set vc (p.waiting.getD vc [] ++ fs)
      queued := p.queued.set vc (p.queued.getD vc 0 + fs.length) }).pump

/-- Whether every flit enqueued on a channel up to a count has left the module (R81). -/
def W.hasLeft (w : W) (at_ : Nat × Nat) : Bool := !w.paired || decide (at_.2 ≤ w.dev.plk.sent.getD at_.1 0)

/-- The point at which everything now enqueued on a channel has left. -/
def W.linkMark (w : W) (vc : Nat) : Nat × Nat := (vc, w.dev.plk.queued.getD vc 0)

/-- Discard replay buffers and credit books and start them anew (R319, R324, R332). -/
def PlkSt.restart (p : PlkSt) : PlkSt :=
  { p with
    replay := [], nextSeq := 0, expect := 0, nakSent := false, sinceAck := 0, replays := 0
    credits := [128, 1024, 256, 64], owed := [0, 0, 0, 0], waiting := [[], [], [], []]
    queued := [0, 0, 0, 0], sent := [0, 0, 0, 0]
    rx := [([], 0), ([], 0), ([], 0), ([], 0)], inbox := [[], [], [], []] }

end Sys2Proof.Machine
end

