-- ==== Sys2Proof/Machine/Neve.lean ====
section
/-! DEFINITION. The Névé pool: buffers, their contents and the free count (R14, R52, R54, R125). -/

namespace Sys2Proof.Machine

open Sys2Proof

/-- Change the pool. -/
def W.modNeve (w : W) (f : NeveSt → NeveSt) : W := { w with dev := { w.dev with neve := f w.dev.neve } }

/-- Buffers of the pool (R52). -/
def W.neveTotal (w : W) : Nat := w.xm 12288 6144

/-- Free buffers. -/
def W.neveFree (w : W) : Nat := w.neveTotal - w.dev.neve.used.length

/-- NEVE.ALLOCSTAT follows the pool: FREE, and MINFREE the lowest since its last read (R54). -/
def W.neveStat (w : W) : W :=
  let w := w.set F.NEVE_ALLOCSTAT_FREE w.neveFree
  w.set F.NEVE_ALLOCSTAT_MINFREE (min w.neveFree (w.get F.NEVE_ALLOCSTAT_MINFREE))

/-- The lowest `n` numbers from `k` up that a rising list does not hold. -/
def pickFree : (fuel : Nat) → List Nat → (k n : Nat) → List Nat
  | 0, _, _, _ => []
  | _ + 1, _, _, 0 => []
  | f + 1, [], k, n + 1 => k :: pickFree f [] (k + 1) n
  | f + 1, u :: us, k, n + 1 => if u = k then pickFree f us (k + 1) (n + 1) else k :: pickFree f (u :: us) (k + 1) n

/-- Take `n` buffers, the lowest free numbers, for a transaction. Which free buffers a grant gives is not stated (assumption 39). -/
def W.takeBufs (w : W) (n holder : Nat) : List Nat × W :=
  let bs := pickFree w.neveTotal w.dev.neve.used.keys 0 n
  (bs, (w.modNeve fun v => { v with used := bs.foldl (fun u b => Tab.put u b holder) v.used }).neveStat)

/-- Free buffers; a freed buffer is HELD no more. -/
def W.freeBufs (w : W) (bs : List Nat) : W :=
  if bs.isEmpty then w
  else
    let w := w.modNeve fun v => { v with used := bs.foldl (fun u b => Tab.del u b) v.used }
    ({ w with dev := { w.dev with cip := { w.dev.cip with held := w.dev.cip.held.filter fun b => !bs.contains b } } }).neveStat

/-- The 4,096 bytes of a buffer. -/
def W.buf (w : W) (b : Nat) : List Byte := ((Tab.getD w.dev.neve.data b []) ++ zeros 4096).take 4096

/-- Set a buffer's bytes; trailing zeros need no listing. -/
def W.setBuf (w : W) (b : Nat) (bs : List Byte) : W :=
  w.modNeve fun v => { v with data := Tab.putD [] v.data b (bs.take 4096), bad := v.bad.filter fun x => x / 512 ≠ b }

/-- Scrub buffers to zero (R110, R123). -/
def W.scrubBufs (w : W) (bs : List Nat) : W := bs.foldl (fun (w : W) (b : Nat) => w.setBuf b []) w

/-- The first `len` bytes of a chain (R14, R147). -/
def W.chainBytes (w : W) (chain : List Nat) (len : Nat) : List Byte := (chain.flatMap w.buf).take len

/-- A HELD buffer: no agent can read it (R125). -/
def W.isHeld (w : W) (b : Nat) : Bool := w.dev.cip.held.contains b

/-- The bytes that an agent reads from a buffer: a HELD one shows zeros (R125). -/
def W.shownBuf (w : W) (b : Nat) : List Byte := if w.isHeld b then zeros 4096 else w.buf b

/-- A read of HELD buffers by an agent at its address `a` is reported: CIP.AUTH, subcode PEEK (R125, R346). -/
def W.peekNote (w : W) (src world a : Nat) (bs : List Nat) : W :=
  if bs.any w.isHeld then w.report { cls := 0x23, level := 0, src := src, sub := 5, world := world, detail := a } else w

/-- Fill a chain with bytes from its start. -/
def W.putChain (w : W) : List Nat → List Byte → W
  | [], _ => w
  | b :: t, bs => (w.setBuf b (bs.take 4096)).putChain t (bs.drop 4096)

/-- Write bytes at an offset of a buffer: the words they touch hold no poisoned payload any more (R149, R196). -/
def W.pokeBuf (w : W) (b off : Nat) (bs : List Byte) : W :=
  let old := w.buf b
  let hit (x : Nat) : Bool := decide (b * 512 + off / 8 ≤ x) && decide (x < b * 512 + (off + bs.length + 7) / 8)
  w.modNeve fun v => { v with
    data := Tab.putD [] v.data b ((old.take off ++ bs ++ old.drop (off + bs.length)).take 4096)
    bad := v.bad.filter fun x => !hit x }

/-- Hand a request to the allocator (R52). -/
def W.askBufs (w : W) (r : BufReq) : W := w.modNeve fun v => { v with reqs := v.reqs ++ [r] }

/-- Whether a request of this purpose waits, undecided or refused. -/
def W.asking (w : W) (f : BufFor) : Bool :=
  (w.dev.neve.reqs.any fun r => r.why = f) || w.dev.neve.refused.any fun r => r.why = f

/-- Withdraw the requests of a purpose. -/
def W.unask (w : W) (p : BufFor → Bool) : W :=
  w.modNeve fun v => { v with reqs := v.reqs.filter fun r => !p r.why, refused := v.refused.filter fun r => !p r.why }

/-- Whether the allocator grants a request, with `free` buffers free (R53). -/
def grants (r : BufReq) (free : Nat) : Bool :=
  if r.prio = 0 || r.idx = 125 || r.idx = 126 then decide (r.n ≤ free) else decide (r.n + 256 ≤ free)

/-- The order in which the allocator decides: priority, then requester index, then arrival (R52). -/
def bufBefore (a b : BufReq) : Bool := decide (a.prio < b.prio) || (decide (a.prio = b.prio) && decide (a.idx ≤ b.idx))

/-- Insert a request in decision order. -/
def bufInsert (r : BufReq) : List BufReq → List BufReq
  | [] => [r]
  | x :: t => if bufBefore x r then x :: bufInsert r t else r :: x :: t

/-- Requests in decision order. -/
def bufSort (l : List BufReq) : List BufReq := l.foldl (fun acc r => bufInsert r acc) []

/-! ### Weighted round robin (R39, R102, R121, R156) -/

/-- The next priority to serve: 0 strictly first, then 1 to 3 in turns of their weights, which start anew when no waiting priority
has turns left. -/
def wrrPick (x : Wrr) (w1 w2 w3 : Nat) (has : Nat → Bool) : Option (Nat × Wrr) :=
  let go (x : Wrr) : Option (Nat × Wrr) :=
    if has 1 && decide (0 < x.t1) then some (1, { x with t1 := x.t1 - 1 })
    else if has 2 && decide (0 < x.t2) then some (2, { x with t2 := x.t2 - 1 })
    else if has 3 && decide (0 < x.t3) then some (3, { x with t3 := x.t3 - 1 })
    else none
  if has 0 then some (0, x)
  else match go x with
    | some r => some r
    | none => if has 1 || has 2 || has 3 then go ⟨w1, w2, w3⟩ else none

/-- The weights of CHN.DISPCTL applied. -/
def W.wrr (w : W) (x : Wrr) (has : Nat → Bool) : Option (Nat × Wrr) :=
  wrrPick x (w.get F.CHN_DISPCTL_W1) (w.get F.CHN_DISPCTL_W2) (w.get F.CHN_DISPCTL_W3) has

end Sys2Proof.Machine
end

