-- ==== Sys2Proof/Machine/Nvme.lean ====
section
/-! DEFINITION. NVMe commands on the PCIe ports, and the journal's writes to memory, the partner and its namespaces
(R79 to R87, R330, R404, R405). -/

namespace Sys2Proof.Machine

open Sys2Proof

/-- A PCIe port. -/
def W.pciPort (w : W) (p : Nat) : PciSt := Tab.getD w.dev.pci p {}

/-- Change a PCIe port. -/
def W.modPci (w : W) (p : Nat) (f : PciSt → PciSt) : W := { w with dev := { w.dev with pci := Tab.putD {} w.dev.pci p (f (w.pciPort p)) } }

/-- Whether a namespace is listed in PLK.SHNS (R330). -/
def W.isShared (w : W) (port nsid : Nat) : Bool :=
  w.shns.any fun i => decide (w.get F.PLK_SHNS_PORT i = port) && decide (w.get F.PLK_SHNS_NSID i = nsid)

/-- The lowest controller that the firmware has named on a port: the one commands go to (assumption 37). -/
def W.ctrlOf (w : W) (port : Nat) : Option Nat := (List.range 32).find? fun c => w.flag F.PCI_CTRLMAP_VALID (port * 32 + c)

/-- Whether a command may leave now: port enabled, link up, queues made, gate open, a tag free (R330, R404, R407). -/
def W.nvmeMay (w : W) (port : Nat) (c : NvmeCmd) : Bool :=
  let p := w.pciPort port
  w.flag F.PCI_PORTCFG_EN port && p.queues && !p.links.isEmpty && (w.ctrlOf port).isSome && decide (p.tags.length < 16384) &&
    (decide (c.kind = 4) || !w.isShared port c.nsid || w.gateShared)

/-- Send a command under the lowest free tag; on a namespace with protection information it asks for the checks (R404, R405). -/
def W.nvmeGo (w : W) (port : Nat) (c : NvmeCmd) : W :=
  let p := w.pciPort port
  let tag := (pickFree 16384 p.tags.keys 0 1).headD 0
  let c := { c with ctrl := (w.ctrlOf port).getD 0, at_ := w.now }
  let w := w.modPci port fun p => { p with tags := Tab.put p.tags tag c }
  let w := w.set F.PCI_PORTCFG_TAGS (w.pciPort port).tags.length port
  w.send (.nvme port tag c.kind c.nsid c.lba c.len (Config.protInfo port c.nsid))

/-- Issue a command, or let it wait for its port or gate. -/
def W.nvmeIssue (w : W) (port : Nat) (c : NvmeCmd) : W :=
  if w.nvmeMay port c then w.nvmeGo port c else { w with dev := { w.dev with nvmeq := w.dev.nvmeq ++ [(port, c)] } }

/-- Send the waiting commands that may leave now, oldest first. -/
def W.nvmePump (w : W) : W :=
  let q := w.dev.nvmeq
  let w := { w with dev := { w.dev with nvmeq := [] } }
  q.foldl (fun (w : W) (x : Nat × NvmeCmd) => w.nvmeIssue x.1 x.2) w

/-- End a command: its tag is free again. -/
def W.nvmeEnd (w : W) (port tag : Nat) : W :=
  let w := w.modPci port fun p => { p with tags := Tab.del p.tags tag }
  w.set F.PCI_PORTCFG_TAGS (w.pciPort port).tags.length port

/-! ### The journal (R79 to R87) -/

/-- The journal namespaces that take part (R85). -/
def W.jns (w : W) : List Nat := (List.range 4).filter fun n => w.flag F.CHN_JNS_EN n

/-- Issue a write of one 4 KiB block to the journal namespace that holds slot `i`, at the place of R87; no namespace: none. -/
def W.jnsWrite (w : W) (kind i : Nat) (txn : Option Nat) (data : List Byte) (jsn : Nat := 0) : W :=
  let ns := w.jns
  match ns[i % ns.length]? with
  | none => w
  | some n => w.nvmeIssue (w.get F.CHN_JNS_PORT n)
      { txn := txn, kind := kind, nsid := w.get F.CHN_JNS_NSID n, lba := 3 + i / ns.length, len := 4096, data := data, aux := jsn }

/-- The ring that holds a transaction's record: the mirror ring for an adopted one (R332). -/
def W.jBase (w : W) (t : Txn) : Nat := if t.inMirror then w.base F.CHN_JMBASE_BASE else w.base F.CHN_JBASE_BASE

/-- Write into a ring as the journal writer, under the owner check of R182. -/
def W.jPut (w : W) (a : Nat) (bs : List Byte) : W :=
  match w.storeAs (cirqueWho (source 21 2)) a bs with
  | some w => w
  | none => w.ownRefuse (cirqueWho (source 21 2)) a

/-- The 256-byte record header (R80). -/
def W.recHead (w : W) (t : Txn) (rst : Nat) : List Byte :=
  let flags := b2n t.dataFlag + 2 * b2n t.inline.isSome + 4 * b2n t.digested + 8 * b2n w.degradedWay + 16 * b2n t.replayed
  let ext := t.slots.drop 1
  let b := leBytes 8 t.jsn ++ leBytes 1 rst ++ leBytes 1 (if t.write then 1 else 2) ++ leBytes 1 (t.status.getD 0) ++ leBytes 1 flags ++
    leBytes 4 t.chid ++ leBytes 2 t.world ++ leBytes 1 t.prio ++ leBytes 1 t.ver ++ leBytes 4 t.ctag ++ leBytes 8 t.seq ++
    leBytes 8 t.offset ++ leBytes 8 t.length ++ leBytes 8 t.raddr ++ leBytes 4 t.rkey ++ leBytes 2 t.kepoch ++ leBytes 2 ext.length ++
    leBytes 8 t.deadline ++ leBytes 8 t.tsacc ++ leBytes 8 t.tsout ++ leBytes 8 t.digest ++ leBytes 8 t.bytes ++
    (List.range 4).flatMap (fun i => leBytes 2 (ext.getD i 0)) ++ zeros 136
  b ++ leBytes 8 (crc64 b)

/-- RSTATE of a transaction's record by its state (R80). -/
def Txn.rstate (t : Txn) : Nat :=
  match t.st with
  | .decided => 3
  | .done => if t.preacc then 2 else 4
  | _ => 1

/-- Whether a transaction's record stands in the active ring that a power failure has frozen (R86). -/
def W.ringFrozen (w : W) (t : Txn) : Bool := w.dev.jour.frozen && !t.inMirror

/-- Write the header of a record into its head slot (R80). -/
def W.writeHead (w : W) (t : Txn) (rst : Nat) : W :=
  match t.slots with
  | [] => w
  | h :: _ => if w.ringFrozen t then w else w.jPut (w.jBase t + h * 4096) (w.recHead t rst)

/-- Put `bs` into the extension slots. -/
def W.writeExt (w : W) (base : Nat) : List Nat → List Byte → W
  | [], _ => w
  | s :: ss, bs => if bs.isEmpty then w else (w.jPut (base + s * 4096) (bs.take 4096)).writeExt base ss (bs.drop 4096)

/-- Write a record's data: 3,840 bytes behind the header, the rest in the extension slots (R80). -/
def W.writeData (w : W) (t : Txn) : W :=
  match t.slots with
  | [] => w
  | h :: ext =>
    if w.ringFrozen t then w else
    let w := if t.data.isEmpty then w else w.jPut (w.jBase t + h * 4096 + 256) (t.data.take 3840)
    w.writeExt (w.jBase t) ext (t.data.drop 3840)

/-- The virtual channel of a record's messages (R319). -/
def Txn.vc (t : Txn) : Nat := if t.prio = 0 then 0 else 1

/-- Whether a record's change is folded into a resynchronisation copy still to be sent (R334). -/
def W.folded (w : W) (t : Txn) : Bool := w.dev.plk.resyncLeft.contains t.jsn

/-- Send one message of a record to the partner, unless it is folded into a copy (R81, R334). -/
def W.mirror (w : W) (t : Txn) (mtype : Nat) (body : List Byte) : W :=
  if w.folded t then w else w.plkSend t.vc mtype (t.slots.headD 0) t.jsn body

/-- Write slots of a record to the journal namespaces as they stand in the ring (R84). The slots of an adopted record go where those of the same
index of the active ring go: the spec names no other place (DESIGN CHOICE, assumption 100). -/
def W.jnsSlots (w : W) (t : Txn) (id : Option Nat) (slots : List Nat) : W :=
  slots.foldl (fun (w : W) (s : Nat) => w.jnsWrite 3 s id (w.bytes (w.jBase t + s * 4096) 4096) t.jsn) w

/-- A change of RSTATE: header, partner, and in Degraded mode the namespaces (R81, R84). -/
def W.publishState (w : W) (t : Txn) (rst : Nat) : W :=
  if t.slots.isEmpty then w
  else
    let w := w.writeHead t rst
    let h := w.recHead t rst
    let w := w.mirror t 2 (leBytes 1 rst ++ leBytes 1 (t.status.getD 0) ++ (h.drop 11).take 1 ++ zeros 5 ++ beBytes 8 t.tsout ++ beBytes 8 t.bytes)
    if w.degradedWay then w.jnsSlots t none (t.slots.take 1) else w

/-- CHN.JSTAT.INUSE follows the slots in use (R80). -/
def W.jstat (w : W) : W := w.set F.CHN_JSTAT_INUSE w.dev.jslots.length

/-- Free a transaction's slots: its own leave the free list's other side; an adopted record's stay in the mirror ring's books (R47, R332). -/
def W.freeSlots (w : W) (t : Txn) : W :=
  if t.inMirror then w.modPlk fun p => { p with adopted := p.adopted.filter fun s => !t.slots.contains s }
  else ({ w with dev := { w.dev with jslots := t.slots.foldl (fun j s => Tab.del j s) w.dev.jslots } }).jstat

/-- Slots that may be taken: not in use, and not marked by the partner's copy (R80, R334). -/
def W.pickSlots (w : W) (n : Nat) : List Nat :=
  let used := w.dev.plk.marked.foldl (fun t s => Tab.put t s 0) w.dev.jslots
  pickFree 65537 used.keys 0 n |>.filter (· < 65536)

end Sys2Proof.Machine
end

