-- ==== Sys2Proof/Machine/Txn.lean ====
section
/-! DEFINITION. The life of a transaction: outcomes, draining, completion messages, credits and the books of its channel
(R37, R38, R43 to R50, R61 to R78). -/

namespace Sys2Proof.Machine

open Sys2Proof

/-! ### Tables -/

/-- A transaction. -/
def W.txn (w : W) (i : Nat) : Option Txn := Tab.find? w.dev.txns i

/-- Change a transaction, if it is held. -/
def W.modTxn (w : W) (i : Nat) (f : Txn → Txn) : W := { w with dev := { w.dev with txns := Tab.modify w.dev.txns i f } }

/-- A channel engine naps once it has no transaction: the LP entry packet (R425, R427). -/
def W.engNap (w : W) (engine : Option Nat) (world : Nat) : W :=
  match engine with
  | some e => if Tab.exists? w.dev.txns fun _ t => decide (t.engine = some e) then w else w.trcEmit (64 + e) world 8 0 (leBytes 8 w.now)
  | none => w

/-- A napping engine is given a transaction: the LP exit packet (R425, R427). -/
def W.engWake (w : W) (e world : Nat) : W :=
  if Tab.exists? w.dev.txns fun _ t => decide (t.engine = some e) then w else w.trcEmit (64 + e) world 8 1 (leBytes 8 w.now)

/-- Forget a transaction. -/
def W.dropTxn (w : W) (i : Nat) : W :=
  let v : W := { w with dev := { w.dev with txns := Tab.del w.dev.txns i } }
  match w.txn i with
  | some t => v.engNap t.engine t.world
  | none => v

/-- A resident context. -/
def W.chan (w : W) (c : Nat) : Option Chan := Tab.find? w.dev.chans c

/-- Change a resident context; if it has changed, it is to be written back (R30). -/
def W.modChan (w : W) (c : Nat) (f : Chan → Chan) : W :=
  { w with dev := { w.dev with chans := Tab.modify w.dev.chans c fun x => if f x = x then x else { f x with dirty := true } } }

/-- A segment of a transaction. -/
def Txn.segOf (t : Txn) (k : Nat) : Seg := Tab.getD t.segs k {}

/-- Change a segment of a transaction. -/
def W.modSeg (w : W) (i k : Nat) (f : Seg → Seg) : W := w.modTxn i fun t => { t with segs := Tab.putD {} t.segs k (f (t.segOf k)) }

/-- The buffers of a chain that are in the pool, not spilled (R15). -/
def Seg.here (s : Seg) : List Nat :=
  let gone := s.spilled.map Prod.fst
  (s.chain.zipIdx.filter fun p => !gone.contains p.2).map Prod.fst

/-- Ended before ACCEPT and only held until its operations or its record have left: it counts as ENDED (R47, R78). -/
def Txn.gone (t : Txn) : Bool := decide (t.st = .done) && t.preacc

/-- A completion-cache entry (R47). -/
def Txn.cached (t : Txn) : Bool := decide (t.st = .done) && !t.preacc && decide (t.load = none)

/-- Whether the transaction, or one of its ASYNC commands, waits for something (R40). -/
def Txn.waitsFor (t : Txn) (k : TxWait) : Bool := decide (t.wait = k) || t.bg.contains k

/-- A wait ends: the transaction's own, or else that of an ASYNC command. -/
def Txn.unwait (t : Txn) (k : TxWait) : Txn := if t.wait = k then { t with wait := .none } else { t with bg := t.bg.erase k }

/-- Start to wait for a command that is not ASYNC, or let it go on beside the next ones (R40). -/
def Txn.await (t : Txn) (k : TxWait) (async : Bool) : Txn := if async then { t with bg := t.bg ++ [k] } else { t with wait := k }

/-- Every ASYNC command of the transaction has ended (R41 WAITIO). -/
def Txn.idle (t : Txn) : Bool := (t.segs.all fun s => s.2.ops.isEmpty) && t.bg.isEmpty

/-- WAITIO ends once every ASYNC command has (R41). -/
def W.ioDone (w : W) (i : Nat) : W := w.modTxn i fun t => if t.wait = .io ∧ t.sync = none ∧ t.idle then { t with wait := .none } else t

/-- Accepted (R43, R78). -/
def Txn.accepted (t : Txn) : Bool :=
  decide (t.st = .accepted) || decide (t.st = .decided) || t.cached || (t.replayed && decide (t.st = .queued))

/-- Before ACCEPT (R78); a replayed transaction was accepted before (R90). -/
def Txn.early (t : Txn) : Bool := (decide (t.st = .queued) || decide (t.st = .admitted) || decide (t.st = .intent)) && !t.replayed

/-- In flight on an engine: not QUEUED and not ended (R26, R37). -/
def Txn.flying (t : Txn) : Bool :=
  decide (t.st = .admitted) || decide (t.st = .intent) || decide (t.st = .accepted) || decide (t.st = .decided)

/-- The Moraine source of a channel engine (R346). -/
def engSrc (e : Option Nat) : Nat := match e with | some e => source 6 e | none => source 21 0

/-! ### Messages (R61 to R67) -/

/-- A queue pair. -/
def W.qp (w : W) (q : Nat) : Option Qp := Tab.find? w.dev.qps q

/-- Change a queue pair. -/
def W.modQp (w : W) (q : Nat) (f : Qp → Qp) : W := { w with dev := { w.dev with qps := Tab.modify w.dev.qps q f } }

/-- CRET of a channel (R61, R71). -/
def W.cret (w : W) (c : Nat) : Nat := Tab.getD w.dev.crets c 0

/-- One more credit return (R71). -/
def W.cretUp (w : W) (c : Nat) : W := { w with dev := { w.dev with crets := Tab.putD 0 w.dev.crets c ((w.cret c + 1) % 65536) } }

/-! ### Fabric ports (R394, R399, R401) -/

/-- A fabric port. -/
def W.ethPort (w : W) (p : Nat) : EthSt := Tab.getD w.dev.eth p {}

/-- Change a fabric port. -/
def W.modEth (w : W) (p : Nat) (f : EthSt → EthSt) : W := { w with dev := { w.dev with eth := Tab.putD {} w.dev.eth p (f (w.ethPort p)) } }

/-- Whether a fabric port index names an enabled port (R394). -/
def W.portOn (w : W) (p : Nat) : Bool :=
  decide (p / 2 < (if w.isM then 8 else 16)) && w.flag F.ETH_PORTCFG_EN (p / 2) && (p % 2 = 0 || w.flag F.ETH_PORTCFG_SPLIT (p / 2))

/-- Kind and payload length of what a port sends, for its count of bytes. -/
def Out.size : Out → Nat × Nat
  | .crp _ b => (0, b.length)
  | .svcReply _ b => (0, b.length)
  | .rdmaRead _ _ _ _ => (1, 0)
  | .rdmaWrite _ _ _ b => (2, b.length)
  | .ack _ _ _ _ => (3, 0)
  | .eth _ k _ => (4 + k, 0)
  | _ => (0, 0)

/-- Whether something waiting on a port belongs to a queue pair. -/
def Out.onQp (q : Nat) : Out → Bool
  | .crp p _ => p = q
  | .svcReply p _ => p = q
  | .rdmaRead p _ _ _ => p = q
  | .rdmaWrite p _ _ _ => p = q
  | .resend p _ => p = q
  | .ack p _ _ _ => p = q
  | _ => false

/-- A frame leaves the port. -/
def W.ethEmit (w : W) (p : Nat) (o : Out) : W :=
  (w.event .port p 0x201 (Config.frameBytes o.size.1 o.size.2) 0xFFFF).send o

/-- Send through a fabric port: what finds the link down or its priority paused waits (R399, R401). -/
def W.ethSend (w : W) (p prio : Nat) (o : Out) : W :=
  if (w.ethPort p).up && !Tab.has (w.ethPort p).paused prio then w.ethEmit p o
  else w.modEth p fun e => { e with queued := e.queued ++ [(prio, o)] }

/-- Send on a queue pair: RoCEv2 traffic has priority ROCEPRIO (R399). -/
def W.qpSend (w : W) (q : Nat) (o : Out) : W := w.ethSend (q / 2 ^ 24) (w.get F.ETH_PORTCFG_ROCEPRIO (q / 2 ^ 24 / 2)) o

/-- Whether a queue pair is in RTR or RTS (R396). -/
def Qp.up (x : Qp) : Bool := decide (x.state = 2) || decide (x.state = 3)

/-- Send a request on a queue pair: it takes packet sequence numbers and waits for its acknowledgement (R398). -/
def W.rdmaPost (w : W) (q : Nat) (r : RdmaReq) : W :=
  w.modQp q fun x => { x with unacked := x.unacked ++ [{ r with psn := x.npsn }], npsn := (x.npsn + r.n) % 2 ^ 24 }

/-- Send a CRP message on a queue pair that is up; `body` follows the 16-byte header, whose CRET is that of the channel the queue pair is bound to,
whatever channel the message names (R61, R71). -/
def W.crpSend (w : W) (q type len chan seq : Nat) (body : List Byte) : W :=
  match w.qp q with
  | none => w
  | some x =>
    if x.state ≠ 3 || w.shut then w
    else
      let ver := if type = 2 || x.ver = 0 then 1 else x.ver
      let b := leBytes 1 ver ++ leBytes 1 type ++ beBytes 2 len ++ beBytes 4 chan ++ beBytes 6 seq ++ beBytes 2 (w.cret (x.chid.getD chan)) ++ body
      (w.rdmaPost q { psn := 0, n := 1, kind := 0, len := len }).qpSend q (.crp q ((b ++ zeros len).take len))

/-- Timebase stamp of a message: version 3 only (R65). -/
def W.stamp (w : W) (q ts : Nat) : Nat := match w.qp q with | some x => if x.ver = 3 then ts else 0 | none => 0

/-- COMPLETE (R67): status, flags, CTAG, BYTES, time of the outcome. -/
def W.sendComplete (w : W) (q chan seq status flags ctag bytes ts : Nat) : W :=
  w.crpSend q 0x12 48 chan seq (leBytes 1 status ++ leBytes 1 flags ++ zeros 2 ++ beBytes 4 ctag ++
    beBytes 8 (if status = 0 then bytes else 0) ++ beBytes 8 (w.stamp q ts))

/-- NACK (R67). -/
def W.sendNack (w : W) (q chan seq reason otype : Nat) : W :=
  w.crpSend q 0x14 32 chan seq (leBytes 1 reason ++ leBytes 1 otype)

/-- The queue pair on which a channel's client is reached now: the one it is bound to (R59). -/
def W.chanQp (w : W) (t : Txn) : Nat := match w.chan t.chid with | some c => c.port * 2 ^ 24 + c.qp | none => t.qp

/-- COMPLETE of a held transaction (R67, R35). -/
def W.complete (w : W) (t : Txn) (rep : Bool) : W :=
  w.sendComplete (w.chanQp t) t.chid t.seq (t.status.getD 0) (b2n t.preacc + 2 * b2n rep + 4 * b2n t.replayed) t.ctag t.bytes t.tsout

/-- ACCEPT with the time at which the transaction was accepted, in a repeated one too (R67). -/
def W.sendAccept (w : W) (t : Txn) (rep : Bool) : W :=
  w.crpSend (w.chanQp t) 0x11 32 t.chid t.seq (leBytes 1 (b2n rep) ++ zeros 3 ++ beBytes 4 t.ctag ++ beBytes 8 (w.stamp (w.chanQp t) t.tsacc))

/-! ### Books (R38, R55) -/

/-- Add to one of the six counts of STATS (R31). -/
def Chan.stat (c : Chan) (i k : Nat) : Chan := { c with stats := c.stats.set i (satAdd 64 (c.stats.getD i 0) k) }

/-- A channel with no transaction left takes the state that QUIESCE or ABORT asked for (R32). -/
def W.settle (w : W) (c : Nat) : W :=
  match w.chan c with
  | none => w
  | some x =>
    if x.inflight ≠ 0 then w
    else if x.state = 2 then w.modChan c fun x => { x with state := 3, quiesceTo := none }
    else match x.quiesceTo with
      | some s => w.modChan c fun x => { x with state := s, quiesceTo := none }
      | none => w

/-- A final status is sent: the credit returns, CRET counts, STATS and the world's counters count (R31, R38, R71). -/
def W.creditBack (w : W) (t : Txn) : W :=
  let w := w.modChan t.chid fun c => (c.stat (if t.status = some 0 then 0 else 1) 1)
  let w := if t.load.isSome then w else (w.modChan t.chid fun c => { c with inflight := c.inflight - 1, avail := c.avail + 1 }).cretUp t.chid
  let w := w.pmuWorld t.world fun p => p.event 0x1FF 0x302 1
  w.settle t.chid

/-! ### Buffers of a transaction -/

/-- Release what a transaction holds and no operation does: reserved buffers, idle chains, spill slots and requests (R41, R50). -/
def W.releaseBufs (w : W) (i : Nat) : W :=
  match w.txn i with
  | none => w
  | some t =>
    let w := w.unask fun f => match f with | .reserve j => j = i | .out j _ => j = i | .back j _ => j = i | .ext _ => false
    let w := w.freeBufs t.bufs
    let w := t.segs.foldl (fun (w : W) (s : Nat × Seg) =>
      if s.2.busy then w
      else
        let w := (w.freeBufs s.2.here).freeBufs s.2.outChain
        w.modNeve fun v => { v with slots := v.slots.filter fun x => !(s.2.spilled.map Prod.snd).contains x }) w
    w.modTxn i fun t => { t with
      bufs := []
      segs := Tab.mapVal t.segs fun _ s => if s.busy then { s with ops := s.ops.take 1 }
        else { s with chain := [], outChain := [], spilled := [], len := 0, ops := [], running := false } }

/-- Whether some operation still holds a chain of the transaction. -/
def Txn.anyBusy (t : Txn) : Bool := t.segs.any fun s => s.2.busy

/-- Forget a transaction that ended before ACCEPT, or a load that ended, once nothing of it is left (R47). -/
def W.reap (w : W) (i : Nat) : W :=
  match w.txn i with
  | some t => if t.gone && t.slots.isEmpty && !t.anyBusy then w.dropTxn i else w
  | none => w

/-! ### Ends (R45 to R50, R78) -/

/-- The slots of a VOID record are freed once the update has left, at once in Degraded mode (R47). -/
def W.freeVoid (w : W) (i : Nat) : W :=
  match w.txn i with
  | some t =>
    if t.gone && (w.degradedWay || w.hasLeft t.linkAt) then ((w.freeSlots t).modTxn i fun t => { t with slots := [], wait := .none }).reap i else w
  | none => w

/-- End a transaction before ACCEPT: buffers released, the record VOID, COMPLETE with PREACC (R47, R50, R78). A load or a lost
client gets no message. -/
def W.endEarly (w : W) (i status : Nat) (tell : Bool) : W :=
  match w.txn i with
  | none => w
  | some t =>
    let w := w.modTxn i fun t => { t with st := .done, preacc := true, status := some status, tsout := w.now, wait := .none, engine := none }
    let w := (w.engNap t.engine t.world).releaseBufs i
    let t := { t with st := .done, preacc := true, status := some status, tsout := w.now }
    let w := w.publishState t 2
    let w := w.modTxn i fun x => { x with linkAt := w.linkMark t.vc, wait := .link }
    let w := w.creditBack t
    let w := if tell && !w.dev.jour.frozen then w.complete t false else w
    if t.slots.isEmpty then (w.modTxn i fun x => { x with wait := .none }).reap i else w.freeVoid i

/-- Whether a write of a record to the journal namespaces still waits to be issued (R84). -/
def W.jHeld (w : W) (t : Txn) : Bool := w.dev.nvmeq.any fun x => decide (x.2.kind = 3) && decide (x.2.aux = t.jsn)

/-- Send the final COMPLETE of an accepted transaction once its DONE update has left on the link (R81) and has been issued to the namespaces (R84),
and never after a power failure (R86). Repeats of its SUBMIT that came meanwhile are answered behind it (R69). -/
def W.sendFinal (w : W) (i : Nat) : W :=
  match w.txn i with
  | none => w
  | some t =>
    if t.wait = .link && t.cached && !w.dev.jour.frozen && w.hasLeft t.linkAt && !w.jHeld t then
      let w := (w.creditBack t).complete t false
      let w := (List.range t.again).foldl (fun (w : W) (_ : Nat) => w.complete t true) w
      w.modTxn i fun t => { t with wait := .none, again := 0 }
    else w

/-- An accepted transaction is DONE: buffers released, the record final and published, COMPLETE (R46, R50, R81). -/
def W.doneTxn (w : W) (i : Nat) : W :=
  let was := w.txn i
  let w := w.releaseBufs i
  let w := w.modTxn i fun t => { t with st := .done, engine := none, wait := .link, sync := none }
  let w := match was with | some t => w.engNap t.engine t.world | none => w
  match w.txn i with
  | none => w
  | some t =>
    if t.load.isSome then w
    else
      let w := w.publishState t 4
      let w := w.modTxn i fun t => { t with linkAt := w.linkMark t.vc }
      w.sendFinal i

/-- Decide the outcome of a transaction; the first status decided stands (R46). With storage or RDMA operations outstanding the
record is DECIDED and the transaction drains (R50, R78). -/
def W.outcome (w : W) (i status : Nat) : W :=
  match w.txn i with
  | none => w
  | some t =>
    if t.status.isSome || t.st = .done then w
    else if t.early && t.load.isNone then w.endEarly i status true
    else
      let w := w.modTxn i fun t => { t with status := some status, tsout := w.now, wait := .none, sync := none }
      if t.load.isSome then w
      else if t.issued && decide (0 < t.outstanding) then
        let w := w.modTxn i fun t => { t with st := .decided, segs := Tab.mapVal t.segs fun _ s => { s with ops := s.ops.take (b2n s.running) } }
        match w.txn i with
        | some t => w.publishState t 3
        | none => w
      else w.doneTxn i

/-- One storage or RDMA operation fewer; a drain that ends makes the transaction DONE (R50). -/
def W.opOut (w : W) (i : Nat) : W :=
  let w := w.modTxn i fun t => { t with outstanding := t.outstanding - 1 }
  match w.txn i with
  | some t => if t.st = .decided && decide (t.outstanding = 0) then w.doneTxn i else w
  | none => w

/-- A program fault: CHN.PROGRAM with command index and opcode, the channel FAILED, ABORTED (R44). -/
def W.programFault (w : W) (i op : Nat) : W :=
  match w.txn i with
  | none => w
  | some t =>
    let w := w.report { cls := 0x19, level := 2, src := engSrc t.engine, world := t.world, chid := t.chid, detail := t.idx * 256 + op }
    let w := w.modChan t.chid fun c => { c with state := 4 }
    w.outcome i 6

/-- The transactions of a channel. -/
def W.txnsOf (w : W) (chid : Nat) : List Nat := w.dev.txns.keysWhere fun _ t => t.chid = chid

/-- An NVMe command loses its transaction: it only keeps its tag. -/
def NvmeCmd.orphan (x : NvmeCmd) (i : Nat) : NvmeCmd :=
  if x.txn = some i then { x with txn := none, pages := [], len := 0, mlen := 0, llen := 0 } else x

/-- A request to a client loses its transaction. -/
def RdmaReq.orphan (r : RdmaReq) (i : Nat) : RdmaReq := if r.kind ≠ 0 && r.txn = i then { r with kind := 0 } else r

/-- Remove a transaction's jobs, kernel segments and requests from every unit. -/
def Dev.orphan (d : Dev) (i : Nat) : Dev :=
  let cj := d.cmp.jobs.keysWhere fun _ j => j.ref.txn = i
  let pj := d.cip.jobs.keysWhere fun _ j => j.ref.txn = i
  let pci := Tab.mapVal d.pci fun _ q => { q with tags := Tab.mapVal q.tags fun _ x => x.orphan i }
  let qps := Tab.mapVal d.qps fun _ q => { q with unacked := q.unacked.map fun r => r.orphan i }
  { d with
    cmp := { d.cmp with jobs := d.cmp.jobs.keep fun k _ => !cj.contains k, queue := d.cmp.queue.filter fun k => !cj.contains k }
    cip := { d.cip with jobs := d.cip.jobs.keep fun k _ => !pj.contains k, queue := d.cip.queue.filter fun k => !pj.contains k }
    flo := { d.flo with segs := d.flo.segs.keep fun _ g => g.ref.txn ≠ i }
    nvmeq := d.nvmeq.filter fun x => x.2.txn ≠ some i
    pci := pci
    qps := qps }

/-- After flits have left: the transactions that waited for it go on (R47, R81, R82). -/
def W.wakeLink (w : W) : W :=
  (w.dev.txns.keysWhere fun _ t => decide (t.wait = .link)).foldl (fun (w : W) (i : Nat) =>
    match w.txn i with
    | none => w
    | some t =>
      if t.gone then w.freeVoid i
      else if t.cached then w.sendFinal i
      else if w.hasLeft t.linkAt then w.modTxn i fun t => { t with wait := .none } else w) w

/-- Send the storage commands that may leave now; a record whose update has been issued lets its COMPLETE go (R84). -/
def W.nvmeRun (w : W) : W := w.nvmePump.wakeLink

end Sys2Proof.Machine
end

