-- ==== Sys2Proof/Machine/Stage.lean ====
section
/-! DEFINITION. The stages of a segment: issuing RDMA, NVMe, compression, cipher and kernel work for it, and what its end brings
(R14, R40 to R42, R82, R96 to R101, R113 to R116, R120, R144, R146). -/

namespace Sys2Proof.Machine

open Sys2Proof

/-! ### Programs (R33, R41) -/

/-- A channel program command (R40, R41). -/
structure Cmd where
  /-- OP. -/
  op : Nat
  /-- FLAGS. -/
  flags : Nat
  /-- A. -/
  a : Nat
  /-- B. -/
  b : Nat
  /-- C. -/
  c : Nat
  deriving DecidableEq, Repr

/-- Read command `i` of a program; none where the owner check fails (R182). -/
def W.cmdAt (w : W) (base i : Nat) : Option Cmd :=
  let a := base + 16 * i
  if w.rangeOk (cirqueWho (source 21 0)) .rd a 16 then some ⟨w.le a 1, w.le (a + 1) 1, w.le (a + 2) 2, w.le (a + 4) 4, w.le (a + 8) 8⟩ else none

/-- The opcodes of a channel's program. -/
def W.progOps (w : W) (c : Chan) : List Nat := (List.range c.proglen).map fun i => match w.cmdAt c.progbase i with | some x => x.op | none => 0

/-- The program holds COMPRESS or INFLATE (R99). -/
def W.hasCmp (w : W) (c : Chan) : Bool := (w.progOps c).any fun o => o = 7 || o = 8

/-- The program holds a transforming command: requests stay aligned to segments (R42). -/
def W.hasXform (w : W) (c : Chan) : Bool := (w.progOps c).any fun o => o = 7 || o = 8 || o = 9 || o = 10

/-- Metadata bytes per LBA that a channel's program needs of its namespace (R99, R115). -/
def W.metaNeed (w : W) (c : Chan) : Nat := if (w.progOps c).any fun o => o = 9 || o = 10 then 40 else if w.hasCmp c then 8 else 0

/-! ### Extents (R34, R41, R42) -/

/-- Segment size. -/
def Chan.segSize (c : Chan) : Nat := 2 ^ c.segshift
/-- LBAs of one slot. -/
def Chan.slotLbas (c : Chan) : Nat := 2 ^ (c.segshift - c.lbaShift)
/-- First LBA of segment `k` of a request at `offset` (R34, R41). -/
def Chan.slotLba (c : Chan) (offset k : Nat) : Nat := c.tgtbase + offset / 2 ^ c.lbaShift + k * c.slotLbas
/-- Segments of a transaction. -/
def Txn.nsegs (t : Txn) (c : Chan) : Nat := ceilDiv t.length c.segSize
/-- Bytes of segment `k` (R40, R42). -/
def Txn.segLen (t : Txn) (c : Chan) (k : Nat) : Nat := min c.segSize (t.length - k * c.segSize)
/-- Buffers that `n` bytes take. -/
def bufsFor (n : Nat) : Nat := ceilDiv n 4096

/-! ### Profile checks -/

/-- A profile word with a reserved encoding (R97); a WLOG outside the format's range is one for COMPRESS only. -/
def profBad (p : Nat) (compress : Bool) : Bool :=
  let ext := nbits p 47 40
  let pct := nbits p 39 32
  let wl := nbits p 28 24
  let fmt := nbits p 3 0
  decide (p = 0) || decide (nbits p 63 48 ≠ 0) || decide (nbits p 31 29 ≠ 0) || decide (nbits p 19 10 ≠ 0) || decide (nbits p 7 4 ≠ 0) ||
  decide (ext = 0) || decide (64 < ext) || decide (pct = 0) || decide (16 < pct) || decide (3 < nbits p 23 20) ||
  decide (fmt = 0) || decide (4 < fmt) || (decide (fmt = 1) && nbit p 8) ||
  (compress && decide (wl ≠ 0) && !(if fmt = 4 then decide (10 ≤ wl) && decide (wl ≤ 23) else decide (8 ≤ wl) && decide (wl ≤ 15)))

/-- An attachment word with a reserved encoding (R144). -/
def attBad (a : Nat) : Bool :=
  let brev := nbits a 29 24
  let workh := nbits a 23 0
  decide (nbits a 63 52 = 0) || decide (nbits a 51 40 = 0) || decide (nbits a 39 32 = 0) || decide (64 < nbits a 39 32) ||
  decide (nbits a 31 30 = 3) || decide (20 < brev) || (decide (0xFFF000 ≤ workh) && decide (workh ≤ 0xFFF47F)) ||
  (decide (nbits a 31 30 = 0) && decide (workh ≠ 0))

/-- Mode, purpose and LBA size of a cipher profile are good for SEAL and UNSEAL (R113, R114). -/
def cipOk (prof lbaShift : Nat) : Bool :=
  let mode := nbits prof 7 0
  let purp := nbits prof 15 8
  decide (1 ≤ mode) && decide (mode ≤ 6) && (decide (purp = 1) || decide (purp = 2)) &&
  (decide (mode < 5) || decide (lbaShift = 9) || decide (lbaShift = 12))

/-! ### Kernel table (R143) -/

/-- Address of a kernel's entry. -/
def W.kte (w : W) (kid : Nat) : Nat := w.base F.FLO_KTBASE_BASE + kid * 128
/-- KSTATE. -/
def W.kstate (w : W) (kid : Nat) : Nat := w.le (w.kte kid + 0x12) 1
/-- WORLD of a kernel. -/
def W.kworld (w : W) (kid : Nat) : Nat := w.le (w.kte kid + 0x10) 2
/-- Write a field of an entry as the HK7 (R143, R182). -/
def W.kput (w : W) (kid off n v : Nat) : W :=
  match w.storeAs (cirqueWho (source 21 0)) (w.kte kid + off) (leBytes n v) with
  | some w => w
  | none => w.ownRefuse (cirqueWho (source 21 0)) (w.kte kid + off)
/-- INFLIGHT of a kernel changes. -/
def W.kinflight (w : W) (kid : Nat) (up : Bool) : W :=
  let n := w.le (w.kte kid + 0x18) 4
  w.kput kid 0x18 4 (if up then n + 1 else n - 1)

/-! ### Jobs -/

/-- The lowest job number of an issuer that none of its jobs uses (R101, R120). -/
def freeJob (used : List Nat) : Nat := ((List.range 257).find? fun j => !used.contains j).getD 0

/-- Queue a compression job (R101). -/
def W.cmpPut (w : W) (j : CmpJob) : W :=
  let c := w.dev.cmp
  let used := (c.jobs.filter fun x => x.2.issuer = j.issuer).map fun x => x.2.job
  { w with dev := { w.dev with cmp := { c with jobs := Tab.put c.jobs c.next { j with job := freeJob used }, queue := c.queue ++ [c.next], next := c.next + 1 } } }

/-- Compression jobs of an issuer. -/
def W.cmpCount (w : W) (e : Nat) : Nat := (w.dev.cmp.jobs.filter fun x => x.2.issuer = e).length

/-- Queue a cipher job (R120). -/
def W.cipPut (w : W) (j : CipJob) : W :=
  let c := w.dev.cip
  let used := (c.jobs.filter fun x => x.2.issuer = j.issuer).map fun x => x.2.job
  { w with dev := { w.dev with cip := { c with jobs := Tab.put c.jobs c.next { j with job := freeJob used }, queue := c.queue ++ [c.next], next := c.next + 1 } } }

/-- Cipher jobs of an issuer. -/
def W.cipCount (w : W) (e : Nat) : Nat := (w.dev.cip.jobs.filter fun x => x.2.issuer = e).length

/-- Change the loader. -/
def W.modFlo (w : W) (f : FloSt → FloSt) : W := { w with dev := { w.dev with flo := f w.dev.flo } }

/-! ### Starting a command of a segment -/

/-- Physical address of byte `off` of a load's destination (R171). -/
def Txn.destAt (t : Txn) (off : Nat) : Nat :=
  let a := t.dest.1 % 4096 + off
  t.dest.2.1.getD (a / 4096) 0 + a % 4096

/-- A load's destination writes carry its descriptor's world, with the exception of R173 for pages that it froze (R182). -/
def Txn.loadWho (t : Txn) : Who := { world := t.world, src := engSrc t.engine, dma := true, loads := t.dest.2.2.2 }

/-- Write a load's bytes from offset `off` of its destination on, page by page, with tags RAW (R126, R196). A page that the owner check refuses takes no
write, and the load ends with NOACCESS (R173, R184). -/
def W.loadWrite (w : W) (i : Nat) (t : Txn) (off : Nat) (bs : List Byte) : W :=
  let first := (t.dest.1 % 4096 + off) / 4096
  (upto first ((t.dest.1 % 4096 + off + bs.length + 4095) / 4096 - first)).foldl (fun (w : W) (p : Nat) =>
    -- the part of the bytes that lies in destination page p
    let lo := p * 4096 - (t.dest.1 % 4096 + off)
    let skip := (t.dest.1 % 4096 + off) - p * 4096
    let a := t.dest.2.1.getD p 0 + skip
    let part := (bs.drop lo).take (4096 - skip)
    if w.physOk t.loadWho .wr a then (w.unitStore a part).modTxn i fun t => { t with bytes := t.bytes + part.length }
    else (w.ownRefuse t.loadWho a).outcome i 1) w

/-- Words of a chain's first `n` bytes that a poisoned transfer wrote, by number in the chain (R196, R406). -/
def W.chainBad (w : W) (chain : List Nat) (n : Nat) : List Nat :=
  if w.dev.neve.bad.isEmpty then []
  else (List.range (ceilDiv n 8)).filter fun j => w.dev.neve.bad.contains (chain.getD (j / 512) 0 * 512 + j % 512)

/-- Poisoned words of a load stay POISON in memory (R196). -/
def W.loadPoison (w : W) (t : Txn) (off : Nat) (bad : List Nat) : W :=
  bad.foldl (fun (w : W) (j : Nat) =>
    let a := t.destAt (off + 8 * j)
    if w.physOk t.loadWho .wr a then w.putTag (a / 8) tPOISON else w) w

/-- Whether the queue pair of a transaction's channel has a negotiated connection. -/
def W.clientUp (w : W) (t : Txn) : Bool :=
  match w.qp (w.chanQp t) with | some x => decide (x.state = 3) && decide (x.ver ≠ 0) | none => false

/-- Packets of `n` bytes at a queue pair's PMTU (R397). -/
def W.packets (w : W) (q n : Nat) : Nat :=
  match w.qp q with
  | some x => max 1 (ceilDiv n (512 * 2 ^ (x.ctx.getD 15 1)))
  | none => 1

/-- Mark a segment's command as running and its chains as held by the operation. -/
def W.markRun (w : W) (i k : Nat) : W := w.modSeg i k fun s => { s with running := true, busy := true }

/-- Hand a segment's chain to a stage's input queue, where it waits until the stage takes it (R14, R15). -/
def W.handIn (w : W) (i k : Nat) : W := w.modSeg i k fun s => { s with running := true, busy := true, queued := true }

/-- An RDMA or storage operation goes out. -/
def W.opOutgoing (w : W) (i k : Nat) : W := (w.markRun i k).modTxn i fun t => { t with outstanding := t.outstanding + 1 }

/-! ### What waits for its next stage, and stalls (R13, R15 to R17) -/

/-- Whether subsystem `n` reads ready: it takes new work only then (R13). -/
def W.subReady (w : W) (n : Nat) : Bool := nbit (w.get F.SYS_READY_SUBSYS) (n - 1)

/-- The stage that receives a segment for an operation: 1 the Floe array, 2 compression, 3 the cipher cores, 4 storage, 5 the fabric. FETCH and STREAD
are input of the engine itself, 0. -/
def SegOp.stage : SegOp → Nat
  | .fetch => 0
  | .stread _ => 0
  | .kernel _ _ => 1
  | .compress _ => 2
  | .inflate _ => 2
  | .seal => 3
  | .unseal => 3
  | .loadz => 3
  | .stwrite => 4
  | .copy => 4
  | .deliver => 5

/-- The subsystem of R13 that an operation is new work for; a load's copy goes to memory. -/
def SegOp.subsystem : SegOp → Nat
  | .fetch => 8
  | .deliver => 8
  | .kernel _ _ => 2
  | .compress _ => 6
  | .inflate _ => 6
  | .seal => 7
  | .unseal => 7
  | .loadz => 7
  | .stwrite => 9
  | .stread _ => 9
  | .copy => 3

/-- A segment whose chain waits for its next stage and may spill: not of priority 0, nothing HELD, not yet taken (R15, R16). -/
def W.waiting (w : W) (t : Txn) (s : Seg) : Bool :=
  decide (t.prio ≠ 0) && t.status.isNone && (!s.busy || s.queued) && !s.chain.isEmpty && decide (s.spilled.length ≠ s.chain.length) &&
    !(s.chain.any fun b => w.dev.cip.held.contains b)

/-- The lowest free slot of the spill region. Which free slot a spill takes is not stated (assumption 98). -/
def W.spillSlot (w : W) : Option Nat :=
  let used := w.dev.neve.slots.foldl (fun (u : Tab Nat) x => Tab.put u x 0) []
  (pickFree (used.length + 1) used.keys 0 1).head?.filter fun s => decide (s < w.get F.NEVE_SPILLSIZE_SLOTS)

/-- The stalls in force: the region has no free slot, or spilling is disabled, and the segment still waits (R16, R17). -/
def W.stallsNow (w : W) : List (Nat × Nat × Nat) :=
  if !w.dev.neve.spillOff && w.spillSlot.isSome then []
  else w.dev.neve.stalls.filter fun x => match w.txn x.2.1 with | some t => w.waiting t (t.segOf x.2.2) | none => false

/-- Whether a stall keeps a stage from taking segment `k` of transaction `i` as new input: the stalled segment itself still goes on, and back-pressure
stops the input of every transaction that has none (R16, assumption 98). -/
def W.stopped (w : W) (i k stage : Nat) : Bool :=
  let l := w.stallsNow
  if stage = 0 then !l.isEmpty && !(l.any fun x => x.2.1 = i)
  else (l.any fun x => x.1 = stage) && !(l.any fun x => x.2.1 = i ∧ x.2.2 = k)

/-- Free a segment's input chain: the buffers in the pool, scrubbed where asked, and the slots of those spilled. -/
def W.dropChain (w : W) (i k : Nat) (scrub : Bool := false) : W :=
  match w.txn i with
  | none => w
  | some t =>
    let s := t.segOf k
    let here := s.here
    let w := (if scrub then w.scrubBufs here else w).freeBufs here
    let w := w.modNeve fun v => { v with slots := v.slots.filter fun x => !(s.spilled.map Prod.snd).contains x }
    w.modSeg i k fun s => { s with chain := [], spilled := [], queued := false }

/-- A stage takes a segment from its input queue (R14). -/
def W.takeSeg (w : W) (r : SegRef) : W := w.modSeg r.txn r.seg fun s => { s with queued := false }

/-- A segment that a failed unit had taken waits for its stage again. -/
def W.untakeSeg (w : W) (r : SegRef) : W :=
  let now := w.now
  w.modSeg r.txn r.seg fun s => { s with queued := true, since := now }

/-- Whether a stage may take a queued segment: none of its buffers is spilled (R15). -/
def W.atHand (w : W) (r : SegRef) : Bool := match w.txn r.txn with | some t => (t.segOf r.seg).spilled.isEmpty | none => true

/-- The chain of a queued segment as it stands: a read-back gives it new buffers. -/
def W.chainNow (w : W) (r : SegRef) (c : List Nat) : List Nat := match w.txn r.txn with | some t => (t.segOf r.seg).chain | none => c

/-- Take `n` reserved buffers as a segment's chain, or ask for what is missing (R41, R52). -/
def W.chainFor (w : W) (i k n : Nat) (t : Txn) (e : Nat) : Option W :=
  if n ≤ t.bufs.length then some ((w.modSeg i k fun s => { s with chain := t.bufs.take n }).modTxn i fun t => { t with bufs := t.bufs.drop n })
  else if w.asking (.reserve i) then none
  else some (w.askBufs ⟨e, t.prio, min 256 (n - t.bufs.length), t.world, .reserve i⟩)

/-- DIGEST acts once every FETCH has ended: the digest is written to the record and mirrored, and the transaction goes on once it has left
(R41, R82, R83). A write fetched again whose digest differs from its record's takes REPLAYFAIL (R90). -/
def W.digestGo (w : W) (i : Nat) : W :=
  match w.txn i with
  | none => w
  | some t =>
    let d := crc64 t.data
    if t.replayed && t.digested && decide (d ≠ t.digest) then w.outcome i 7
    else
      let w := w.modTxn i fun t => { t with digest := d, digested := true }
      match w.txn i with
      | none => w
      | some t =>
        if t.slots.isEmpty then w else
        let w := w.writeHead t 1
        let w := w.mirror t 4 (beBytes 8 d)
        let w := if w.degradedWay then w.jnsSlots t none (t.slots.take 1) else w
        let at_ := w.linkMark t.vc
        if w.hasLeft at_ || t.wait ≠ .none then w else w.modTxn i fun t => { t with wait := .link, linkAt := at_ }

/-- The record takes the client's data of a segment as its FETCH ends (R82). -/
def W.fetchData (w : W) (i k : Nat) (bs : List Byte) : W :=
  match w.txn i with
  | none => w
  | some t =>
    match w.chan t.chid with
    | none => w
    | some c =>
      let off := k * c.segSize
      let again := (t.segOf k).fetched
      let data := (t.data ++ zeros (off - t.data.length)).take off ++ bs ++ t.data.drop (off + bs.length)
      let w := w.modTxn i fun t => { t with
        data := data, fetchedSegs := t.fetchedSegs + b2n (!again) }
      let last := !again && decide (t.nsegs c ≤ t.fetchedSegs + 1)
      let w := (w.modSeg i k fun s => { s with fetched := true }).modChan t.chid fun c => c.stat 2 bs.length
      if !again && t.length ≤ w.get F.CHN_JCTL_MIRTHR && t.inline.isNone && !t.slots.isEmpty && t.load.isNone then
        let w := w.modTxn i fun t => { t with dataFlag := t.dataFlag || last }
        match w.txn i with
        | none => w
        | some t =>
          let w := w.writeData t
          let w := w.mirror t 3 (beBytes 4 off ++ zeros 4 ++ bs)
          let w := if w.degradedWay then w.jnsSlots t none t.slots else w
          if last then w.publishState t 1 else w
      else if last && t.waitsFor .fetches then ((w.modTxn i fun t => t.unwait .fetches).digestGo i).ioDone i
      else w

/-- Whether an exchange holds the new segments of a channel's attachment (R160 step 1); one that waits for the end of a restart does not (R186). -/
def W.xchgHolds (w : W) (chid att : Nat) : Bool :=
  w.flag F.FLO_XCHG_BUSY && !Tab.has w.dev.busy (regKey .FLO_XCHG 0) && decide (w.get F.FLO_XCHG_CHID = chid) && decide (w.get F.FLO_XCHG_ATT = att)

/-- Start the command at the head of a segment's list, if it can start: the state, and whether the command has ended at once. -/
def W.startOp (w : W) (i k : Nat) : W × Bool :=
  match w.txn i with
  | none => (w, false)
  | some t =>
    let s := t.segOf k
    match w.chan t.chid, s.ops with
    | some c, op :: _ =>
      let e := t.engine.getD 0
      if s.running || s.busy || !s.spilled.isEmpty || t.status.isSome then (w, false)
      else if s.empty then (w, true)
      else if !w.subReady op.subsystem || w.stopped i k op.stage then (w, false)
      else
        match op with
        | .fetch =>
          -- data that the segment still holds makes room for what is fetched (assumption 99)
          let w := if s.chain.isEmpty then w else w.dropChain i k
          let n := t.segLen c k
          match w.chainFor i k (bufsFor n) t e with
          | none => (w, false)
          | some w' =>
            if t.bufs.length < bufsFor n then (w', false)
            else
              let chain := t.bufs.take (bufsFor n)
              match (if t.replayed && t.dataFlag then some t.data else t.inline) with
              | some d =>
                let bs := (d.drop (k * c.segSize)).take n
                let w' := (w'.putChain chain bs).modSeg i k fun s => { s with len := n }
                (w'.fetchData i k bs, true)
              | none =>
                if !w.clientUp t then ((w'.modSeg i k fun s => { s with chain := [] }).modTxn i fun x => { x with bufs := t.bufs }, false)
                else
                  let w' := (w'.opOutgoing i k).rdmaPost (w.chanQp t) { psn := 0, n := w.packets (w.chanQp t) n, kind := 1, txn := i, seg := k, len := n }
                  (w'.qpSend (w.chanQp t) (.rdmaRead (w.chanQp t) (t.raddr + k * c.segSize) t.rkey n), false)
        | .deliver =>
          let n := min s.len (t.segLen c k)
          if !w.clientUp t then (w, false)
          else
            let w := (w.opOutgoing i k).modTxn i fun t => { t with issued := true }
            let w := w.rdmaPost (w.chanQp t) { psn := 0, n := w.packets (w.chanQp t) n, kind := 2, txn := i, seg := k, len := n }
            (w.qpSend (w.chanQp t) (.rdmaWrite (w.chanQp t) (t.raddr + k * c.segSize) t.rkey (w.chainBytes s.chain n)), false)
        | .kernel att param =>
          let word := c.kernel.getD att 0
          -- kernel segments are given to the Floe array in segment order (R40)
          if t.segs.any fun x => decide (x.1 < k) && !x.2.running && (x.2.ops.any fun o => o.stage = 1) && decide (x.2.kgiven ≤ s.kgiven) then (w, false)
          else if s.outChain.isEmpty then
            if w.asking (.out i k) then (w, false)
            else (w.askBufs ⟨e, t.prio, ceilDiv (s.chain.length * nbits word 39 32) 64, t.world, .out i k⟩, false)
          else
            let w := ((w.handIn i k).modSeg i k fun s => { s with kgiven := s.kgiven + 1 }).kinflight (nbits word 63 52) true
            let ks : KSeg := { ref := ⟨i, k⟩, chid := t.chid, att := att, word := word, world := t.world, prio := t.prio, param := param,
                               inChain := s.chain, inLen := s.len, outChain := s.outChain,
                               held := w.xchgHolds t.chid att }
            (w.modFlo fun f => { f with segs := Tab.put f.segs f.next ks, next := f.next + 1 }, false)
        | .compress pr =>
          let p := c.cmpprof.getD pr 0
          if profBad p true then (w.programFault i 7, false)
          else if 256 ≤ w.cmpCount e then (w, false)
          else if s.outChain.isEmpty then
            if w.asking (.out i k) then (w, false)
            else (w.askBufs ⟨e, t.prio, ceilDiv (s.chain.length * nbits p 39 32) 16, t.world, .out i k⟩, false)
          else
            ((w.handIn i k).cmpPut { ref := ⟨i, k⟩, inflate := false, prio := t.prio, issuer := e, job := 0, world := t.world, profile := p,
                                      inlen := s.len, explen := s.len, chid := t.chid, inChain := s.chain, outChain := s.outChain,
                                      form := 0, format := 0, wlog := profWlog p c.segshift }, false)
        | .inflate pr =>
          let p := c.cmpprof.getD pr 0
          if profBad p false && t.load.isNone then (w.programFault i 8, false)
          else if 256 ≤ w.cmpCount e then (w, false)
          else if s.outChain.isEmpty then
            if w.asking (.out i k) then (w, false)
            else (w.askBufs ⟨e, t.prio, bufsFor (t.segLen c k), t.world, .out i k⟩, false)
          else
            ((w.handIn i k).cmpPut { ref := ⟨i, k⟩, inflate := true, prio := t.prio, issuer := e, job := 0, world := t.world, profile := p,
                                      inlen := s.stlen, explen := t.segLen c k, chid := t.chid, inChain := s.chain, outChain := s.outChain,
                                      form := nbits s.desc 55 52, format := nbits s.desc 51 48,
                                      sigOk := decide (nbits s.desc 63 56 = 0xC7) && decide (nbits s.desc 55 52 < 2) }, false)
        | .seal =>
          if 256 ≤ w.cipCount e then (w, false)
          else
            ((w.handIn i k).cipPut { ref := ⟨i, k⟩, rime := s.rime, op := 1, prio := t.prio, issuer := e, job := 0, world := t.world, profile := c.cipprof,
                                      chain := s.chain, len := s.len, lba := c.slotLba t.offset k, nsid := c.nsid, sdesc := s.desc }, false)
        | .unseal =>
          if 256 ≤ w.cipCount e then (w, false)
          else
            ((w.handIn i k).cipPut { ref := ⟨i, k⟩, rime := s.rime, op := 2, prio := t.prio, issuer := e, job := 0, world := t.world, profile := c.cipprof,
                                      chain := s.chain, len := s.len, lba := c.slotLba t.offset k, nsid := c.nsid, sdesc := s.desc,
                                      record := s.record }, false)
        | .stwrite =>
          let lba := 2 ^ c.lbaShift
          let n := ceilDiv s.len lba
          let chain := s.chain.take (bufsFor (n * lba))
          -- the last LBA is filled with zeros, except after XTS, which enciphered it whole (R42, R116)
          let xts := decide (5 ≤ leAt s.record 0 1)
          let w := w.putChain chain (w.chainBytes s.chain (if xts then n * lba else s.len))
          let md := leBytes 8 s.desc ++ (s.record ++ zeros 32).take 32
          let w := (w.opOutgoing i k).modTxn i fun t => { t with issued := true }
          (w.nvmeIssue c.tgtPort { txn := some i, seg := k, kind := 1, nsid := c.nsid, lba := c.slotLba t.offset k, len := n * lba,
                                   mlen := n * Config.metaBytes c.tgtPort c.nsid, llen := if 2 < chain.length then (chain.length - 1) * 8 else 0,
                                   pages := chain, mdata := md }, false)
        | .stread lbas =>
          let lba := 2 ^ c.lbaShift
          let n := if lbas = 0 then c.slotLbas else lbas
          let w := if s.chain.isEmpty then w else w.dropChain i k
          match w.chainFor i k (bufsFor (n * lba)) t e with
          | none => (w, false)
          | some w' =>
            if t.bufs.length < bufsFor (n * lba) then (w', false)
            else
              let chain := t.bufs.take (bufsFor (n * lba))
              let w' := w'.opOutgoing i k
              (w'.nvmeIssue c.tgtPort { txn := some i, seg := k, kind := 2, nsid := c.nsid, lba := c.slotLba t.offset k, len := n * lba,
                                        mlen := n * Config.metaBytes c.tgtPort c.nsid,
                                        llen := if 2 < chain.length then (chain.length - 1) * 8 else 0, pages := chain }, false)
        | .loadz =>
          if 256 ≤ w.cipCount e then (w, false)
          else
            ((w.handIn i k).cipPut { ref := ⟨i, k⟩, rime := s.rime, op := 3, prio := t.prio, issuer := e, job := 0, world := t.world, profile := c.cipprof,
                                      chain := s.chain, len := s.len, lba := c.slotLba t.offset k, nsid := c.nsid, sdesc := s.desc,
                                      dest := t.destAt (k * c.segSize), record := s.record }, false)
        | .copy =>
          let bs := w.chainBytes s.chain (min s.len (t.segLen c k))
          let bad := w.chainBad s.chain bs.length
          let w := (w.loadWrite i t (k * c.segSize) bs).loadPoison t (k * c.segSize) bad
          ((w.freeBufs s.chain).modSeg i k fun s => { s with chain := [] }, true)
    | _, _ => (w, false)

/-- Take the command at the head off a segment's list: its successor may start, and a transaction that waited goes on (R40, R41). -/
def W.popOp (w : W) (i k : Nat) : W :=
  let w := w.modSeg i k fun s =>
    let keep := match s.ops.head? with | some .fetch => [] | some (.stread _) => [] | _ => s.did
    { s with ops := s.ops.drop 1, running := false, busy := false, queued := false, since := w.now, did := keep ++ s.ops.take 1 }
  match w.txn i with
  | none => w
  | some t =>
    if t.st = .done || t.status.isSome then (w.releaseBufs i).reap i
    else if t.wait ≠ .io then w
    else match t.sync with
      | some j => if (t.segOf j).ops.isEmpty then w.modTxn i fun t => { t with wait := .none, sync := none } else w
      | none => w.ioDone i

/-- Start a segment's commands as far as they go. -/
def W.driveN : Nat → W → Nat → Nat → W
  | 0, w, _, _ => w
  | n + 1, w, i, k =>
    let (w, ended) := w.startOp i k
    if ended then W.driveN n (w.popOp i k) i k else w

/-- Start the commands of one segment as far as they go. -/
def W.driveOne (w : W) (i k : Nat) : W :=
  match w.txn i with | some t => W.driveN ((t.segOf k).ops.length + 1) w i k | none => w

/-- Start a segment's commands as far as they go, and then the KERNEL commands of later segments that waited for it (R40). -/
def W.drive (w : W) (i k : Nat) : W :=
  let w := w.driveOne i k
  match w.txn i with
  | some t => (t.segs.keys.filter fun j => k < j).foldl (fun (w : W) (j : Nat) =>
      match w.txn i with
      | some t => if ((t.segOf j).ops.headD .fetch).stage = 1 then w.driveOne i j else w
      | none => w) w
  | none => w

/-- Start whatever can start for a transaction. -/
def W.kick (w : W) (i : Nat) : W :=
  match w.txn i with | some t => t.segs.keys.foldl (fun (w : W) (k : Nat) => w.drive i k) w | none => w

/-- Start whatever can start. -/
def W.kickAll (w : W) : W := w.dev.txns.keys.foldl (fun (w : W) (i : Nat) => w.kick i) w

/-- Start whatever can start on an engine: a job slot or a buffer has become free (R101, R120). -/
def W.kickEngine (w : W) (e : Nat) : W :=
  (w.dev.txns.keysWhere fun _ t => t.engine = some e).foldl (fun (w : W) (i : Nat) => w.kick i) w

/-- Stalls that have ended are forgotten, and what they held up goes on (R16). -/
def W.unstall (w : W) : W :=
  let l := w.stallsNow
  if l.length = w.dev.neve.stalls.length then w
  else (w.modNeve fun v => { v with stalls := l }).kickAll

/-- The running command of a segment has ended: an RDMA or storage operation when `out`. -/
def W.endOp (w : W) (i k : Nat) (out : Bool) : W :=
  let w := w.popOp i k
  let w := if out then w.opOut i else w
  (w.drive i k).unstall

/-- Issue a data command for the current segment (R40, R41): without ASYNC the transaction waits for its end. A data command without the SEG flag acts
on the current segment too: the spec states no effect of its absence (DESIGN CHOICE, assumption 100). -/
def W.issueOp (w : W) (i : Nat) (op : SegOp) (async : Bool) : W :=
  match w.txn i with
  | none => w
  | some t =>
    let w := w.modSeg i t.seg fun s => { s with ops := s.ops ++ [op] }
    let w := if async then w else w.modTxn i fun t => { t with wait := .io, sync := some t.seg }
    w.drive i t.seg

/-- Read a spilled buffer back with its poisoned words (R15, R196). -/
def W.readSpill (w : W) (b a : Nat) : W :=
  let w := w.setBuf b (w.bytes a 4096)
  let bad := (List.range 512).filter fun j => w.tagOf (a / 8 + j) = tPOISON
  if bad.isEmpty then w else w.modNeve fun v => { v with bad := bad.map (b * 512 + ·) ++ v.bad }

/-- A granted request goes on (R41, R52, R54, R104); a read-back fills its buffers from their spill slots (R15). -/
def W.granted (w : W) (r : BufReq) : W :=
  let holder := match r.why with | .reserve i => i | .out i _ => i | .back i _ => i | .ext j => j
  let (bs, w) := w.takeBufs r.n holder
  match r.why with
  | .reserve i =>
    let w := w.modTxn i fun t => { t.unwait .nobuf with bufs := t.bufs ++ bs }
    if (w.txn i).isNone then w.freeBufs bs else (w.ioDone i).kick i
  | .out i k =>
    if (w.txn i).isNone then w.freeBufs bs else (w.modSeg i k fun s => { s with outChain := bs }).drive i k
  | .ext j =>
    { w with dev := { w.dev with cmp := { w.dev.cmp with jobs := Tab.modify w.dev.cmp.jobs j fun x =>
      { x with outChain := x.outChain ++ bs, waitExt := false, extPending := false } } } }
  | .back i k =>
    match w.txn i with
    | none => w.freeBufs bs
    | some t =>
      let s := t.segOf k
      let base := w.base F.NEVE_SPILLBASE_BASE
      let w := (s.spilled.zip bs).foldl (fun (w : W) (p : (Nat × Nat) × Nat) => w.readSpill p.2 (base + p.1.2 * 4096)) w
      let w := w.modNeve fun v => { v with slots := v.slots.filter fun x => !(s.spilled.map Prod.snd).contains x }
      let chain := (s.spilled.zip bs).foldl (fun (c : List Nat) (p : (Nat × Nat) × Nat) => c.set p.1.1 p.2) s.chain
      ((w.modSeg i k fun s => { s with chain := chain, spilled := [], since := w.now }).drive i k).unstall

/-- Take a transaction away from everything that works for it: its jobs and kernel segments are removed, its storage and RDMA
operations end without it, its buffers are scrubbed and freed (R28, R329). -/
def W.orphan (w : W) (i : Nat) : W :=
  match w.txn i with
  | none => w
  | some t =>
    let w := (w.dev.flo.segs.filter fun g => g.2.ref.txn = i).foldl (fun (w : W) (g : Nat × KSeg) =>
      let w := w.kinflight (nbits g.2.word 63 52) false
      match g.2.core with
      | some n => (w.setCore (.flo n) { w.core (.flo n) with active := false }).set F.FLO_CORESTAT_STATE 1 n
      | none => w) w
    let w := { w with dev := w.dev.orphan i }
    let all := t.segs.flatMap fun s => s.2.here ++ s.2.outChain
    let w := w.scrubBufs all
    let w := w.modTxn i fun t => { t with outstanding := 0, segs := Tab.mapVal t.segs fun _ s => { s with busy := false, queued := false } }
    (w.releaseBufs i).modTxn i fun t => { t with segs := [] }

/-- Put a transaction back to the start of its program, to be assigned anew: a restart from its record, with INTENT and ACCEPT
skipped and its record reused (R28, R90). -/
def W.restart (w : W) (i : Nat) : W :=
  let v := (w.orphan i).modTxn i fun t => { t with
    replayed := t.replayed || t.acceptSent
    st := .queued, wait := .engine, bg := [], engine := none, idx := 0, count := 0, seg := 0, sync := none, issued := false, fetchedSegs := 0
    jpend := 0, bytes := 0, data := if t.dataFlag then t.data else [] }
  match w.txn i with
  | some t => v.engNap t.engine t.world
  | none => v

/-! ### Loss of a queue pair (R77) -/

/-- Whether a transaction past ACCEPT still needs client memory: a FETCH or DELIVER of it has not ended, issued or still to come (R77). Data that its
record holds needs no client (R90). -/
def W.needsClient (w : W) (t : Txn) : Bool :=
  (t.segs.any fun s => s.2.ops.any fun o => decide (o = .fetch) || decide (o = .deliver)) ||
  (match w.chan t.chid with
   | some c =>
     if t.write then (w.progOps c).contains 0x04 && t.inline.isNone && !(t.replayed && t.dataFlag) && decide (t.fetchedSegs < t.nsegs c)
     else (w.progOps c).contains 0x05 && decide (t.bytes < t.length)
   | none => false)

/-- A queue pair is lost: R77 for the transactions of its channel. -/
def W.qpLost (w : W) (q : Nat) : W :=
  match w.qp q with
  | none => w
  | some x =>
    let w := w.modQp q fun x => { x with state := 4, ver := 0, misses := 0, unacked := [], inbox := [] }
    let w := w.modEth (q / 2 ^ 24) fun e => { e with queued := e.queued.filter fun o => !o.2.onQp q }
    match x.chid with
    | none => w
    | some c =>
      ((w.txnsOf c).filter fun i => match w.txn i with | some t => w.chanQp t = q | none => false).foldl (fun (w : W) (i : Nat) =>
        match w.txn i with
        | none => w
        | some t =>
          -- requests toward the client end with the queue pair
          let lost := (x.unacked.filter fun r => r.kind ≠ 0 && r.txn = i).length
          let w := (List.range lost).foldl (fun (w : W) (_ : Nat) => w.modTxn i fun t => { t with outstanding := t.outstanding - 1 }) w
          let w := w.modTxn i fun t => { t with segs := Tab.mapVal t.segs fun _ s =>
            if s.running && (s.ops.head? = some .fetch || s.ops.head? = some .deliver) then { s with busy := false } else s }
          if t.st = .done || t.load.isSome then w
          else if t.early then w.endEarly i 6 false
          else if t.st = .decided then (match w.txn i with | some u => if u.outstanding = 0 then w.doneTxn i else w | none => w)
          else if w.needsClient t then w.outcome i 6
          else w) w

/-! ### Spilling (R15 to R17) -/

/-- The segments whose chains wait for their next stage and may spill, with the time since when, oldest first by rising time. -/
def W.spillable (w : W) : List (Nat × Nat × Nat) :=
  let l := w.dev.txns.flatMap fun p => p.2.segs.filterMap fun s => if w.waiting p.2 s.2 then some (s.2.since, p.1, s.1) else none
  l.foldl (fun acc x => (acc.takeWhile fun y => decide (y.1 ≤ x.1)) ++ [x] ++ (acc.dropWhile fun y => decide (y.1 ≤ x.1))) []

/-- The spill of segment `k` finds no free slot, or spilling is disabled: the stage that would have received it stops taking input, and the stall
counts once (R16, R17). -/
def W.spillFull (w : W) (i k : Nat) : W :=
  let l := w.stallsNow
  if l.any fun x => x.2.1 = i ∧ x.2.2 = k then w
  else
    let stage := match w.txn i with | some t => (match (t.segOf k).ops.head? with | some o => o.stage | none => 0) | none => 0
    (w.bump F.NEVE_SPILLFULL_COUNT).modNeve fun v => { v with stalls := (stage, i, k) :: l }

/-- Write a buffer with its poisoned words to memory at `a`; none where the owner check fails (R15, R17, R196). -/
def W.writeSpill (w : W) (b a : Nat) : Option W :=
  (w.storeAs (cirqueWho (source 21 1)) a (w.buf b)).map fun w' =>
    (w.dev.neve.bad.filter fun x => x / 512 = b).foldl (fun (w : W) (x : Nat) => w.putTag (a / 8 + x % 512) tPOISON) w'

/-- Spill the first buffer of a segment's chain that is still in the pool: to the lowest free slot, under the owner check (R15, R17). A check that
fails disables spilling until Reset: the spec names nothing that enables it again (assumption 98). -/
def W.spillOne (w : W) (i k : Nat) : Option W :=
  match w.txn i with
  | none => none
  | some t =>
    let s := t.segOf k
    match (List.range s.chain.length).find? fun p => !(s.spilled.map Prod.fst).contains p with
    | none => none
    | some p =>
      if w.dev.neve.spillOff then none
      else
        match w.spillSlot with
        | none => none
        | some slot =>
          let b := s.chain.getD p 0
          match w.writeSpill b (w.base F.NEVE_SPILLBASE_BASE + slot * 4096) with
          | none => some ((w.modNeve fun v => { v with spillOff := true }).report { cls := 0x1D, level := 2, src := source 21 1 })
          | some w =>
            let w := w.modNeve fun v => { v with slots := slot :: v.slots }
            some ((w.modSeg i k fun s => { s with spilled := s.spilled ++ [(p, slot)] }).freeBufs [b])

/-- Spill buffers of the oldest waiting chains until the free unreserved count reaches LOWWM (R15). -/
def W.spillDown : Nat → W → W
  | 0, w => w
  | n + 1, w =>
    if w.get F.NEVE_SPILLCTL_LOWWM + 256 ≤ w.neveFree then w
    else match w.spillable with
      | [] => w
      | (_, i, k) :: _ => match w.spillOne i k with
        | some w' => if w'.dev.neve.spillOff then w'.spillFull i k else W.spillDown n w'
        | none => w.spillFull i k

/-- Pressure spill after the free count fell (R15). -/
def W.spillPressure (w : W) : W := W.spillDown w.neveTotal w

/-- Spill what is left of a segment's chain (R15). -/
def W.spillAll : Nat → W → Nat → Nat → W
  | 0, w, _, _ => w
  | n + 1, w, i, k => match w.spillOne i k with
    | some w' => if w'.dev.neve.spillOff then w'.spillFull i k else W.spillAll n w' i k
    | none => w.spillFull i k

end Sys2Proof.Machine
end

