-- ==== Sys2Proof/Machine/Context.lean ====
section
/-! DEFINITION. Channel contexts and CHN.CTXCMD (R29 to R33, R322). -/

namespace Sys2Proof.Machine

open Sys2Proof

/-- Drop repeats that stand beside one another. -/
def dropRuns : List Nat → List Nat
  | [] => []
  | x :: t => match t with
    | [] => [x]
    | y :: _ => if x = y then dropRuns t else x :: dropRuns t

/-- The keys of the blocks of `size` bytes from `base` on, of `n` in all, in which memory lists a byte that differs from 0. -/
def W.listedBlocks (w : W) (base size n : Nat) : List Nat :=
  dropRuns (w.mem.cells.filterMap fun c => if base ≤ c.1 && c.1 < base + size * n then some ((c.1 - base) / size) else none)

/-- Address of a channel's block in the context table (R29). -/
def W.ctxAddr (w : W) (c : Nat) : Nat := w.base F.CHN_CTXBASE_BASE + c * 512

/-- Read the 512 bytes of a block (R31). -/
def Chan.parse (b : List Byte) : Chan :=
  let f (o n : Nat) : Nat := leAt b o n
  { world := f 4 2, state := f 6 1, prio := f 7 1 / 64, dlnotify := nbit (f 7 1) 5, rdok := nbit (f 7 1) 4, wrok := nbit (f 7 1) 3
    port := nbits (f 8 4) 28 24, qp := nbits (f 8 4) 23 0, crpver := f 0xC 1, segshift := f 0xD 1, subcred := f 0xE 2
    progbase := f 0x10 8, proglen := f 0x18 2, dldef := f 0x1C 4
    kernel := (List.range 4).map fun i => f (0x20 + 8 * i) 8
    cmpprof := (List.range 2).map fun i => f (0x40 + 8 * i) 8
    cipprof := f 0x50 16, tgtPort := nbits (f 0x60 8) 2 0, lbaShift := 9 + nbits (f 0x60 8) 7 4, nsid := nbits (f 0x60 8) 39 8
    tgtbase := f 0x68 8, tgtlimit := f 0x70 8, seqhi := f 0x80 8 % 2 ^ 48, winmap := f 0x88 128
    inflight := f 0x108 2, avail := f 0x10A 2, stats := (List.range 6).map fun i => f (0x110 + 8 * i) 8 }

/-- The bytes that the HK7 keeps, 0x080 to 0x13F (R31, R322). -/
def Chan.kept (c : Chan) : List Byte :=
  leBytes 8 c.seqhi ++ leBytes 128 c.winmap ++ leBytes 2 c.inflight ++ leBytes 2 c.avail ++ zeros 4 ++ c.stats.flatMap (leBytes 8)

/-- Whether the Cirque fields of a block can be used at all: OPEN validates them (R31, R32). An LBA shift field above 3 is refused: the spec gives
the values 0 for 512 B and 3 for 4 KiB (DESIGN CHOICE, assumption 100). -/
def Chan.valid (b : List Byte) (chid : Nat) : Bool :=
  let f (o n : Nat) : Nat := leAt b o n
  decide (f 0 4 = chid) && decide (f 4 2 < 0xFFFF) && decide (nbits (f 7 1) 2 0 = 0) && decide (f 8 4 < 2 ^ 29) &&
  decide (12 ≤ f 0xD 1) && decide (f 0xD 1 ≤ 20) && decide (1 ≤ f 0xE 2) && decide (f 0xE 2 ≤ 1024) &&
  decide (f 0x10 8 % 16 = 0) && decide (f 0x10 8 < 2 ^ 46) && decide (1 ≤ f 0x18 2) && decide (f 0x18 2 ≤ 256) && decide (f 0x1A 2 = 0) &&
  decide (f 0x5D 3 = 0) && decide (nbit (f 0x60 8) 3 = false) && decide (nbits (f 0x60 8) 7 4 ≤ 3) && decide (f 0x65 3 = 0) &&
  decide (f 0x78 8 = 0) && ((b.drop 0x140).take 192).all (· = 0)

/-- Program validation at OPEN (R33). -/
def W.progOk (w : W) (c : Chan) : Bool :=
  (List.range c.proglen).all fun i =>
    match w.cmdAt c.progbase i with
    | none => false
    | some x =>
      decide (1 ≤ x.op) && decide (x.op ≤ 0x14) && decide (x.flags < 4) &&
      (!(x.op = 0x10 || x.op = 0x11) || decide (x.a < c.proglen)) &&
      (!(x.op = 0x06) || decide (c.kernel.getD x.a 0 ≠ 0)) &&
      (!(x.op = 0x07 || x.op = 0x08) || decide (c.cmpprof.getD x.a 0 ≠ 0))

/-- Read a block under its owner check (R29). -/
def W.ctxRead (w : W) (c : Nat) : Option (List Byte) :=
  if w.rangeOk (cirqueWho (source 21 0)) .rd (w.ctxAddr c) 512 then some (w.bytes (w.ctxAddr c) 512) else none

/-- A block that could not be read is reported; the channel counts as CLOSED (R29). -/
def W.ctxBad (w : W) (c : Nat) : W := w.report { cls := 0x1D, level := 2, src := source 21 0, chid := c }

/-- Write a resident block back, and send its kept fields to the partner (R30, R32, R322). -/
def W.writeBack (w : W) (c : Nat) : W :=
  match w.chan c with
  | none => w
  | some x =>
    let a := w.ctxAddr c
    let who := cirqueWho (source 21 0)
    if !w.rangeOk who .wr a 512 then w.ctxBad c
    else
      let w := ((w.unitStore (a + 6) (leBytes 1 x.state)).unitStore (a + 0xC) (leBytes 1 x.crpver)).unitStore (a + 0x20) (x.kernel.flatMap (leBytes 8))
      let w := w.unitStore (a + 0x80) x.kept
      let w := { w with dev := { w.dev with chans := Tab.modify w.dev.chans c fun x => { x with dirty := false } } }
      w.plkSend 2 0x11 0 c (leBytes 1 x.state ++ x.kept)

/-- Entries of the resident store (R29, R30). -/
def W.ctxCap (w : W) : Nat := w.xm 8192 4096

/-- A resident block is pinned by a transaction or a completion-cache entry (R30). -/
def W.pinned (w : W) (c : Nat) : Bool := Tab.exists? w.dev.txns fun _ t => decide (t.chid = c)

/-- Make room for a block of a priority: a free entry, else that of the least recently used unpinned block. Blocks of priorities 1 to 3 together take
all entries but the last 256; at that limit one of them gives way to another (R30). -/
def W.ctxRoom (w : W) (prio : Nat) : Option W :=
  let low := w.dev.chans.filter fun p => p.2.prio ≠ 0
  let limit := prio ≠ 0 && decide (w.ctxCap - 256 ≤ low.length)
  if w.dev.chans.length < w.ctxCap && !limit then some w
  else
    match (if limit then low else w.dev.chans).filter fun p => !w.pinned p.1 with
    | [] => none
    | p :: t =>
      let v := t.foldl (fun (m x : Nat × Chan) => if x.2.lastUse < m.2.lastUse then x else m) p
      let w := if v.2.dirty then w.writeBack v.1 else w
      some { w with dev := { w.dev with chans := Tab.del w.dev.chans v.1 } }

/-- Before a replaying module takes a SUBMIT for a channel of the replayed module, the channel's WINMAP is cleared; the records that it replays set their
numbers again (R89). -/
def W.rebuildChan (w : W) (chid : Nat) : W :=
  if w.dev.plk.rebuild.contains (w.chSeg chid) && !w.dev.plk.rebuilt.contains chid then
    (w.modChan chid fun c => { c with winmap := 0 }).modPlk fun p => { p with rebuilt := chid :: p.rebuilt }
  else w

/-- Put a block into the resident store. -/
def W.ctxPut (w : W) (c : Nat) (x : Chan) : W :=
  ({ w with dev := { w.dev with chans := Tab.put w.dev.chans c { x with lastUse := w.now } } }).rebuildChan c

/-! ### CHN.CTXCMD (R32) -/

/-- A state field beyond the listed ones counts as CLOSED. -/
def Chan.fix (x : Chan) : Chan := if 4 < x.state then { x with state := 0 } else x

/-- The channel as it stands, resident or in the table. -/
def W.chanAny (w : W) (c : Nat) : Option Chan :=
  match w.chan c with
  | some x => some x
  | none => (w.ctxRead c).map fun b => (Chan.parse b).fix

/-- OPEN: none when refused (R32, R33). BOOK starts with every credit available. -/
def W.ctxOpen (w : W) (c : Nat) : Option W :=
  match w.chanAny c, w.ctxRead c with
  | some x, some b =>
    if x.state ≠ 0 || !Chan.valid b c then none
    else
      let y := Chan.parse b
      if !w.progOk y then none
      else match (if (w.chan c).isSome then some w else w.ctxRoom y.prio) with
        | none => none
        | some w => some (w.ctxPut c { y with state := 1, crpver := 0, inflight := 0, avail := y.subcred, dirty := true })
  | _, _ => none

/-- QUIESCE (R32). Where every entry that the block could take is pinned, QUIESCE, ABORT and CLOSE of a channel that is not resident end with ERR, as
OPEN does (DESIGN CHOICE, assumption 71). -/
def W.ctxQuiesce (w : W) (c : Nat) : Option W :=
  match w.chanAny c with
  | some x =>
    if x.state ≠ 1 then none
    else match (if (w.chan c).isSome then some w else (w.ctxRoom x.prio).map fun w => w.ctxPut c x) with
      | none => none
      | some w => some ((w.modChan c fun x => { x with state := 2 }).settle c)
  | none => none

/-- ABORT: every transaction ends ABORTED, then QUIESCED (R32). -/
def W.ctxAbort (w : W) (c : Nat) : Option W :=
  match w.chanAny c with
  | some x =>
    if x.state = 1 || x.state = 2 || x.state = 4 then
      match (if (w.chan c).isSome then some w else (w.ctxRoom x.prio).map fun w => w.ctxPut c x) with
      | none => none
      | some w =>
        let w := w.modChan c fun x => { x with quiesceTo := some 3, state := if x.state = 1 then 2 else x.state }
        let w := (w.txnsOf c).foldl (fun (w : W) (i : Nat) => w.outcome i 6) w
        some (w.settle c)
    else none
  | none => none

/-- Free a completion-cache entry: the record becomes FREE and its slots with it (R47, R73). -/
def W.freeEntry (w : W) (i : Nat) : W :=
  match w.txn i with
  | none => w
  | some t => ((w.publishState t 0).freeSlots t).dropTxn i

/-- CLOSE: completion cache discarded, block written back and evicted, CLOSED; refused during an exchange of the channel (R32, R159). The slots of a
VOID record whose update has not left stay until it has (R47). -/
def W.ctxClose (w : W) (c : Nat) : Option W :=
  match w.chanAny c with
  | some x =>
    if !(x.state = 3 || x.state = 4) || decide (x.inflight ≠ 0) || (w.txnsOf c).any (fun i => match w.txn i with | some t => t.load.isSome | none => false) ||
        (w.flag F.FLO_XCHG_BUSY && decide (w.get F.FLO_XCHG_CHID = c)) then none
    else
      match (if (w.chan c).isSome then some w else (w.ctxRoom x.prio).map fun w => w.ctxPut c x) with
      | none => none
      | some w =>
        let w := ((w.txnsOf c).filter fun i => match w.txn i with | some t => !t.gone | none => false).foldl (fun (w : W) (i : Nat) => w.freeEntry i) w
        let w := (w.modChan c fun x => { x with state := 0, crpver := 0 }).writeBack c
        some { w with dev := { w.dev with chans := Tab.del w.dev.chans c } }
  | none => none

/-- WRITEBACK; a block that is not resident has nothing to write (R32). -/
def W.ctxWriteback (w : W) (c : Nat) : Option W := some (w.writeBack c)

end Sys2Proof.Machine
end

