-- ==== Sys2Proof/Machine/Crp.lean ====
section
/-! DEFINITION. Client messages: the processing order of R68, version negotiation, admission, the sequence window, keepalive, and
the dispatcher's waits (R30, R34 to R39, R48, R59 to R77). -/

namespace Sys2Proof.Machine

open Sys2Proof

/-- A client message's fields (R61, R64, R66, R67). -/
structure Msg where
  /-- VER. -/
  ver : Nat
  /-- TYPE. -/
  type : Nat
  /-- LEN. -/
  len : Nat
  /-- CHAN. -/
  chan : Nat
  /-- SEQ. -/
  seq : Nat
  /-- The whole message. -/
  bytes : List Byte
  deriving DecidableEq, Repr

/-- Big-endian field of `n` bytes at offset `o`. -/
def Msg.be (m : Msg) (o n : Nat) : Nat := ofBE ((m.bytes.drop o).take n)

/-- Read a message's header (R61). -/
def Msg.parse (b : List Byte) : Msg :=
  let f (o n : Nat) : Nat := ofBE ((b.drop o).take n)
  ⟨f 0 1, f 1 1, f 2 2, f 4 4, f 8 6, b⟩

/-- A client protocol violation is counted (R71, R73). -/
def W.violation (w : W) (world : Nat) : W := w.worldCnt world 5

/-- A refusal under R36 or R64: CHN.REFUSE with the number of the check of R34 that failed, and the world's count. -/
def W.refuse (w : W) (world chid check : Nat) : W :=
  (w.worldCnt world 0).report { cls := 0x1A, level := 0, src := source 21 0, sub := check, world := world, chid := chid }

/-- Checks 1 to 3 of R34, which HELLO and SUBMIT share: the number of the first that fails, 0 for none. A foreign CHAN fails check 2, and with no
block at hand the channel counts as CLOSED (R29, R68). -/
def bindFail (q : Nat) (x : Qp) (chan : Nat) (c : Option Chan) : Nat :=
  if chan ≠ x.chid.getD 0 then 2
  else match c with
    | none => 1
    | some c => if c.state ≠ 1 then 1 else if c.port * 2 ^ 24 + c.qp ≠ q then 2 else if c.world ≠ x.world then 3 else 0

/-! ### HELLO (R63, R64) -/

/-- HELLOACK. -/
def W.helloAck (w : W) (q : Nat) (m : Msg) (c : Option Chan) (ver result : Nat) : W :=
  let hk := w.get F.CHN_CRPCTL_VMAX
  let body := if result = 1 then [0, 0, 1] else
    leBytes 1 ver ++ leBytes 1 hk ++ leBytes 1 result ++ [0] ++ beBytes 2 ((c.map Chan.subcred).getD 0) ++ beBytes 2 ((c.map Chan.avail).getD 0) ++
    beBytes 6 ((c.map Chan.seqhi).getD 0)
  w.crpSend q 2 32 m.chan 0 body

/-- A client has come back: replayed transactions that waited for it go on, and commands that need it start (R90, R91). -/
def W.clientBack (w : W) (c : Nat) : W :=
  (w.txnsOf c).foldl (fun (w : W) (i : Nat) =>
    (w.modTxn i fun t => if t.wait = .client then { t with wait := .engine } else t).kick i) (w.modChan c fun x => { x with replayWait := none })

/-- A HELLO after its access checks (R64). -/
def W.hello (w : W) (q : Nat) (x : Qp) (m : Msg) (c : Option Chan) : W :=
  let bad := if bindFail q x m.chan c = 0 && !w.worldActive x.world then 6 else bindFail q x m.chan c
  if bad ≠ 0 then (w.helloAck q m c 0 1).refuse x.world m.chan bad
  else
    let vmin := m.be 16 1
    let vmax := m.be 17 1
    if x.ver ≠ 0 then
      if vmin ≤ x.ver && x.ver ≤ vmax then w.helloAck q m c x.ver 0 else w.helloAck q m c 0 2
    else
      let v := min vmax (w.get F.CHN_CRPCTL_VMAX)
      if vmin = 0 || vmax < vmin || v < vmin then w.helloAck q m c 0 2
      else
        let w := (w.modQp q fun x => { x with ver := v, misses := 0 }).modChan m.chan fun c => { c with crpver := v }
        (w.helloAck q m c v 0).clientBack m.chan

/-! ### SUBMIT (R34 to R38, R66 to R71) -/

/-- Tokens that a transaction is charged: one for each 4 KiB, at most the depth; 0 for a world without a limit (R37, R163). -/
def W.tokens (w : W) (world len : Nat) : Nat :=
  match Tab.find? w.dev.worlds world with
  | some r => if r.depth = 0 then 0 else min r.depth (ceilDiv len 4096)
  | none => 0

/-- Charge a QUEUED transaction that waits for tokens, if no earlier one of its world waits and the bucket holds enough (R37). -/
def W.charge (w : W) (i : Nat) : W :=
  match w.txn i with
  | none => w
  | some t =>
    let n := w.tokens t.world t.length
    let ahead := Tab.exists? w.dev.txns fun j u => decide (j < i) && decide (u.wait = .tokens) && decide (u.world = t.world) && decide (u.st = .queued)
    let held := match Tab.find? w.dev.worlds t.world with | some r => r.tokens | none => 0
    if t.wait ≠ .tokens || ahead || decide (held < n) then w
    else
      let w := w.modWorld t.world fun r => { r with tokens := r.tokens - n, spent := r.spent + n }
      w.modTxn i fun t => { t with wait := .engine, charged := true }

/-- LOW of R69: the lowest number the channel holds, as a transaction before ENDED or a completion-cache entry; SEQHI + 1 when it holds none. -/
def W.lowSeq (w : W) (c seqhi : Nat) : Nat :=
  match w.dev.txns.filter fun p => p.2.chid = c && !p.2.gone && p.2.load.isNone with
  | [] => seqhi + 1
  | p :: t => t.foldl (fun (m : Nat) (q : Nat × Txn) => min m q.2.seq) p.2.seq

/-- The held transaction of a sequence number. -/
def W.seqTxn (w : W) (c seq : Nat) : Option (Nat × Txn) :=
  Tab.first? w.dev.txns fun _ t => decide (t.chid = c) && decide (t.seq = seq) && !t.gone && t.load.isNone

/-- Check 4 of R34: the operation is permitted. An OP that is neither read nor write is judged by the body checks (R67). -/
def Chan.permits (c : Chan) (op : Nat) : Bool := (!(op = 1) || c.wrok) && (!(op = 2) || c.rdok)

/-- Check 5 of R34: the extent maps inside [TGTBASE, TGTLIMIT). -/
def Chan.extentOk (c : Chan) (offset len : Nat) : Bool :=
  decide (c.tgtbase + offset / 2 ^ c.lbaShift + ceilDiv len c.segSize * c.slotLbas ≤ c.tgtlimit)

/-- Checks 4 to 6 of R34. -/
def W.mayTouch (w : W) (c : Chan) (write : Bool) (offset len : Nat) : Bool :=
  c.permits (if write then 1 else 2) && c.extentOk offset len && w.worldActive c.world

/-- The first check of R34 that a SUBMIT fails; 0 when it passes them all. One that its world's SUSPEND or REVOKE ends has passed the last (R37). -/
def W.submitFail (w : W) (q : Nat) (x : Qp) (m : Msg) (c : Option Chan) (ending : Bool) : Nat :=
  match bindFail q x m.chan c, c with
  | 0, some c =>
    if !c.permits (m.be 16 1) then 4
    else if !c.extentOk (m.be 24 8) (m.be 32 8) then 5
    else if !ending && !w.worldActive c.world then 6 else 0
  | n, _ => n

/-- The body rules of R66, R67 and R42. -/
def W.bodyOk (w : W) (c : Chan) (m : Msg) : Bool :=
  let op := m.be 16 1
  let inl := nbit (m.be 17 1) 0
  let off := m.be 24 8
  let len := m.be 32 8
  (decide (op = 1) || decide (op = 2)) && decide (m.be 17 1 < 2) && decide (m.be 18 2 = 0) && decide (m.be 56 8 = 0) &&
  decide (1 ≤ len) && decide (len ≤ 2 ^ 36) && decide (off % 2 ^ c.lbaShift = 0) &&
  (!w.hasXform c || decide (off % c.segSize = 0)) &&
  (!inl || (decide (op = 1) && decide (len ≤ 4096) && decide (m.be 40 8 = 0) && decide (m.be 48 4 = 0)))

/-- A SUBMIT that ends at once with NOACCESS or BADREQ: the credit return counts on the channel the queue pair is bound to (R36, R71). -/
def W.endSubmit (w : W) (q : Nat) (x : Qp) (m : Msg) (status : Nat) : W :=
  let w := w.cretUp (x.chid.getD m.chan)
  w.sendComplete q m.chan m.seq status 1 (m.be 52 4) 0 w.now

/-- One of the six counts of a channel's STATS, in its block in the table while it is not resident (R31). -/
def W.statAny (w : W) (c i : Nat) : W :=
  match w.chan c, w.chanAny c with
  | some _, _ => w.modChan c fun x => x.stat i 1
  | none, some x =>
    let a := w.ctxAddr c + 0x110 + 8 * i
    (match w.storeAs (cirqueWho (source 21 0)) a (leBytes 8 ((x.stat i 1).stats.getD i 0)) with | some w => w | none => w.ctxBad c)
  | none, none => w

/-- Count one expiry, and raise the channel interrupt where DLNOTIFY asks for it, with code 0 and the sequence number (R50, assumption 100). -/
def W.countExpiry (w : W) (chid world seq : Nat) : W :=
  let notify := match w.chanAny chid with | some c => c.dlnotify | none => false
  ((if notify then w.irq (.channel chid 0 seq) else w).statAny chid 5).worldCnt world 4

/-- Steps 5 to 8 of R68 for a SUBMIT: `c` is its channel's block, none for a foreign CHAN or a block that cannot be read. `p`: the SUBMIT waited for the
block, from the time and under the number it holds. `ends`: it ends now with this status instead, before its block is loaded (R37, R50). -/
def W.submit (w : W) (q : Nat) (x : Qp) (m : Msg) (c : Option Chan) (p : Option CtxWait) (ends : Option Nat) : W :=
  let bad := w.submitFail q x m c ends.isSome
  match bad, c with
  | 0, some c =>
    if !w.bodyOk c m then w.endSubmit q x m 8
    else
      let s := m.seq
      let inWin := decide (c.seqhi ≤ s + 1023) && decide (s ≤ c.seqhi) && nbit c.winmap (s % 1024)
      -- a repeat of a transaction whose COMPLETE may not leave yet is answered behind it (R81)
      let stored (i : Nat) (t : Txn) : W := if t.wait = .link then w.modTxn i fun t => { t with again := t.again + 1 } else w.complete t true
      if s + 1023 < c.seqhi then w.sendNack q m.chan s 1 0x10
      else match w.seqTxn m.chan s, inWin with
        | some (i, t), true => if t.cached then stored i t else if t.accepted then w.sendAccept t true else w
        | none, true => w.sendNack q m.chan s 1 0x10
        | some (i, t), false => if t.cached then stored i t else w
        | none, false =>
          if w.lowSeq m.chan c.seqhi + 1023 < s || s = 2 ^ 48 - 1 then w.sendNack q m.chan s 1 0x10
          else if c.avail = 0 then (w.sendNack q m.chan s 2 0x10).violation x.world
          else match ends with
            | some st =>
              let w := if st = 2 then w.countExpiry m.chan c.world s else w
              ((w.statAny m.chan 1).pmuWorld c.world fun p => p.event 0x1FF 0x302 1).endSubmit q x m st
            | none =>
              let rel := if m.be 20 4 ≠ 0 then m.be 20 4 else c.dldef
              let taken := match p with | some p => p.at_ | none => w.now
              let i := match p with | some p => p.num | none => w.dev.nextTxn
              let t : Txn := {
                chid := m.chan, world := c.world, prio := c.prio, seq := s, write := decide (m.be 16 1 = 1), offset := m.be 24 8, length := m.be 32 8
                raddr := m.be 40 8, rkey := m.be 48 4, ctag := m.be 52 4
                inline := if nbit (m.be 17 1) 0 then some (m.bytes.drop 64) else none
                ver := x.ver, qp := q, st := .queued, wait := .tokens
                deadline := if rel = 0 then 0 else taken + rel * 1000, inWheel := decide (taken / 1000 + rel < w.now / 1000 + 4096) }
              let w := w.modChan m.chan fun c => { c with avail := c.avail - 1, inflight := c.inflight + 1 }
              let w := { w with dev := { w.dev with txns := Tab.put w.dev.txns i t, nextTxn := max w.dev.nextTxn (i + 1) } }
              w.charge i
  | n, _ => (w.endSubmit q x m 1).refuse x.world m.chan n

/-- A SUBMIT that waits for its context entry is QUEUED already: it ends now with a status (R37, R50). -/
def W.endWaiting (w : W) (p : CtxWait) (status : Nat) : W :=
  let w := { w with dev := { w.dev with ctxq := w.dev.ctxq.filter fun y => y.num ≠ p.num } }
  match w.qp p.qp with
  | none => w
  | some x => w.submit p.qp x (Msg.parse p.bytes) (x.chid.bind w.chanAny) (some p) (some status)

/-! ### CACK, PING and PONG (R73, R75) -/

/-- A CACK on its channel: entries freed; numbers still before DONE are a protocol violation (R73). -/
def W.cack (w : W) (x : Qp) (m : Msg) : W :=
  let n := m.be 16 2
  if n = 0 || 1024 < n then w.violation x.world
  else
    (w.dev.txns.keysWhere fun _ t => decide (t.chid = m.chan) && decide (m.seq ≤ t.seq) && decide (t.seq < m.seq + n) && !t.gone && t.load.isNone).foldl
      (fun (w : W) (i : Nat) => match w.txn i with
        -- of an entry whose COMPLETE has not left yet the credit returns here
        | some t => if !t.cached then w.violation x.world else if t.wait = .link then (w.creditBack t).freeEntry i else w.freeEntry i
        | none => w) w

/-! ### The processing order (R68) -/

/-- Step 5 and later, with the context at hand; `p`: the message waited for it. -/
def W.crpAct (w : W) (q : Nat) (x : Qp) (m : Msg) (c : Option Chan) (p : Option CtxWait) : W :=
  let w := { w with dev := { w.dev with chans := Tab.modify w.dev.chans m.chan fun c => { c with lastUse := w.now } } }
  match m.type with
  | 0x01 => w.hello q x m c
  | 0x10 => w.submit q x m c p none
  | 0x13 => w.cack x m
  | 0x20 => w.crpSend q 0x21 24 m.chan 0 ((m.bytes.drop 16).take 8)
  | 0x21 => w.modQp q fun x => { x with misses := 0 }
  | _ => w

/-- A message waits for its channel's block, QUEUED under the number its transaction will have (R30, R37, R78). -/
def W.ctxWait (w : W) (q : Nat) (b : List Byte) : W :=
  { w with dev := { w.dev with ctxq := w.dev.ctxq ++ [⟨q, w.now, w.dev.nextTxn, b⟩], nextTxn := w.dev.nextTxn + 1 } }

/-- The processing order: what a client message meets first decides it; its channel's block may have to be loaded (R30, R68). -/
def W.crpMsg (w : W) (q : Nat) (b : List Byte) : W :=
  let m := Msg.parse b
  match w.qp q with
  | none => w
  | some x =>
    match x.chid with
    | none => w
    | some chid =>
      if !x.up || w.dev.jour.frozen || !w.gateFabric (w.chSeg chid) || !w.worldActive x.world then w
      else
        let w := w.modQp q fun x => { x with lastAt := w.now }
        let nack (r : Nat) : W := w.sendNack q m.chan m.seq r m.type
        let listed := m.type = 0x01 || m.type = 0x10 || m.type = 0x13 || m.type = 0x20 || m.type = 0x21
        -- steps 1 to 4
        if !listed || m.len ≠ b.length then nack 3
        else if m.type ≠ 0x01 && x.ver = 0 then nack 5
        else if m.type = 0x01 && m.ver ≠ 1 then nack 3
        else if m.type ≠ 0x01 && m.ver ≠ x.ver then nack 3
        else if (m.type = 0x20 || m.type = 0x21) && x.ver = 1 then nack 4
        else if m.type = 0x10 && nbit (m.be 17 1) 0 && x.ver < 3 then nack 4
        else if m.type = 0x13 && x.ver = 1 && 1 < m.be 16 2 then nack 4
        else if m.len ≠ (if m.type = 0x10 then (if nbit (m.be 17 1) 0 then 64 + m.be 32 8 else 64)
            else if m.type = 0x20 || m.type = 0x21 then 24 else 32) then nack 3
        -- step 5: CHAN in all 32 bits
        else if m.chan ≠ chid then
          if m.type = 0x01 then w.hello q x m none
          else if m.type = 0x10 then w.submit q x m none none none
          else w.violation x.world
        else match w.chan chid with
          | some c => w.crpAct q x m (some c) none
          | none => w.ctxWait q b

/-- A message row acts on messages of its type. -/
def W.crpRow (w : W) (type q : Nat) (b : List Byte) : W := if (Msg.parse b).type = type then w.crpMsg q b else w

/-- The channel that a waiting message names. -/
def W.msgChan (w : W) (p : CtxWait) : Option Nat := (w.qp p.qp).bind Qp.chid

/-- Hand the messages that waited for a channel's block to their processing, in order of arrival. -/
def W.ctxServe (w : W) (chid : Nat) (closed : Bool) : W :=
  let mine := w.dev.ctxq.filter fun p => w.msgChan p = some chid
  let w := { w with dev := { w.dev with ctxq := w.dev.ctxq.filter fun p => w.msgChan p ≠ some chid } }
  mine.foldl (fun (w : W) (p : CtxWait) =>
    match w.qp p.qp with
    | none => w
    | some x => w.crpAct p.qp x (Msg.parse p.bytes) (if closed then none else w.chan chid) (some p)) w

/-- Load a missing block: LRU replacement, the owner check of R29, and the waiting messages served (R30); nothing is taken after a power failure
(R86). -/
def W.ctxLoad (w : W) (chid : Nat) : W :=
  if (w.chan chid).isSome || w.dev.jour.frozen || !(w.dev.ctxq.any fun p => w.msgChan p = some chid) then w
  else match w.ctxRead chid with
    | none => (w.ctxBad chid).ctxServe chid true
    | some b =>
      let x := (Chan.parse b).fix
      match w.ctxRoom x.prio with
      | none => w
      | some w => (w.ctxPut chid x).ctxServe chid false

/-- CONTEXT_LOAD. -/
def execContextLoad (chid : Nat) (s : State) : Host.Outcome State Fault Refusal := lift (fun w => w.ctxLoad chid) s

/-- A retry of a channel whose block still has no room: each counts in NOCTX of the world (R30, R166). -/
def W.noctxRetry (w : W) (chid : Nat) : W :=
  if (w.chan chid).isSome then w
  else match w.dev.ctxq.find? fun p => w.msgChan p = some chid with
    | none => w
    | some p =>
      let w := match w.qp p.qp with | some x => w.worldCnt x.world 2 | none => w
      w.ctxLoad chid

/-- NOCTX_RETRY. -/
def execNoctxRetry (chid : Nat) (s : State) : Host.Outcome State Fault Refusal := lift (fun w => w.noctxRetry chid) s

/-- CRP_HELLO: a HELLO reaches queue pair `q` (port × 2^24 + number). -/
def execCrpHello (q : Nat) (bytes : List Byte) (s : State) : Host.Outcome State Fault Refusal := lift (fun w => w.crpRow 0x01 q bytes) s

/-- CRP_SUBMIT. -/
def execCrpSubmit (q : Nat) (bytes : List Byte) (s : State) : Host.Outcome State Fault Refusal := lift (fun w => w.crpRow 0x10 q bytes) s

/-- CRP_CACK. -/
def execCrpCack (q : Nat) (bytes : List Byte) (s : State) : Host.Outcome State Fault Refusal := lift (fun w => w.crpRow 0x13 q bytes) s

/-- CRP_PING. -/
def execCrpPing (q : Nat) (bytes : List Byte) (s : State) : Host.Outcome State Fault Refusal := lift (fun w => w.crpRow 0x20 q bytes) s

/-- CRP_PONG. -/
def execCrpPong (q : Nat) (bytes : List Byte) (s : State) : Host.Outcome State Fault Refusal := lift (fun w => w.crpRow 0x21 q bytes) s

/-- PING: IDLE ms have passed without a message on a connection of version 2 or 3 whose channel holds something, and since the PING before (R75). -/
def W.keepalive (w : W) (q : Nat) : W :=
  match w.qp q with
  | none => w
  | some x =>
    match x.chid with
    | none => w
    | some c =>
      if x.state = 3 && decide (2 ≤ x.ver) && decide (w.get F.CHN_KACTL_IDLE ≠ 0) &&
          decide (max x.lastAt x.pingAt + w.get F.CHN_KACTL_IDLE * 1000000 ≤ w.now) &&
          Tab.exists? w.dev.txns (fun _ t => decide (t.chid = c) && !t.gone && t.load.isNone) then
        (w.modQp q fun x => { x with misses := x.misses + 1, pingAt := w.now }).crpSend q 0x20 24 c 0 (beBytes 8 w.now)
      else w

/-- KEEPALIVE_IDLE. -/
def execKeepaliveIdle (q : Nat) (s : State) : Host.Outcome State Fault Refusal := lift (fun w => w.keepalive q) s

/-- KEEPALIVE_MISS: MISS consecutive PINGs have gone unanswered, the last for IDLE ms: the queue pair is lost (R75, R77). -/
def execKeepaliveMiss (q : Nat) (s : State) : Host.Outcome State Fault Refusal :=
  lift (fun w => match w.qp q with
    | some x =>
      if x.up ∧ w.get F.CHN_KACTL_MISS ≤ x.misses ∧ x.pingAt + w.get F.CHN_KACTL_IDLE * 1000000 ≤ w.now then w.qpLost q else w
    | none => w) s

/-! ### Tokens (R37, R164) -/

/-- One refill of a bucket. -/
def WorldRec.refill (r : WorldRec) : WorldRec :=
  if r.depth = 0 then r
  else
    let f := r.frac + r.rate
    let n := f / 256
    let lost := r.tokens + n - r.depth
    { r with frac := f % 256, tokens := min r.depth (r.tokens + n), refilled := r.refilled + n, capped := r.capped + lost }

/-- Once every µs of the timebase: refill every bucket, and charge the transactions that wait for tokens in order of arrival. -/
def W.refill (w : W) : W :=
  if w.now / 1000 = w.dev.refillAt then w
  else
    let w := { w with dev := { w.dev with refillAt := w.now / 1000, worlds := Tab.mapVal w.dev.worlds fun _ r => r.refill } }
    (w.dev.txns.keysWhere fun _ t => decide (t.wait = .tokens)).foldl (fun (w : W) (i : Nat) => w.charge i) w

/-- TOKEN_REFILL. -/
def execTokenRefill (s : State) : Host.Outcome State Fault Refusal := lift W.refill s

/-! ### Engines (R26, R39) -/

/-- In-service channel engines by physical index, in logical order (R344). -/
def W.engines (w : W) : List Nat :=
  (List.range (w.xm 64 32)).filterMap fun l => if w.flag F.CHN_ENGMAP_VALID l then some (w.get F.CHN_ENGMAP_PHYS l) else none

/-- Transactions that an engine holds (R26). -/
def W.engHeld (w : W) (e : Nat) : Nat := (w.dev.txns.filter fun p => p.2.engine = some e).length

/-- Runnable transactions of an engine, by number. -/
def W.runnable (w : W) (e : Nat) : List (Nat × Txn) :=
  w.dev.txns.filter fun p => p.2.engine = some e && p.2.wait = .none && p.2.flying && p.2.status.isNone && p.2.load.isNone

/-- The transaction that an engine runs: priority 0 first, then 1 to 3 in turns; one command is one turn (R39, assumption 40). Within a priority the
lowest transaction number goes first: the spec gives no order (DESIGN CHOICE, assumption 100). -/
def W.enginePick (w : W) (e : Nat) : Option (Nat × Wrr) :=
  let l := w.runnable e
  match w.wrr (Tab.getD w.dev.wrr e {}) fun p => l.any fun x => x.2.prio = p with
  | none => none
  | some (p, r) => (l.find? fun x => x.2.prio = p).map fun x => (x.1, r)

/-- The engine of R39 for a transaction of a priority. -/
def W.chooseEngine (w : W) (prio : Nat) : Option Nat :=
  let es := w.engines.filter fun e => decide (w.engHeld e < 128)
  if prio = 0 then
    match es.find? fun e => (w.runnable e).isEmpty with
    | some e => some e
    | none =>
      let pr (e : Nat) : Nat := match w.enginePick e with | some (i, _) => (match w.txn i with | some t => t.prio | none => 0) | none => 0
      match es with
      | [] => none
      | e :: t => some (t.foldl (fun (m x : Nat) => if pr m < pr x then x else m) e)
  else
    let n (e : Nat) : Nat := (w.runnable e).length
    match es with
    | [] => none
    | e :: t => some (t.foldl (fun (m x : Nat) => if n x < n m then x else m) e)

/-- Admission is stopped: the subsystem is not ready, a power failure, Standby, a segment being returned, or the channel's shared
namespace gated (R13, R86, R329, R330, R335). -/
def W.admits (w : W) (t : Txn) : Bool :=
  nbit (w.get F.SYS_READY_SUBSYS) 4 && !w.dev.jour.frozen && !w.shut && decide (w.cur ≠ mSTANDBY) &&
  decide (w.dev.plk.returning ≠ some (w.chSeg t.chid)) && !(t.replayed && !w.dev.plk.preempts.isEmpty) &&
  (match w.chan t.chid with | some c => !w.isShared c.tgtPort c.nsid || w.gateShared | none => false)

/-- Assign a QUEUED transaction that has its tokens, in arrival order within its priority: ADMITTED, or back to where its record
stands (R28, R39, R78, R90). -/
def W.assign (w : W) (i : Nat) : W :=
  match w.txn i with
  | none => w
  | some t =>
    let ahead := Tab.exists? w.dev.txns fun j u => decide (u.wait = .engine) && decide (u.st = .queued) && w.admits u &&
      (decide (u.prio < t.prio) || (decide (u.prio = t.prio) && decide (j < i)))
    if t.st ≠ .queued || t.wait ≠ .engine || ahead || !w.admits t then w
    else match w.chooseEngine t.prio with
      | none => w
      | some e =>
        (w.engWake e t.world).modTxn i fun t => { t with
          engine := some e, wait := .none, st := if t.replayed then .accepted else if t.slots.isEmpty then .admitted else .intent }

/-- ENGINE_ASSIGN: transaction `t`. -/
def execEngineAssign (t : Nat) (s : State) : Host.Outcome State Fault Refusal := lift (fun w => w.assign t) s

end Sys2Proof.Machine
end

