-- ==== Sys2Proof/Machine/Aes.lean ====
section
/-! DEFINITION. AES (FIPS 197) and the modes and derivations of R113, R116, R130 and R131: CTR, GCM (SP 800-38D), XTS (IEEE 1619),
CMAC (SP 800-38B) and the SP 800-108 counter mode. -/

namespace Sys2Proof

/-! ### The block cipher -/

/-- Twice a byte in the field of AES. -/
def gfDbl (a : Nat) : Nat := if a < 128 then 2 * a else Nat.xor (2 * a) 0x11B

/-- Product of two bytes in the field of AES, by the low `n` bits of the first. -/
def gfMulN : Nat → Nat → Nat → Nat
  | 0, _, _ => 0
  | n + 1, a, b => Nat.xor (if a % 2 = 1 then b else 0) (gfMulN n (a / 2) (gfDbl b))

/-- Product of two bytes. -/
def gfMul (a b : Nat) : Nat := gfMulN 8 a b

/-- The S-box: the inverse in the field, then the affine map. -/
def sboxAt (x : Nat) : Nat :=
  let x2 := gfMul x x
  let x4 := gfMul x2 x2
  let x8 := gfMul x4 x4
  let x16 := gfMul x8 x8
  let x32 := gfMul x16 x16
  let x64 := gfMul x32 x32
  let x128 := gfMul x64 x64
  let i := gfMul (gfMul (gfMul x2 x4) (gfMul x8 x16)) (gfMul (gfMul x32 x64) x128)
  let rot (n : Nat) := (i * 2 ^ n) % 256 + i / 2 ^ (8 - n)
  Nat.xor (Nat.xor (Nat.xor i (rot 1)) (Nat.xor (rot 2) (rot 3))) (Nat.xor (rot 4) 0x63)

/-- The S-box as a table. -/
def aesSbox : Array Nat := ((List.range 256).map sboxAt).toArray
/-- The inverse S-box as a table. -/
def aesInv : Array Nat := ((List.range 256).map fun y => ((List.range 256).find? fun x => aesSbox.getD x 0 = y).getD 0).toArray

/-- XOR of two byte strings. -/
def xorAll (a b : List Nat) : List Nat := List.zipWith Nat.xor a b

/-- The round keys of a key of 16 or 32 bytes, word by word (FIPS 197 5.2). -/
def aesKeys (key : List Nat) : List (List Nat) :=
  let nk := key.length / 4
  let first := (List.range nk).map fun i => (key.drop (4 * i)).take 4
  let step (a : List (List Nat) × Nat) (i : Nat) : List (List Nat) × Nat :=
    let i := i + nk
    let t := a.1.headD []
    let sub (t : List Nat) := t.map fun b => aesSbox.getD b 0
    let (t, rc) :=
      if i % nk = 0 then (xorAll (sub (t.drop 1 ++ t.take 1)) [a.2, 0, 0, 0], gfDbl a.2)
      else if 6 < nk ∧ i % nk = 4 then (sub t, a.2)
      else (t, a.2)
    (xorAll (a.1.getD (nk - 1) []) t :: a.1, rc)
  ((List.range (4 * (nk + 7) - nk)).foldl step (first.reverse, 1)).1.reverse

/-- The round key of a round. -/
def roundKey (ks : List (List Nat)) (r : Nat) : List Nat := ((ks.drop (4 * r)).take 4).flatten

/-- Rows shifted left by their number, or right by it. -/
def shiftRows (s : List Nat) (back : Bool) : List Nat :=
  (List.range 16).map fun i => let c := i / 4; let r := i % 4; s.getD (4 * ((if back then c + 4 - r else c + r) % 4) + r) 0

/-- Columns multiplied by a fixed row of coefficients. -/
def mixColumns (m : List Nat) (s : List Nat) : List Nat :=
  (List.range 16).map fun i =>
    let c := i / 4
    let r := i % 4
    (List.range 4).foldl (fun x k => Nat.xor x (gfMul (m.getD ((k + 4 - r) % 4) 0) (s.getD (4 * c + k) 0))) 0

/-- AES encipherment of a block with a key of 16 or 32 bytes. -/
def aesEnc (key blk : List Nat) : List Nat :=
  let ks := aesKeys key
  let nr := key.length / 4 + 6
  let s := xorAll blk (roundKey ks 0)
  let s := (List.range (nr - 1)).foldl (fun s r =>
    xorAll (mixColumns [2, 3, 1, 1] (shiftRows (s.map fun b => aesSbox.getD b 0) false)) (roundKey ks (r + 1))) s
  xorAll (shiftRows (s.map fun b => aesSbox.getD b 0) false) (roundKey ks nr)

/-- AES decipherment. -/
def aesDec (key blk : List Nat) : List Nat :=
  let ks := aesKeys key
  let nr := key.length / 4 + 6
  let s := (shiftRows (xorAll blk (roundKey ks nr)) true).map fun b => aesInv.getD b 0
  let s := (List.range (nr - 1)).foldl (fun s r =>
    (shiftRows (mixColumns [14, 11, 13, 9] (xorAll s (roundKey ks (nr - 1 - r)))) true).map fun b => aesInv.getD b 0) s
  xorAll s (roundKey ks 0)

/-- The bytes of a number, most significant first. -/
def natBytes (n v : Nat) : List Nat := (beBytes n v).map BitVec.toNat
/-- The number of bytes, most significant first. -/
def bytesNat (l : List Nat) : Nat := l.foldl (fun n b => n * 256 + b) 0

/-- AES on 128-bit numbers, most significant byte first; the key has `klen` bytes. -/
def aesNat (klen key blk : Nat) : Nat := bytesNat (aesEnc (natBytes klen key) (natBytes 16 blk))

/-! ### CMAC, derivation and fingerprint (R130, R131) -/

/-- Doubling in the field of CMAC. -/
def cmacDbl (x : Nat) : Nat := if x < 2 ^ 127 then 2 * x else Nat.xor (2 * x % 2 ^ 128) 0x87

/-- AES-256-CMAC of a message of up to 32 bytes or more, as a 128-bit number. -/
def cmac (key : Nat) (msg : List Nat) : Nat :=
  let k1 := cmacDbl (aesNat 32 key 0)
  let n := max 1 (ceilDiv msg.length 16)
  let full := msg.length = 16 * n
  let msg := if full then msg else msg ++ 0x80 :: List.replicate (16 * n - msg.length - 1) 0
  (List.range n).foldl (fun x i =>
    let b := bytesNat ((msg.drop (16 * i)).take 16)
    let b := if i + 1 = n then Nat.xor b (if full then k1 else cmacDbl k1) else b
    aesNat 32 key (Nat.xor x b)) 0

/-- Key length in bits of a mode (R113). -/
def modeBits (mode : Nat) : Nat := match mode with | 1 => 128 | 2 => 256 | 3 => 128 | 4 => 256 | 5 => 256 | 6 => 512 | _ => 0

/-- The fixed input of round `i` of a derivation: 25 bytes (R130). -/
def deriveInput (i label mode : Nat) : List Nat :=
  [i, 0x48, 0x4B, 0x37, 0x4B, 0] ++ natBytes 16 label ++ [mode] ++ natBytes 2 (modeBits mode)

/-- The key of a label and mode: K(1) supplies the most significant bits (R130). -/
def deriveKey (root label mode : Nat) : Nat :=
  (upto 1 (modeBits mode / 128)).foldl (fun k i => k * 2 ^ 128 + cmac root (deriveInput i label mode)) 0

/-- ROOTID of a root key: the first 32 bits of the CMAC of its text (R131). -/
def rootId (root : Nat) : Nat := cmac root ([0x52, 0x4F, 0x4F, 0x54] ++ List.replicate 12 0) / 2 ^ 96

/-! ### CTR and GCM (R116) -/

/-- The 128-bit block `i` of a byte string, its missing bytes zero. -/
def blockAt (bs : List Byte) (i : Nat) : Nat := ofBE (((bs.drop (16 * i)).take 16 ++ zeros 16).take 16)

/-- Counter mode from the counter block `iv` ‖ [c]₃₂: the low 32 bits count up by block. -/
def ctrMode (klen key iv c : Nat) (bs : List Byte) : List Byte :=
  ((List.range (ceilDiv bs.length 16)).flatMap fun i =>
    beBytes 16 (Nat.xor (blockAt bs i) (aesNat klen key (iv * 2 ^ 32 + (c + i) % 2 ^ 32)))).take bs.length

/-- Product in the field of GHASH, over the `n` most significant bits of `x` that are left. -/
def ghashMul : Nat → Nat → Nat → Nat → Nat
  | 0, _, _, z => z
  | n + 1, x, v, z =>
    ghashMul n x (if v % 2 = 1 then Nat.xor (v / 2) (0xE1 * 2 ^ 120) else v / 2) (if x.testBit n then Nat.xor z v else z)

/-- GHASH over the blocks of a byte string. -/
def ghash (h x : Nat) (bs : List Byte) : Nat := (List.range (ceilDiv bs.length 16)).foldl (fun x i => ghashMul 128 (Nat.xor x (blockAt bs i)) h 0) x

/-- The GCM tag for a 96-bit IV (R116). -/
def gcmTag (klen key iv : Nat) (aad ct : List Byte) : Nat :=
  let h := aesNat klen key 0
  let x := ghash h (ghash h 0 aad) ct
  let x := ghashMul 128 (Nat.xor x (8 * aad.length * 2 ^ 64 + 8 * ct.length)) h 0
  Nat.xor x (aesNat klen key (iv * 2 ^ 32 + 1))

/-! ### XTS (R116) -/

/-- The tweak of the next block: a 128-bit little-endian number doubled. -/
def xtsNext (t : Nat) : Nat := cmacDbl t

/-- One data unit of whole blocks: its tweak is the LBA as a 128-bit little-endian number. -/
def xtsUnit (klen key lba : Nat) (dec : Bool) (bs : List Byte) : List Byte :=
  let dk := natBytes klen (key / 2 ^ (8 * klen))
  let tk := natBytes klen (key % 2 ^ (8 * klen))
  let t0 := bytesNat (aesEnc tk ((leBytes 16 lba).map BitVec.toNat)).reverse
  ((List.range (bs.length / 16)).foldl (fun (a : Nat × List (List Byte)) i =>
    let t := (leBytes 16 a.1).map BitVec.toNat
    let b := ((bs.drop (16 * i)).take 16).map BitVec.toNat
    let c := if dec then aesDec dk (xorAll b t) else aesEnc dk (xorAll b t)
    (xtsNext a.1, ((xorAll c t).map fun x => BitVec.ofNat 8 x) :: a.2)) (t0, [])).2.reverse.flatten

/-- Whole LBAs, one data unit each. -/
def xtsMode (klen key lba size : Nat) (dec : Bool) (bs : List Byte) : List Byte :=
  (List.range (bs.length / size)).flatMap fun u => xtsUnit klen key (lba + u) dec ((bs.drop (u * size)).take size)

/-! ### The modes of R113 -/

/-- Encipher (or decipher, `dec`) with a mode, key and IV; for XTS from an absolute LBA on, in data units of `size` bytes (R116). -/
def cipherMode (mode key iv lba size : Nat) (dec : Bool) (bs : List Byte) : List Byte :=
  match mode with
  | 1 => ctrMode 16 key iv 2 bs
  | 2 => ctrMode 32 key iv 2 bs
  | 3 => ctrMode 16 key iv 1 bs
  | 4 => ctrMode 32 key iv 1 bs
  | 5 => xtsMode 16 key lba size dec bs
  | 6 => xtsMode 32 key lba size dec bs
  | _ => bs

end Sys2Proof
end

