-- ==== Sys2Proof/Machine/Keys.lean ====
section
/-! DEFINITION. The epoch table, the key cache and the key derivation unit's answers (R129 to R139). -/

namespace Sys2Proof.Machine

open Sys2Proof

/-- Change the cipher block. -/
def W.modCip (w : W) (f : CipSt → CipSt) : W := { w with dev := { w.dev with cip := f w.dev.cip } }

/-- An epoch table entry (R134). -/
structure Epoch where
  /-- TROLL. -/
  troll : Nat := 0
  /-- TGRACE. -/
  tgrace : Nat := 0
  /-- SCUR. -/
  scur : Nat := 0
  /-- SMIN. -/
  smin : Nat := 0
  /-- TCUR. -/
  tcur : Nat := 0
  /-- REVOKED. -/
  revoked : Bool := false
  /-- INIT. -/
  init : Bool := false
  deriving DecidableEq, Repr

/-- Whole seconds of the timebase. -/
def W.secs (w : W) : Nat := w.now / 1000000000

/-- Address of a world's entry (R134). -/
def W.epAddr (w : W) (world : Nat) : Nat := w.base F.KDF_EPBASE_BASE + world * 16

/-- The key derivation unit as an agent (R182, R346). -/
def kdWho : Who := cirqueWho (source 8 25)

/-- Read an entry; one that the owner check keeps from the unit reads as not initialised. -/
def W.epRead (w : W) (world : Nat) : Epoch :=
  if w.rangeOk kdWho .rd (w.epAddr world) 16 then
    let v := w.le (w.epAddr world) 16
    ⟨nbits v 31 0, nbits v 63 32, nbits v 79 64, nbits v 95 80, nbits v 111 96, nbit v 112, nbit v 113⟩
  else {}

/-- Write an entry (R134). -/
def W.epWrite (w : W) (world : Nat) (e : Epoch) : W :=
  match w.storeAs kdWho (w.epAddr world)
      (leBytes 4 e.troll ++ leBytes 4 e.tgrace ++ leBytes 2 e.scur ++ leBytes 2 e.smin ++ leBytes 2 e.tcur ++ [BitVec.ofNat 8 (b2n e.revoked + 2 * b2n e.init), 0]) with
  | some w => w
  | none => w.ownRefuse kdWho (w.epAddr world)

/-- Bring an entry up to date (R135). -/
def Epoch.roll (e : Epoch) (now period grace : Nat) : Epoch :=
  if period ≠ 0 ∧ e.troll ≤ now then
    let n := (now - e.troll) / period + 1
    { e with tcur := (e.tcur + n) % 65536, tgrace := (e.troll + (n - 1) * period + grace) % 2 ^ 32, troll := (e.troll + n * period) % 2 ^ 32 }
  else e

/-- Use an entry: brought up to date first (R135). -/
def W.epUse (w : W) (world : Nat) : Epoch × W :=
  let e := w.epRead world
  let e' := e.roll w.secs (w.get F.KDF_PURPCTL_PERIOD 1) (w.get F.KDF_PURPCTL_GRACE 1)
  (e', if e' = e then w else w.epWrite world e')

/-- The epoch that SEAL uses (R135). -/
def Epoch.current (e : Epoch) (purpose : Nat) : Nat := if purpose = 1 then e.scur else if purpose = 2 then e.tcur else 0

/-- Whether an epoch is valid for a purpose (R135). -/
def Epoch.valid (e : Epoch) (purpose epoch now : Nat) : Bool :=
  if purpose = 1 then decide (e.smin ≤ epoch) && decide (epoch ≤ e.scur)
  else if purpose = 2 then decide (epoch = e.tcur) || (decide (epoch = (e.tcur + 65535) % 65536) && decide (now < e.tgrace))
  else decide (epoch = 0)

/-- KEPOCH of a new record: the current epoch of the channel's purpose when its program seals or unseals, else 0 (R80, R129). -/
def W.kepochFor (w : W) (c : Chan) : Nat × W :=
  if (w.progOps c).any fun o => o = 9 || o = 10 then
    let (e, w) := w.epUse c.world
    (e.current (nbits c.cipprof 15 8), w)
  else (0, w)

/-! ### Labels and the cache (R129, R132) -/

/-- The label of a key (R129). -/
def keyLabel (profile world epoch : Nat) : Nat :=
  nbits profile 15 8 * 2 ^ 120 + world * 2 ^ 104 + epoch * 2 ^ 88 + nbits profile 23 16 * 2 ^ 80 + nbits profile 103 24

/-- World of a label. -/
def labelWorld (l : Nat) : Nat := nbits l 119 104

/-- The key cache set of a label and mode (R132). -/
def keySet (label mode : Nat) : Nat :=
  let x := Nat.xor (nbits label 127 64) (nbits label 63 0)
  let x := Nat.xor (nbits x 63 32) (nbits x 31 0)
  Nat.xor (Nat.xor (nbits x 31 16) (nbits x 15 0)) mode % 2048

/-- The entry of the cache that holds a label and mode. -/
def CipSt.look (c : CipSt) (label mode : Nat) : Option (Nat × KeyEntry) :=
  (List.range 8).findSome? fun k =>
    let i := keySet label mode * 8 + k
    match Tab.find? c.cache i with
    | some e => if e.label = label ∧ e.mode = mode then some (i, e) else none
    | none => none

/-- A hit sets the entry's bit (R132). -/
def CipSt.mark (c : CipSt) (i : Nat) : CipSt := { c with cache := Tab.modify c.cache i fun e => { e with used := true } }

/-- An uncorrectable ECC error invalidates the entry that a lookup finds (R132). -/
def CipSt.drop (c : CipSt) (i : Nat) : CipSt := { c with cache := Tab.del c.cache i }

/-- Insert an entry with its bit set; when every bit of its set would be 1 the other seven are cleared first (R132). -/
def CipSt.use (c : CipSt) (i : Nat) (e : KeyEntry) : CipSt :=
  let s := i / 8 * 8
  let full := (List.range 8).all fun k => s + k = i || (match Tab.find? c.cache (s + k) with | some x => x.used | none => false)
  let t := if full then (List.range 8).foldl (fun t k => Tab.modify t (s + k) fun x => { x with used := false }) c.cache else c.cache
  { c with cache := Tab.put t i { e with used := true } }

/-- Insert a key: the lowest invalid way, else the lowest whose bit is 0, else, with every bit at 1, the first once they are cleared (R132). -/
def CipSt.insert (c : CipSt) (label mode key : Nat) : CipSt :=
  let s := keySet label mode * 8
  let e : KeyEntry := { label := label, mode := mode, key := key, used := true }
  match c.look label mode with
  | some (i, _) => c.use i e
  | none =>
    let ways := (List.range 8).map (s + ·)
    match ways.find? fun i => match Tab.find? c.cache i with | some x => !x.valid | none => true with
    | some i => c.use i e
    | none => match ways.find? fun i => match Tab.find? c.cache i with | some x => !x.used | none => false with
      | some i => c.use i e
      | none => c.use s e

/-- The Rime core derives in place of the unit: one key at a time, ahead of cipher jobs (R128). -/
def W.rimeDerives (w : W) : Bool := !(w.unitOf (source 8 25)).svc && (w.unitOf (source 8 24)).svc && !w.dev.cip.derivs.isEmpty

/-- Whether the key derivation unit, or the Rime core in its place, can derive (R128). -/
def W.canDerive (w : W) : Bool := (w.unitOf (source 8 25)).svc || (w.unitOf (source 8 24)).svc

/-- Why a key is refused: the subcode of R125, 0 for none (R133). -/
def W.keyRefusal (w : W) (e : Epoch) (world purpose epoch : Nat) (label mode : Nat) : Nat :=
  if !w.flag F.KDF_CTL_EN then 9
  else if !(purpose = 1 || purpose = 2 || (purpose = 0x80 && world = 0)) then 8
  else if !e.init then 7
  else if e.revoked || w.dev.cip.revoked.contains world || (match w.dev.cip.look label mode with | some p => !p.2.valid | none => false) then 4
  else if !e.valid purpose epoch w.secs then 3
  else 0

/-! ### Commands of the key derivation unit (R137, R139) -/

/-- ACTIVATE. -/
def W.kdfActivate (w : W) (world epoch : Nat) : Option W :=
  let (e, w) := w.epUse world
  if !e.init || (e.revoked && decide (e.scur < epoch) && decide (e.tcur < epoch)) then
    let p := w.get F.KDF_PURPCTL_PERIOD 1
    let e : Epoch := { troll := if p = 0 then 0 else (w.secs / p + 1) * p % 2 ^ 32, tgrace := w.secs % 2 ^ 32, scur := epoch, smin := epoch, tcur := epoch, revoked := false, init := true }
    some ((w.epWrite world e).modCip fun c => { c with revoked := c.revoked.filter fun x => x ≠ world })
  else none

/-- ROLL. -/
def W.kdfRoll (w : W) (world purp : Nat) : Option W :=
  let (e, w) := w.epUse world
  if !e.init || e.revoked then none
  else if purp = 1 then (if e.scur = 0xFFFF then none else some (w.epWrite world { e with scur := e.scur + 1 }))
  else if purp = 2 then some (w.epWrite world { e with tcur := (e.tcur + 1) % 65536, tgrace := (w.secs + w.get F.KDF_PURPCTL_GRACE 1) % 2 ^ 32 })
  else none

/-- RETIRE. -/
def W.kdfRetire (w : W) (world purp epoch : Nat) : Option W :=
  let (e, w) := w.epUse world
  if !e.init || e.revoked || purp ≠ 1 || epoch ≤ e.smin || e.scur < epoch then none
  else some (w.epWrite world { e with smin := epoch })

/-- FLUSH. -/
def W.kdfFlush (w : W) (world : Nat) : W := w.modCip fun c => { c with cache := c.cache.keep fun _ e => labelWorld e.label ≠ world }

end Sys2Proof.Machine
end

