-- ==== Sys2Proof/Machine/Program.lean ====
section
/-! DEFINITION. The commands of a channel program, its deadlines, and the allocator's decisions
(R15, R16, R26 to R28, R39 to R54, R80 to R84, R91). -/

namespace Sys2Proof.Machine

open Sys2Proof

/-- Go on with the next command. -/
def W.next (w : W) (i : Nat) : W := w.modTxn i fun t => { t with idx := t.idx + 1, count := t.count + 1 }

/-- Run command `op` of transaction `i`, if the engine that holds it runs it now and its next command is this one. A command beyond
PROGLEN, one that cannot be read, a reserved opcode and the 65,537th command of a segment are program faults (R41, R43). -/
def W.runCmd (w : W) (op i : Nat) (f : W → Txn → Chan → Cmd → W) : W :=
  match w.txn i with
  | none => w
  | some t =>
    match t.engine, w.chan t.chid with
    | some e, some c =>
      match w.enginePick e with
      | none => w
      | some (j, r) =>
        if j ≠ i then w
        else match (if t.idx < c.proglen then w.cmdAt c.progbase t.idx else none) with
          | none => w.programFault i 0
          | some x =>
            if x.op = 0 || 0x14 < x.op then w.programFault i x.op
            else if x.op ≠ op then w
            else if 65536 ≤ t.count then w.programFault i op
            else
              let w := { w with dev := { w.dev with wrr := Tab.putD {} w.dev.wrr e r } }
              let w := w.event .eng e 0x100 1 t.world
              let w := w.trcEmit (64 + e) t.world 7 0 (leBytes 4 t.chid ++ leBytes 1 t.idx ++ leBytes 1 op)
              f w t c x
    | _, _ => w

/-- ASYNC of a command (R40). -/
def Cmd.async (x : Cmd) : Bool := nbit x.flags 0

/-! ### Buffers -/

/-- RESERVE: 1 to 256 buffers, or those of one segment (R41); a stall that stops the engines' input holds it back (R16). A count above 256 is
a program fault: the spec states none (DESIGN CHOICE, assumption 100). -/
def execReserve (t : Nat) (s : State) : Host.Outcome State Fault Refusal :=
  lift (fun w => if w.stopped t 0 0 then w else w.runCmd 0x01 t fun w x c k =>
    if 256 < k.a then w.programFault t 0x01
    else
      let n := if k.a = 0 then bufsFor c.segSize else k.a
      ((w.next t).modTxn t fun y => y.await .nobuf k.async).askBufs ⟨x.engine.getD 0, x.prio, n, x.world, .reserve t⟩) s

/-- Free every buffer that a transaction holds and no stage or operation does; the commands that were issued stay (R14, R41). -/
def W.releaseTxn (w : W) (i : Nat) : W :=
  match w.txn i with
  | none => w
  | some t =>
    let w := (w.freeBufs t.bufs).modTxn i fun t => { t with bufs := [] }
    t.segs.foldl (fun (w : W) (s : Nat × Seg) =>
      if s.2.busy then w
      else ((w.dropChain i s.1).freeBufs s.2.outChain).modSeg i s.1 fun s => { s with outChain := [], len := 0 }) w

/-- RELEASE. -/
def execRelease (t : Nat) (s : State) : Host.Outcome State Fault Refusal :=
  lift (fun w => w.runCmd 0x14 t fun w _ _ _ => (w.next t).releaseTxn t) s

/-! ### The journal commands (R80 to R84) -/

/-- Slots that a record needs: extensions for the data a record of this write will hold (R80, R82). The data of an INLINE write longer than MIRTHR
stays in its record too, and DIGEST mirrors its digest as well: the spec gives it both (DESIGN CHOICE, assumption 100). -/
def W.slotsFor (w : W) (t : Txn) : Nat :=
  if t.write && decide (t.length ≤ w.get F.CHN_JCTL_MIRTHR) || t.inline.isSome then 1 + ceilDiv (t.length - 3840) 4096 else 1

/-- The INTENT record is in its slots: mirror it, or write it to the journal namespaces in Degraded mode (R81, R84). -/
def W.sendIntent (w : W) (i : Nat) (async : Bool) : W :=
  match w.txn i with
  | none => w
  | some t =>
    let w := if t.dataFlag then w.writeData t else w
    let w := w.writeHead t 1
    let body := w.recHead t 1 ++ (if t.dataFlag then t.data else [])
    let w := w.mirror t 1 body
    if w.degradedWay && w.dev.plk.resyncSent = false then
      let slots := if t.dataFlag then t.slots else t.slots.take 1
      let w := w.modTxn i fun t => { t.await .flush async with jpend := slots.length }
      w.jnsSlots t (some i) slots
    else w.modTxn i fun t => t.await .ack async

/-- Data fetched before INTENT whose record is not complete yet: it goes into the record behind the INTENT record, and is mirrored (R82). -/
def W.earlyData (w : W) (i : Nat) : W :=
  match w.txn i with
  | some t =>
    if t.write && !t.dataFlag && decide (t.length ≤ w.get F.CHN_JCTL_MIRTHR) && !t.data.isEmpty then (w.writeData t).mirror t 3 (beBytes 4 0 ++ zeros 4 ++ t.data) else w
  | none => w

/-- INTENT: every slot the record will need, or NOSLOT (R80). The data of a short write is in the record as far as it was fetched (R82). A record
that a restart took over, and whose INTENT had not completed, waits for the acknowledgement of its copy again, or in Degraded mode is written to the
namespaces again (R28, R84). -/
def W.intent (w : W) (i : Nat) (async : Bool) : W :=
  match w.txn i with
  | none => w
  | some t =>
    if t.intentOk then w
    else if !t.slots.isEmpty then
      if w.degradedWay then w.sendIntent i async else w.modTxn i fun t => t.await .ack async
    else
      let n := w.slotsFor t
      let ss := w.pickSlots n
      if w.get F.CHN_JCTL_SLOTCAP < w.dev.jslots.length + n || ss.length < n then w.modTxn i fun t => t.await .noslot async
      else
        let w := ({ w with dev := { w.dev with jslots := ss.foldl (fun j s => Tab.put j s t.chid) w.dev.jslots, jsn := (w.dev.jsn + 1) % 2 ^ 64 } }).jstat
        let (kepoch, w) := match w.chan t.chid with | some c => w.kepochFor c | none => (0, w)
        let whole := match w.chan t.chid with
          | some c => t.write && decide (t.length ≤ w.get F.CHN_JCTL_MIRTHR) && decide (t.nsegs c ≤ t.fetchedSegs)
          | none => false
        let w := w.modTxn i fun x => { x with
          kepoch := kepoch, st := .intent, slots := ss, jsn := w.dev.jsn - 1
          dataFlag := x.inline.isSome || whole, data := x.inline.getD x.data }
        (w.sendIntent i async).earlyData i

/-- INTENT; the frozen ring of a power failure takes no record (R86). -/
def execIntent (t : Nat) (s : State) : Host.Outcome State Fault Refusal :=
  lift (fun w => if w.dev.jour.frozen then w else w.runCmd 0x02 t fun w _ _ k => (w.next t).intent t k.async) s

/-- NOSLOT_RETRY: the INTENT is presented again; each retry counts (R51, R166). -/
def execNoslotRetry (t : Nat) (s : State) : Host.Outcome State Fault Refusal :=
  lift (fun w => match w.txn t with
    | some x =>
      if !x.waitsFor .noslot || w.dev.jour.frozen then w
      else ((w.worldCnt x.world 3).modTxn t fun x => x.unwait .noslot).intent t (x.wait ≠ .noslot)
    | none => w) s

/-- The partner has acknowledged a record, or its flush has completed: INTENT ends (R43, R81, R84). -/
def W.intentDone (w : W) (i : Nat) : W :=
  (w.modTxn i fun t => if t.slots.isEmpty || t.intentOk then t else { (t.unwait .ack).unwait .flush with intentOk := true }).ioDone i

/-- SEQHI and WINMAP after number `s` is accepted (R70). -/
def Chan.accept (c : Chan) (s : Nat) : Chan :=
  let clear (m : Nat) (n : Nat) : Nat := if nbit m (n % 1024) then m - 2 ^ (n % 1024) else m
  let m := if c.seqhi < s then (if 1024 ≤ s - c.seqhi then 0 else (upto (c.seqhi + 1) (s - c.seqhi)).foldl clear c.winmap) else c.winmap
  { c with seqhi := max c.seqhi s, winmap := if nbit m (s % 1024) then m else m + 2 ^ (s % 1024) }

/-- ACCEPT: only after INTENT has completed; never after a power failure (R43, R70, R81, R86). -/
def execAccept (t : Nat) (s : State) : Host.Outcome State Fault Refusal :=
  lift (fun w => w.runCmd 0x03 t fun w x _ _ =>
    if x.acceptSent then w.next t
    else if !x.intentOk then w.programFault t 0x03
    else if w.dev.jour.frozen then w
    else
      let w := w.modChan x.chid fun c => c.accept x.seq
      let w := (w.next t).modTxn t fun x => { x with st := .accepted, acceptSent := true, tsacc := w.now }
      w.sendAccept { x with tsacc := w.now } false) s

/-- DIGEST: a write above the mirror threshold waits for its FETCHes, and its digest is mirrored (R41, R82, R83, R90). -/
def W.digest (w : W) (i : Nat) (async : Bool) : W :=
  match w.txn i with
  | none => w
  | some t =>
    match w.chan t.chid with
    | none => w
    | some c =>
      if !t.write || t.length ≤ w.get F.CHN_JCTL_MIRTHR then w.next i
      else if t.fetchedSegs < t.nsegs c then (w.next i).modTxn i fun t => t.await .fetches async
      else (w.next i).digestGo i

/-- DIGEST. -/
def execDigest (t : Nat) (s : State) : Host.Outcome State Fault Refusal := lift (fun w => w.runCmd 0x0D t fun w _ _ k => w.digest t k.async) s

/-- COMMIT: only after ACCEPT; decides OK (R43, R78). -/
def execCommit (t : Nat) (s : State) : Host.Outcome State Fault Refusal :=
  lift (fun w => w.runCmd 0x0F t fun w x _ _ => if x.acceptSent then (w.next t).outcome t 0 else w.programFault t 0x0F) s

/-! ### Data commands (R40, R41) -/

/-- FETCH. -/
def execFetch (t : Nat) (s : State) : Host.Outcome State Fault Refusal :=
  lift (fun w => w.runCmd 0x04 t fun w _ _ k => (w.next t).issueOp t .fetch k.async) s

/-- DELIVER: only after ACCEPT (R43). -/
def execDeliver (t : Nat) (s : State) : Host.Outcome State Fault Refusal :=
  lift (fun w => w.runCmd 0x05 t fun w x _ k => if x.acceptSent then (w.next t).issueOp t .deliver k.async else w.programFault t 0x05) s

/-- KERNEL: the attachment word, the kernel's state and its world are checked (R144). -/
def execKernel (t : Nat) (s : State) : Host.Outcome State Fault Refusal :=
  lift (fun w => w.runCmd 0x06 t fun w x c k =>
    let word := c.kernel.getD k.a 0
    let kid := nbits word 63 52
    let st := w.kstate kid
    if attBad word || st = 0 || 4 ≤ st || decide (w.kworld kid ≠ x.world) then w.programFault t 0x06
    else (w.next t).issueOp t (.kernel k.a k.c) k.async) s

/-- COMPRESS. -/
def execCompress (t : Nat) (s : State) : Host.Outcome State Fault Refusal :=
  lift (fun w => w.runCmd 0x07 t fun w _ c k =>
    if profBad (c.cmpprof.getD k.a 0) true then w.programFault t 0x07 else (w.next t).issueOp t (.compress k.a) k.async) s

/-- INFLATE. -/
def execInflate (t : Nat) (s : State) : Host.Outcome State Fault Refusal :=
  lift (fun w => w.runCmd 0x08 t fun w _ c k =>
    if profBad (c.cmpprof.getD k.a 0) false then w.programFault t 0x08 else (w.next t).issueOp t (.inflate k.a) k.async) s

/-- SEAL: mode, purpose and LBA size are checked (R113, R114). -/
def execSeal (t : Nat) (s : State) : Host.Outcome State Fault Refusal :=
  lift (fun w => w.runCmd 0x09 t fun w _ c k =>
    if cipOk c.cipprof c.lbaShift then (w.next t).issueOp t .seal k.async else w.programFault t 0x09) s

/-- UNSEAL. -/
def execUnseal (t : Nat) (s : State) : Host.Outcome State Fault Refusal :=
  lift (fun w => w.runCmd 0x0A t fun w _ c k =>
    if cipOk c.cipprof c.lbaShift then (w.next t).issueOp t .unseal k.async else w.programFault t 0x0A) s

/-- STWRITE. -/
def execStwrite (t : Nat) (s : State) : Host.Outcome State Fault Refusal :=
  lift (fun w => w.runCmd 0x0B t fun w _ _ k => (w.next t).issueOp t .stwrite k.async) s

/-- STREAD. -/
def execStread (t : Nat) (s : State) : Host.Outcome State Fault Refusal :=
  lift (fun w => w.runCmd 0x0C t fun w _ _ k => (w.next t).issueOp t (.stread k.b) k.async) s

/-- WAITIO: until every command of the transaction has ended (R41). -/
def execWaitio (t : Nat) (s : State) : Host.Outcome State Fault Refusal :=
  lift (fun w => w.runCmd 0x0E t fun w x _ _ =>
    if x.idle then w.next t else (w.next t).modTxn t fun x => { x with wait := .io, sync := none }) s

/-! ### Control commands (R41) -/

/-- SEGLOOP. -/
def execSegloop (t : Nat) (s : State) : Host.Outcome State Fault Refusal :=
  lift (fun w => w.runCmd 0x10 t fun w x c k =>
    if x.seg + 1 < x.nsegs c then w.modTxn t fun x => { x with seg := x.seg + 1, idx := k.a, count := 0 } else w.next t) s

/-- JUMP. A reserved condition is a program fault: the spec states no effect of one (DESIGN CHOICE, assumption 100). -/
def execJump (t : Nat) (s : State) : Host.Outcome State Fault Refusal :=
  lift (fun w => w.runCmd 0x11 t fun w x c k =>
    let cond := k.b % 16
    if 3 < cond then w.programFault t 0x11
    else
      let hold := cond = 0 || (cond = 1 && x.write) || (cond = 2 && !x.write) || (cond = 3 && decide (x.nsegs c ≤ x.seg + 1))
      if hold then w.modTxn t fun x => { x with idx := k.a, count := x.count + 1 } else w.next t) s

/-- NOTIFY. -/
def execNotify (t : Nat) (s : State) : Host.Outcome State Fault Refusal :=
  lift (fun w => w.runCmd 0x12 t fun w x _ k => (w.next t).irq (.channel x.chid k.b k.c)) s

/-- FAIL: a defined status (R43). -/
def execFail (t : Nat) (s : State) : Host.Outcome State Fault Refusal :=
  lift (fun w => w.runCmd 0x13 t fun w _ _ k => if k.a ≤ 8 then (w.next t).outcome t k.a else w.programFault t 0x13) s

/-! ### Deadlines (R48 to R50) -/

/-- A transaction's deadline fires at the first whole µs at or after it. The channel interrupt of DLNOTIFY carries code 0 and the transaction's
sequence number: the spec names neither (DESIGN CHOICE, assumption 100). -/
def W.expire (w : W) (i : Nat) : W :=
  match w.txn i with
  | none => w
  | some t =>
    if t.deadline = 0 || !t.inWheel || t.status.isSome || w.now < ceilDiv t.deadline 1000 * 1000 then w
    else
      (w.countExpiry t.chid t.world t.seq).outcome i 2

/-- The deadline of a SUBMIT that waits for its context entry, as its request or the DLDEF of its block in the table has it (R48, R50). -/
def W.expireWaiting (w : W) (p : CtxWait) : W :=
  match (w.qp p.qp).bind Qp.chid with
  | none => w
  | some chid =>
    let m := Msg.parse p.bytes
    let rel := if m.be 20 4 ≠ 0 then m.be 20 4 else ((w.chanAny chid).map Chan.dldef).getD 0
    if m.type ≠ 0x10 || rel = 0 || w.now < ceilDiv (p.at_ + rel * 1000) 1000 * 1000 then w else w.endWaiting p 2

/-- DEADLINE_EXPIRY: of a transaction, or of a SUBMIT that waits for its context entry under the number it will have. -/
def execDeadlineExpiry (t : Nat) (s : State) : Host.Outcome State Fault Refusal :=
  lift (fun w => match w.dev.ctxq.find? fun p => p.num = t with | some p => w.expireWaiting p | none => w.expire t) s

/-- DEADLINE_WHEEL_SORT: deadlines within the wheel's 4,096 µs leave the overflow list (R49). -/
def execDeadlineWheelSort (s : State) : Host.Outcome State Fault Refusal :=
  lift (fun w => { w with dev := { w.dev with txns := Tab.mapVal w.dev.txns fun _ t =>
    if t.deadline ≠ 0 ∧ t.deadline / 1000 < w.now / 1000 + 4096 then { t with inWheel := true } else t } }) s

/-- REPLAY_WAIT_EXPIRY: no HELLO within WAIT ms on a channel whose replayed transactions need the client (R91). -/
def execReplayWaitExpiry (chid : Nat) (s : State) : Host.Outcome State Fault Refusal :=
  lift (fun w => match w.chan chid with
    | some c => match c.replayWait with
      | some since =>
        if w.now < since + w.get F.CHN_REPLAYCTL_WAIT * 1000000 then w
        else
          (w.txnsOf chid).foldl (fun (w : W) (i : Nat) => match w.txn i with
            | some t => if t.wait = .client then w.outcome i 7 else w
            | none => w) (w.modChan chid fun c => { c with replayWait := none })
      | none => w
    | none => w) s

/-! ### The allocator (R52 to R54) -/

/-- Refuse a request: NOBUF, with its counts (R54). -/
def W.nobuf (w : W) (r : BufReq) : W :=
  let w := (w.bump F.NEVE_NOBUFCNT_COUNT).worldCnt r.world 1
  let w := if r.idx < 100 then w.event .eng r.idx 0x103 1 r.world else w
  let w := match r.why with
    | .reserve i => match w.txn i with | some t => w.modChan t.chid fun c => c.stat 4 1 | none => w
    | .out i _ => match w.txn i with | some t => w.modChan t.chid fun c => c.stat 4 1 | none => w
    | .ext _ => w.bump F.CMP_EXTNOBUF_COUNT
    | .back _ _ => w
  w.modNeve fun v => { v with refused := v.refused ++ [r] }

/-- Decide one request. -/
def W.decideBuf (w : W) (r : BufReq) : W := if grants r w.neveFree then w.granted r else w.nobuf r

/-- One cycle of the allocator: the first 8 requests in decision order, then pressure spills (R15, R52). -/
def W.neveCycle (w : W) : W :=
  let l := bufSort w.dev.neve.reqs
  let w := w.modNeve fun v => { v with reqs := l.drop 8 }
  ((l.take 8).foldl W.decideBuf w).spillPressure.unstall

/-- NEVE_REQUEST. -/
def execNeveRequest (s : State) : Host.Outcome State Fault Refusal := lift W.neveCycle s

/-- NOBUF_RETRY: the refused request at place `n` is presented again (R54). -/
def execNobufRetry (n : Nat) (s : State) : Host.Outcome State Fault Refusal :=
  lift (fun w => match w.dev.neve.refused[n]? with
    | some r => (w.modNeve fun v => { v with refused := v.refused.eraseIdx n }).askBufs r
    | none => w) s

/-- SPILL_AGE: segment `k` of transaction `t` has waited STALL cycles: its buffers spill (R15). -/
def execSpillAge (t k : Nat) (s : State) : Host.Outcome State Fault Refusal :=
  lift (fun w =>
    let stall := w.get F.NEVE_SPILLCTL_STALL
    match w.spillable.find? fun x => x.2.1 = t ∧ x.2.2 = k with
    | some (since, _, _) =>
      if stall = 0 ∨ (w.now - since) * 5 < stall * 4 then w
      else W.spillAll (match w.txn t with | some x => (x.segOf k).chain.length | none => 0) w t k
    | none => w) s

/-- SPILL_READBACK: before its next stage a spilled chain asks for buffers as requester 127 (R15, R52). -/
def execSpillReadback (t k : Nat) (s : State) : Host.Outcome State Fault Refusal :=
  lift (fun w => match w.txn t with
    | some x =>
      let g := x.segOf k
      if g.spilled.isEmpty || g.ops.isEmpty || (g.running && !g.queued) || w.asking (.back t k) then w
      else w.askBufs ⟨127, x.prio, g.spilled.length, x.world, .back t k⟩
    | none => w) s

/-! ### Engines (R28, R344, R345) -/

/-- The spare engine that takes over: the lowest that passed self-test (R344). -/
def W.spareEngine (w : W) : Option Nat := (List.range 68).find? fun e => (w.unitOf (source 6 e)).spare

/-- An engine leaves service: a spare takes its logical index, or the index is retired; its transactions restart from their
records, or from their start when they have none (R28, R344, R345). -/
def W.engineOut (w : W) (e : Nat) : W :=
  let w := match (List.range 64).find? fun l => w.flag F.CHN_ENGMAP_VALID l && decide (w.get F.CHN_ENGMAP_PHYS l = e) with
    | none => w
    | some l =>
      match w.spareEngine with
      | some p => (w.set F.CHN_ENGMAP_PHYS p l).setUnit (source 6 p) { svc := true }
      | none => w.set F.CHN_ENGMAP_VALID 0 l
  (w.dev.txns.keysWhere fun _ t => t.engine = some e).foldl (fun (w : W) (i : Nat) =>
    match w.txn i with
    | some t => if t.st = .decided || t.load.isSome then (w.modTxn i fun t => { t with engine := none }).engNap t.engine t.world else w.restart i
    | none => w) w

/-- ENGINE_WATCHDOG: physical engine `e` ran 4,096 cycles without a safe point (R28). -/
def execEngineWatchdog (e : Nat) (s : State) : Host.Outcome State Fault Refusal :=
  lift (fun w => if w.engines.contains e then (w.report { cls := 0x18, level := 2, src := source 6 e }).engineOut e else w) s

end Sys2Proof.Machine
end

