-- ==== Sys2Proof/Machine/Storage.lean ====
section
/-! DEFINITION. What the storage answers: NVMe completions and timeouts, reservations of the shared namespaces, and the power-fail
flush (R51, R84 to R87, R331, R332, R407, R465, R486). -/

namespace Sys2Proof.Machine

open Sys2Proof

/-! ### Reservations (R331, R332) -/

/-- Issue a reservation command on PLK.SHNS entry `i`: 1 Register Replace, 2 Register, 3 Acquire, 4 Acquire with Preempt and Abort.
Its data carries the key {SERNO[47:0], CLAIM}. -/
def W.resIssue (w : W) (i step : Nat) : W :=
  let key := leBytes 2 (w.get F.PLK_CLAIM_OWN) ++ leBytes 6 w.fuse.serno
  let w := w.modPlk fun p => { p with resCmds := p.resCmds ++ [(i, step)] }
  w.nvmeIssue (w.get F.PLK_SHNS_PORT i) { kind := 4, nsid := w.get F.PLK_SHNS_NSID i, lba := step, aux := i, data := key }

/-- Register the present claim on every enabled entry, replacing a key that is held; SHARED closes until it has been done (R331). -/
def W.registerAll (w : W) : W :=
  let w := w.modPlk fun p => { p with acquired := [], conflict := false }
  w.shns.foldl (fun (w : W) (i : Nat) => w.resIssue i (if Tab.has w.dev.plk.regd i then 1 else 2)) w

/-- A registration on entry `i` has completed: acquire next, or preempt at a take-over (R331, R332). -/
def W.resRegistered (w : W) (i : Nat) : W :=
  let w := w.modPlk fun p => { p with regd := Tab.put p.regd i (w.get F.PLK_CLAIM_OWN) }
  w.resIssue i (if w.dev.plk.preempts.contains i then 4 else 3)

/-- A reservation command has ended: 0 success, 1 Reservation Conflict, 2 another error. -/
def W.resDone (w : W) (i step st : Nat) : W :=
  let w := w.modPlk fun p => { p with resCmds := p.resCmds.erase (i, step) }
  match step, st with
  | 1, 0 => w.resRegistered i
  | 2, 0 => w.resRegistered i
  | 1, 1 => (w.modPlk fun p => { p with regd := Tab.del p.regd i }).resIssue i 2
  | 3, 0 => w.modPlk fun p => { p with acquired := i :: p.acquired.erase i }
  | 3, 1 => w.modPlk fun p => { p with acquired := i :: p.acquired.erase i }
  | 4, 0 => w.modPlk fun p => { p with acquired := i :: p.acquired.erase i, preempts := p.preempts.erase i }
  | _, _ => w.report { cls := 0x1E, level := 0, src := source 15 (w.get F.PLK_SHNS_PORT i), sub := st, detail := w.get F.PLK_SHNS_NSID i }

/-! ### The power-fail flush (R86, R87) -/

/-- The header block of journal namespace `ix` of `n` (R87). -/
def W.flushHead (w : W) (ix n : Nat) : List Byte :=
  let j := w.dev.jour
  let mine := j.slots.filter fun s => s % n = ix
  let b := leBytes 4 0x4649524E ++ leBytes 1 n ++ leBytes 1 ix ++ zeros 2 ++ leBytes 8 w.fuse.serno ++ leBytes 8 j.fell ++ leBytes 4 mine.length ++
    zeros 4 ++ leBytes 8 j.top
  let b := b ++ zeros (4088 - b.length)
  b ++ leBytes 8 (crc64 b)

/-- The in-use bitmap of journal namespace `ix` of `n`, two blocks (R87). -/
def W.flushMap (w : W) (ix n : Nat) : List Byte :=
  let mine := (w.dev.jour.slots.filter fun s => s % n = ix).map (· / n)
  leBytes 8192 (mine.foldl (fun a j => a + 2 ^ j) 0)

/-- Start the flush: the ring is frozen and every slot in use goes to its place on the namespaces (R86, R87). -/
def W.flushStart (w : W) : W :=
  let ns := w.jns
  let n := ns.length
  let w := w.set F.CHN_JSTAT_FLUSHING 1
  let top := w.dev.txns.foldl (fun (m : Nat) (p : Nat × Txn) => if p.2.slots.isEmpty || p.2.inMirror then m else max m p.2.jsn) 0
  let w := { w with dev := { w.dev with jour := { frozen := true, fell := w.now, top := top, slots := w.dev.jslots.keys, slotWrites := if n = 0 then 0 else w.dev.jslots.length + n, headWrites := none } } }
  let w := w.dev.jour.slots.foldl (fun (w : W) (i : Nat) => w.jnsWrite 5 i none (w.bytes (w.base F.CHN_JBASE_BASE + i * 4096) 4096)) w
  ns.zipIdx.foldl (fun (w : W) (p : Nat × Nat) =>
    w.nvmeIssue (w.get F.CHN_JNS_PORT p.1) { kind := 5, nsid := w.get F.CHN_JNS_NSID p.1, lba := 1, len := 8192, data := w.flushMap p.2 n }) w

/-- All slot writes have completed: the headers are written (R86). -/
def W.flushHeads (w : W) : W :=
  let ns := w.jns
  if !w.flag F.CHN_JSTAT_FLUSHING || w.dev.jour.slotWrites ≠ 0 || w.dev.jour.headWrites.isSome || ns.isEmpty then w
  else
    let w := { w with dev := { w.dev with jour := { w.dev.jour with headWrites := some ns.length } } }
    ns.zipIdx.foldl (fun (w : W) (p : Nat × Nat) =>
      w.nvmeIssue (w.get F.CHN_JNS_PORT p.1) { kind := 6, nsid := w.get F.CHN_JNS_NSID p.1, lba := 0, len := 4096, data := w.flushHead p.2 ns.length }) w

/-- FLUSH_WRITES_DONE. -/
def execFlushWritesDone (s : State) : Host.Outcome State Fault Refusal := lift W.flushHeads s

/-- A flush write failed, or the flush missed its time (R86). -/
def W.flushErr (w : W) : W := (w.set F.CHN_JSTAT_FLUSHERR 1).report { cls := 0x06, level := 2, src := source 21 2 }

/-- FLUSH_MISSED_3_MS. -/
def execFlushMissed (s : State) : Host.Outcome State Fault Refusal :=
  lift (fun w => if w.flag F.CHN_JSTAT_FLUSHING ∧ w.dev.jour.fell + 3000000 ≤ w.now then w.flushErr else w) s

/-- A flush write has ended; a header that fails leaves FLUSHED clear. -/
def W.flushDone (w : W) (head ok : Bool) : W :=
  let w := if ok then w else w.flushErr
  if !head then { w with dev := { w.dev with jour := { w.dev.jour with slotWrites := w.dev.jour.slotWrites - (if ok then 1 else 0) } } }
  else if !ok then w
  else
    let n := w.dev.jour.headWrites.getD 0 - 1
    let w := { w with dev := { w.dev with jour := { w.dev.jour with headWrites := some n } } }
    if n = 0 then (w.set F.CHN_JSTAT_FLUSHED 1).set F.CHN_JSTAT_FLUSHING 0 else w

/-! ### Completions (R41, R46, R51, R84, R99, R115, R486) -/

/-- A segment's storage read has ended with success: descriptor and cipher record from the metadata, the length of its data (R41, R99, R115). -/
def W.readDone (w : W) (i k : Nat) (c : NvmeCmd) : W :=
  match w.txn i with
  | none => w
  | some t =>
    match w.chan t.chid with
    | none => w
    | some x =>
      let cmp := w.hasCmp x
      let d := if cmp || t.load.isSome then leAt c.mdata 0 8 else 0
      let st := nbits d 31 0
      let n := t.segLen x k
      let w := w.modSeg i k fun s => { s with desc := d, stlen := st, record := (c.mdata.drop 8).take 32, len := if cmp then st else n }
      if t.load.isNone then w
      else
        -- a load's segment goes on by its descriptor: FORM frame through INFLATE, else by the length of the load (R126)
        let frame := decide (nbits d 63 56 = 0xC7) && decide (nbits d 55 52 = 1)
        let sealed := decide (nbits x.cipprof 7 0 ≠ 0)
        let rest : List SegOp :=
          if frame then (if sealed then [.unseal, .inflate 0, .copy] else [.inflate 0, .copy])
          else if !sealed then [.copy]
          else if 2 ^ 20 < t.length then [.loadz] else [.unseal, .copy]
        let len := if decide (nbits d 63 56 = 0xC7) then st else n
        w.modSeg i k fun s => { s with len := len, ops := s.ops.take 1 ++ rest }

/-- A segment's storage write has ended with success: its bytes count and its buffers are free (R67). -/
def W.writeDone (w : W) (i k : Nat) : W :=
  match w.txn i with
  | none => w
  | some t =>
    let s := t.segOf k
    let w := w.freeBufs s.chain
    (w.modSeg i k fun s => { s with chain := [], stlen := s.len }).modTxn i fun t => { t with bytes := t.bytes + s.len }

/-- An NVMe command of a transaction ends with MEDIA (R45, R51, R486). -/
def W.mediaEnd (w : W) (port : Nat) (c : NvmeCmd) (i : Nat) : W :=
  let t := (w.txn i).getD {}
  let w := w.report { cls := 0x1E, level := 0, src := source 15 port, world := t.world, chid := t.chid, detail := c.lba }
  if c.kind = 3 then (if t.waitsFor .flush then w.outcome i 3 else w)
  else (w.outcome i 3).endOp i c.seg true

/-- A command ends without success: error status, timeout or lost link. -/
def W.nvmeFail (w : W) (port : Nat) (c : NvmeCmd) (st : Nat) : W :=
  match c.kind with
  | 4 => w.resDone c.aux c.lba st
  | 5 => w.flushDone false false
  | 6 => w.flushDone true false
  | _ => match c.txn with
    | some i => w.mediaEnd port c i
    | none => w.report { cls := 0x1E, level := 0, src := source 15 port, detail := c.lba }

/-- A command ends with success. -/
def W.nvmeOk (w : W) (c : NvmeCmd) : W :=
  match c.kind with
  | 4 => w.resDone c.aux c.lba 0
  | 5 => w.flushDone false true
  | 6 => w.flushDone true true
  | 3 => match c.txn with
    | some i =>
      let w := w.modTxn i fun t => { t with jpend := t.jpend - 1 }
      (match w.txn i with | some t => if t.waitsFor .flush && decide (t.jpend = 0) then w.intentDone i else w | none => w)
    | none => w
  | k => match c.txn with
    | some i => (if k = 2 then w.readDone i c.seg c else w.writeDone i c.seg).endOp i c.seg true
    | none => w

/-- Whether a segment's read or write goes to a namespace with too few metadata bytes for its channel's program: it fails (R99, R115). -/
def W.metaShort (w : W) (port : Nat) (c : NvmeCmd) : Bool :=
  (c.kind = 1 || c.kind = 2) &&
  match (c.txn.bind w.txn).bind fun t => w.chan t.chid with
  | some x => decide (Config.metaBytes port c.nsid < w.metaNeed x)
  | none => false

/-- A completion: 0 success, 1 Reservation Conflict, 2 another error status. A conflict on a shared namespace decides nothing: SHARED
closes and the command waits to be issued again (R486). -/
def W.nvmeDone (w : W) (port tag st : Nat) : W :=
  match Tab.find? (w.pciPort port).tags tag with
  | none => w
  | some c =>
    let w := w.nvmeEnd port tag
    let w :=
      if c.aborted then w
      else if w.metaShort port c then w.nvmeFail port c 2
      else if st = 0 then w.nvmeOk c
      else if st = 1 && c.kind ≠ 4 && w.isShared port c.nsid then
        let w := (w.modPlk fun p => { p with conflict := true }).report { cls := 0x38, level := 1, src := source 16 0, detail := c.nsid }
        { w with dev := { w.dev with nvmeq := w.dev.nvmeq ++ [(port, c)] } }
      else w.nvmeFail port c st
    w.nvmeRun

/-- NVME_COMPLETION. -/
def execNvmeCompletion (port tag status : Nat) (s : State) : Host.Outcome State Fault Refusal := lift (fun w => w.nvmeDone port tag status) s

/-- NVME_TIMEOUT: an Abort is issued, and the command is treated as ended; its tag stays until its completion (R51). -/
def execNvmeTimeout (port tag : Nat) (s : State) : Host.Outcome State Fault Refusal :=
  lift (fun w => match Tab.find? (w.pciPort port).tags tag with
    | none => w
    | some c =>
      if c.aborted ∨ w.now < c.at_ + w.get F.CHN_TOCTL_NVME * 1000000 then w
      else
        let w := w.modPci port fun p => { p with tags := Tab.put p.tags tag { c with aborted := true } }
        (w.send (.nvmeAbort port tag)).nvmeFail port c 2) s

end Sys2Proof.Machine
end

