-- ==== Sys2Proof/Machine/Compress.lean ====
section
/-! DEFINITION. The compression engines: taking, suspending, ending, cancelling and failing jobs, and the scrubs of buffers
(R92 to R112, R123). -/

namespace Sys2Proof.Machine

open Sys2Proof

/-- Change the compression scheduler. -/
def W.modCmp (w : W) (f : CmpSt → CmpSt) : W := { w with dev := { w.dev with cmp := f w.dev.cmp } }

/-- Change a job. -/
def W.modCmpJob (w : W) (j : Nat) (f : CmpJob → CmpJob) : W := w.modCmp fun c => { c with jobs := Tab.modify c.jobs j f }

/-- The compression engines in service (R93). -/
def W.cmpEngines (w : W) : List Nat := (List.range (w.xm 32 16)).filter fun e => (w.unitOf (source 7 e)).svc

/-- The job that an engine runs. -/
def W.cmpOn (w : W) (e : Nat) : Option (Nat × CmpJob) := Tab.first? w.dev.cmp.jobs fun _ j => decide (j.engine = some e)

/-- Forget a job. -/
def W.cmpDrop (w : W) (j : Nat) : W := w.modCmp fun c => { c with jobs := Tab.del c.jobs j, queue := c.queue.filter fun x => x ≠ j }

/-- Blocks of a COMPRESS job. -/
def CmpJob.count (j : CmpJob) : Nat := encCount j.profile j.wlog j.inlen

/-- What a COMPRESS job has encoded after `n` blocks (R94, R108). -/
def W.cmpEnc (w : W) (j : CmpJob) (n : Nat) : Enc := encRun j.profile j.wlog j.cuts (w.chainBytes j.inChain j.inlen) n

/-- The frame that a COMPRESS job forms (R94). -/
def W.cmpFrame (w : W) (j : CmpJob) : List Byte := encFrame j.profile j.wlog j.cuts (w.chainBytes j.inChain j.inlen)

/-- Bytes that the output of a COMPRESS job takes after `n` blocks. -/
def W.cmpSize (w : W) (j : CmpJob) (n : Nat) : Nat := ((w.cmpEnc j n).bits.length + 7) / 8

/-- Bytes free in the output chain after `n` blocks (R104). -/
def W.cmpFree (w : W) (j : CmpJob) (n : Nat) : Nat := j.outChain.length * 4096 - (w.cmpEnc j n).bits.length / 8

/-- Whether the output chain may still grow (R104): then it holds whatever R100 lets through. -/
def CmpJob.grows (j : CmpJob) : Bool := decide (j.outChain.length ≤ bufsFor j.explen)

/-- Ask for an extension, unless a request is pending or the chain may not grow (R104). -/
def W.cmpAsk (w : W) (id e : Nat) (j : CmpJob) : W :=
  if j.extPending || !j.grows then w
  else (w.askBufs ⟨68 + e, j.prio, nbits j.profile 47 40, j.world, .ext id⟩).modCmpJob id fun x => { x with extPending := true }

/-- Jobs that an engine may take, in queue order (R102, R104, R112). -/
def W.cmpReady (w : W) (e : Nat) : List (Nat × CmpJob) :=
  w.dev.cmp.queue.filterMap fun i => match Tab.find? w.dev.cmp.jobs i with
    | some j =>
      if j.engine = none && !j.waitExt && w.atHand j.ref && !(decide (j.avoid = some e) && w.cmpEngines.any fun x => x ≠ e) then some (i, j) else none
    | none => none

/-! ### Saving (R105 to R108) -/

/-- The last segment of its transaction. -/
def W.lastSeg (w : W) (r : SegRef) : Bool :=
  match w.txn r.txn with
  | some t => (match w.chan t.chid with | some c => decide (r.seg + 1 = t.nsegs c) | none => false)
  | none => false

/-- The 64-byte descriptor of a job (R101). -/
def W.cmpDesc (w : W) (j : CmpJob) (resume : Bool) : List Byte :=
  leBytes 1 (if j.inflate then 2 else 1) ++ leBytes 1 (j.prio + 4 * b2n (w.lastSeg j.ref) + 8 * b2n resume) ++ leBytes 2 j.issuer ++ leBytes 2 j.job ++
    leBytes 2 j.world ++ leBytes 8 j.profile ++ leBytes 4 j.inlen ++ leBytes 4 j.explen ++ leBytes 4 j.chid ++ leBytes 2 (j.inChain.headD 0) ++
    leBytes 2 (j.outChain.headD 0) ++ leBytes 2 j.outChain.length ++ leBytes 1 j.form ++ leBytes 1 j.format ++ leBytes 4 j.ref.seg ++ zeros 24

/-- Address of a job's save slot (R106). -/
def W.saveAddr (w : W) (j : CmpJob) : Nat := w.base F.CMP_SAVEBASE_BASE + (j.issuer * 256 + j.job) * 4096

/-- A Zstandard job's hash state as its save slot holds it (R107). -/
def xxhSave (x : Xxh) (free : List Byte) : List Byte :=
  (x.acc.flatMap fun a => leBytes 8 a.toNat) ++ leBytes 8 x.len ++ x.tail ++ free.take (32 - x.tail.length) ++ (free.drop 32).take 24

/-- Bytes 0x040 to 0xDFF of a save slot (R107). A COMPRESS job stands at a block boundary, before a block header. How far an INFLATE job has come is
open in a model without time; what the layout does not spell out is open as well: `f` are free bytes (assumption 103). -/
def W.saveState (w : W) (j : CmpJob) (f : List Byte) : List Byte :=
  let open_ (a n : Nat) := (f.drop a).take n
  if j.inflate then
    leBytes 8 (leAt f 0 8 % (j.inlen + 1)) ++ leBytes 8 (leAt f 8 8 % (j.explen + 1)) ++ open_ 16 8 ++ leBytes 1 (leAt f 24 1 % 64) ++
      leBytes 1 (leAt f 25 1 % 4) ++ zeros 2 ++ open_ 28 4 ++ open_ 32 96 ++ open_ 128 12 ++ zeros 4 ++ open_ 144 48 ++ open_ 192 3328
  else
    let fmt := profFormat j.profile
    let inpos := min j.inlen (j.blocks * encSize j.profile j.wlog)
    let e := w.cmpEnc j j.blocks
    let n := e.bits.length
    let done := w.chainBytes j.inChain inpos
    let chk := if fmt = 2 then leBytes 4 (adler32 done) else if fmt = 3 then leBytes 4 (crcRun 0xEDB88320 0xFFFFFFFF done) else open_ 28 4
    let xxh := if fmt = 4 then xxhSave (Xxh.run done) (open_ 32 96) else open_ 32 96
    let reps := if fmt = 4 then e.z.reps.flatMap (leBytes 4) else open_ 128 12
    leBytes 8 inpos ++ leBytes 8 (n / 8) ++ leBytes 8 (lsbNum (e.bits.drop (n / 8 * 8))) ++ leBytes 1 (n % 8) ++ leBytes 1 1 ++ zeros 2 ++ chk ++ xxh ++
      reps ++ zeros 4 ++ open_ 144 48 ++ zeros 3328

/-- Write a job's save slot; none where the check of R106 fails. -/
def W.cmpSave (w : W) (e : Nat) (j : CmpJob) : Option W :=
  if !w.dev.cmp.saveSet then none
  else
    let (f, w) := w.freshBytes 0xDC0
    let b := w.cmpDesc j true ++ w.saveState j f ++ zeros 504
    w.storeAs (cirqueWho (source 7 e)) (w.saveAddr j) (b ++ leBytes 8 (crc64 b))

/-- Suspend the job of an engine: into its save slot and to the head of its priority, or, when the check fails, not at all (R102, R105, R106). -/
def W.cmpSuspend (w : W) (e id : Nat) (j : CmpJob) (waitExt : Bool) : W :=
  match w.cmpSave e j with
  | none => (w.modCmpJob id fun x => { x with pinned := true }).report { cls := 0x1D, level := 2, src := source 7 e, world := j.world, chid := j.chid }
  | some w =>
    let w := (w.modCmpJob id fun x => { x with engine := none, saved := true, waitExt := waitExt }).modCmp fun c =>
      { c with queue := id :: c.queue.filter fun x => x ≠ id }
    (w.bump F.CMP_SUSPCNT_COUNT).event .eng (68 + e) 0x183 1 j.world

/-- The engines that queued priority-0 jobs suspend: `n` of those with the highest priority number, lower index first (R103). -/
def preempted (run : List (Nat × Nat)) (n e : Nat) : Bool :=
  match run.find? fun x => x.1 = e with
  | none => false
  | some (_, p) => p ≠ 0 && decide ((run.filter fun x => decide (p < x.2) || (decide (p = x.2) && decide (x.1 < e))).length < n)

/-- A mode in which engines drain (R24, R105). -/
def W.draining (w : W) : Bool := !(isService w.cur || w.cur = mDEGRADED || w.cur = mRECOVERY)

/-- A reason other than a short chain to suspend the job of an engine (R103, R105). -/
def W.cmpDue (w : W) (e : Nat) : Bool :=
  let n := ((w.cmpReady e).filter fun p => p.2.prio = 0).length
  let idle := w.cmpEngines.any fun x => (w.cmpOn x).isNone
  let run := w.cmpEngines.filterMap fun x => (w.cmpOn x).map fun p => (x, p.2.prio)
  !w.cmpEngines.contains e || w.draining || (!idle && preempted run n e)

/-- A COMPRESS job encodes one block that is not its last, and its engine checks the output chain at the boundary (R104); none when the job stays
where it is: the next block is the last, the frame is given up (R100), or the chain does not hold the block and is to be extended first
(assumption 103). -/
def W.cmpBlock (w : W) (e id : Nat) (j : CmpJob) : Option (W × CmpJob) :=
  let n := j.blocks + 1
  if j.count ≤ n || decide (j.inlen < w.cmpSize j n) || decide (j.outChain.length * 4096 < w.cmpSize j n) then none
  else
    let j := { j with blocks := n }
    let w := w.modCmpJob id fun _ => j
    let w := if w.cmpFree j n < 16384 then w.cmpAsk id e j else w
    some (w, (Tab.find? w.dev.cmp.jobs id).getD j)

/-- At a boundary with fewer than 8,200 bytes free the engine suspends the job (R104): the next block may not fit. -/
def W.cmpShort (w : W) (j : CmpJob) : Bool := decide (w.cmpFree j j.blocks < 8200) && j.extPending

/-- CMP_SUSPEND: the job of an engine reaches its next suspension point, and one of the cases of R103 to R105 holds. A raw INFLATE has none. -/
def W.cmpSuspendAt (w : W) (e : Nat) : W :=
  match w.cmpOn e with
  | none => w
  | some (id, j) =>
    if j.pinned then w
    else if j.inflate then (if j.form = 1 && w.cmpDue e then w.cmpSuspend e id j false else w)
    else match w.cmpBlock e id j with
      | none => w
      | some (w, j) => if w.cmpShort j then w.cmpSuspend e id j true else if w.cmpDue e then w.cmpSuspend e id j false else w

/-- CMP_SUSPEND. -/
def execCmpSuspend (e : Nat) (s : State) : Host.Outcome State Fault Refusal := lift (fun w => w.cmpSuspendAt e) s

/-! ### Starting (R102, R108) -/

/-- An engine takes a job: a saved one is restored, or starts anew when SCRC does not check (R108). -/
def W.cmpTake (w : W) (e id : Nat) (j : CmpJob) : W :=
  let bad := j.saved && decide (crc64 (w.bytes (w.saveAddr j) 0xFF8) ≠ w.le (w.saveAddr j + 0xFF8) 8)
  let j := { j with engine := some e, saved := false, avoid := none, inChain := w.chainNow j.ref j.inChain }
  let j := if bad then { j with blocks := 0, cuts := [] } else { j with cuts := if j.blocks = 0 then j.cuts else j.cuts ++ [j.blocks] }
  let w := ((w.takeSeg j.ref).modCmpJob id fun _ => j).modCmp fun c => { c with queue := c.queue.filter fun x => x ≠ id }
  let w := if bad then w.report { cls := 0x20, level := 1, src := source 7 e, sub := 0x0A, world := j.world, chid := j.chid, detail := j.ref.seg } else w
  w.unstall

/-- CMP_JOB_START: an idle engine in service takes the next job (R102). -/
def execCmpJobStart (e : Nat) (s : State) : Host.Outcome State Fault Refusal :=
  lift (fun w =>
    if !w.cmpEngines.contains e || (w.cmpOn e).isSome then w
    else
      let l := w.cmpReady e
      match w.wrr w.dev.cmp.wrr fun p => l.any fun x => x.2.prio = p with
      | none => w
      | some (p, x) => match l.find? fun y => y.2.prio = p with
        | none => w
        | some (id, j) => (w.modCmp fun c => { c with wrr := x }).cmpTake e id j) s

/-- CMP_EXTENSION_RETRY: a refused extension request is presented again (R54, R104). -/
def execCmpExtensionRetry (j : Nat) (s : State) : Host.Outcome State Fault Refusal :=
  lift (fun w => match w.dev.neve.refused.find? fun r => r.why = .ext j with
    | none => w
    | some r => (w.modNeve fun v => { v with refused := v.refused.filter fun x => x.why ≠ .ext j }).askBufs r) s

/-! ### Ending (R99, R100, R109, R110) -/

/-- The segment descriptor (R99). -/
def segDesc (form format stlen : Nat) : Nat := 0xC7 * 2 ^ 56 + form * 2 ^ 52 + format * 2 ^ 48 + stlen

/-- A COMPRESS job hands on its frame (R99, R100). -/
def W.cmpFramed (w : W) (e id : Nat) (j : CmpJob) (f : List Byte) : W :=
  let w := ((w.cmpDrop id).unask fun p => p = .ext id).event .eng (68 + e) 0x180 j.inlen j.world
  let n := bufsFor f.length
  let w := ((w.putChain (j.outChain.take n) f).freeBufs (j.outChain.drop n)).freeBufs j.inChain
  let w := (w.modSeg j.ref.txn j.ref.seg fun s => { s with
    chain := j.outChain.take n, outChain := [], len := f.length, stlen := f.length, desc := segDesc 1 (profFormat j.profile) f.length }).event
      .eng (68 + e) 0x181 f.length j.world
  (w.endOp j.ref.txn j.ref.seg false).kickEngine j.issuer

/-- A COMPRESS job gives up the frame and passes its input on (R100). -/
def W.cmpRaw (w : W) (e id : Nat) (j : CmpJob) : W :=
  let w := ((w.cmpDrop id).unask fun p => p = .ext id).event .eng (68 + e) 0x180 j.inlen j.world
  let w := (w.freeBufs j.outChain).bump F.CMP_RAWCNT_COUNT
  let w := (w.modSeg j.ref.txn j.ref.seg fun s => { s with
    chain := j.inChain, outChain := [], len := j.inlen, stlen := j.inlen, desc := segDesc 0 0 j.inlen }).event .eng (68 + e) 0x181 j.inlen j.world
  (w.endOp j.ref.txn j.ref.seg false).kickEngine j.issuer

/-- The blocks of a COMPRESS job up to its last, with the checks of R104 at each boundary: the state, and the job when it is still on its engine. -/
def W.cmpBlocks (e id : Nat) : Nat → W → CmpJob → W × Option CmpJob
  | 0, w, j => (w, some j)
  | n + 1, w, j => match w.cmpBlock e id j with
    | none => (w, some j)
    | some (w, j) =>
      if w.cmpShort j && !j.pinned then
        let w := w.cmpSuspend e id j true
        match Tab.find? w.dev.cmp.jobs id with
        | some j => if j.engine = some e then W.cmpBlocks e id n w j else (w, none)
        | none => (w, none)
      else W.cmpBlocks e id n w j

/-- A COMPRESS job goes on to its end: the frame when all of it fits within the input, else the raw form (R100). Where the output chain does not hold
the rest, the job stays on its engine and asks for an extension (assumption 103). -/
def W.cmpEndCompress (w : W) (e id : Nat) (j : CmpJob) : W :=
  match W.cmpBlocks e id j.count w j with
  | (w, none) => w
  | (w, some j) =>
    let out := w.cmpSize j (j.blocks + 1)
    if j.inlen < out then w.cmpRaw e id j
    else if j.blocks + 1 < j.count then w.cmpAsk id e j
    else
      let f := w.cmpFrame j
      if j.inlen < f.length then w.cmpRaw e id j
      else if j.outChain.length * 4096 < f.length then w.cmpAsk id e j
      else w.cmpFramed e id j f

/-- What decoding a job's input finds: the failure subcode in the order of R110, 0 for none, and the output. -/
def W.cmpVerdict (w : W) (j : CmpJob) : Nat × List Byte :=
  let bs := w.chainBytes j.inChain j.inlen
  if !j.sigOk then (8, [])
  else if j.form = 0 then (if j.inlen = j.explen then (0, bs) else (9, []))
  else match unFrame j.format (nbit j.profile 8) j.explen bs with
    | .ok out => (0, out)
    | .error sub => (sub, [])

/-- An INFLATE job ends with every condition of R109 met. -/
def W.cmpEndInflate (w : W) (e id : Nat) (j : CmpJob) : W :=
  let (sub, out) := w.cmpVerdict j
  if sub ≠ 0 then w
  else
    let w := (w.event .eng (68 + e) 0x180 j.inlen j.world).event .eng (68 + e) 0x181 out.length j.world
    let w := ((w.cmpDrop id).putChain j.outChain out).freeBufs j.inChain
    let w := w.modSeg j.ref.txn j.ref.seg fun s => { s with chain := j.outChain, outChain := [], len := j.explen }
    (w.endOp j.ref.txn j.ref.seg false).kickEngine j.issuer

/-- CMP_JOB_END. -/
def execCmpJobEnd (e : Nat) (s : State) : Host.Outcome State Fault Refusal :=
  lift (fun w => match w.cmpOn e with
    | none => w
    | some (id, j) => if j.inflate then w.cmpEndInflate e id j else w.cmpEndCompress e id j) s

/-- CMP_DECODE_FAIL: decoding stops and the output buffers are to be scrubbed (R110 steps 1 and 2). -/
def execCmpDecodeFail (e : Nat) (s : State) : Host.Outcome State Fault Refusal :=
  lift (fun w => match w.cmpOn e with
    | none => w
    | some (id, j) =>
      let sub := (w.cmpVerdict j).1
      if !j.inflate ∨ sub = 0 then w
      else
        let w := (w.cmpDrop id).modSeg j.ref.txn j.ref.seg fun s => { s with chain := [], outChain := [] }
        let w := { w with dev := { w.dev with scrubs := w.dev.scrubs ++ [({ ref := j.ref, bufs := j.outChain, also := j.inChain, decode := sub, src := source 7 e } : Scrub)] } }
        w.kickEngine j.issuer) s

/-- CMP_CANCEL: the job of a transaction whose outcome is fixed ends, and its chains are released (R111). -/
def execCmpCancel (j : Nat) (s : State) : Host.Outcome State Fault Refusal :=
  lift (fun w => match Tab.find? w.dev.cmp.jobs j with
    | none => w
    | some x => match w.txn x.ref.txn with
      | none => w
      | some t =>
        if t.status.isNone then w
        else
          let w := ((w.cmpDrop j).unask fun p => p = .ext j).dropChain x.ref.txn x.ref.seg
          let w := (w.freeBufs x.outChain).modSeg x.ref.txn x.ref.seg fun s => { s with outChain := [] }
          (w.endOp x.ref.txn x.ref.seg false).kickEngine x.issuer) s

/-- CMP_ENGINE_FAULT: the job of the engine ends unsaved and starts anew on another one while there is one (R112): an engine that has left service and
still runs its job may fail as well. -/
def execCmpEngineFault (e : Nat) (s : State) : Host.Outcome State Fault Refusal :=
  lift (fun w =>
    let on := w.cmpOn e
    if !w.cmpEngines.contains e && on.isNone then w
    else
      let w := w.report { cls := 0x20, level := 1, src := source 7 e }
      match on with
      | none => w
      | some (id, j) =>
        let w := w.modCmpJob id fun x => { x with engine := none, saved := false, blocks := 0, cuts := [], pinned := false, avoid := some e }
        (w.untakeSeg j.ref).modCmp fun c => { c with queue := id :: c.queue }) s

/-! ### Scrubs (R110, R123) -/

/-- A scrub has ended: its buffers are free; a decode failure decides INTEGRITY and is recorded; a segment that runs again starts from
its FETCH or STREAD; otherwise the segment's command has ended. -/
def W.scrubDone (w : W) (s : Scrub) : W :=
  let w := ((w.scrubBufs s.bufs).freeBufs s.bufs).freeBufs s.also
  let i := s.ref.txn
  let k := s.ref.seg
  if s.decode ≠ 0 then
    let t := (w.txn i).getD {}
    let w := w.outcome i 4
    let w := (w.report { cls := 0x21, level := 0, src := s.src, sub := s.decode, world := t.world, chid := t.chid, detail := k }).bump F.CMP_DECFAIL_COUNT
    w.endOp i k false
  else if s.rerun && (match w.txn i with | some t => t.status.isNone | none => false) then
    let w := w.modSeg i k fun x => { x with ops := x.did ++ x.ops, did := [], chain := [], running := false, busy := false }
    w.drive i k
  else w.endOp i k false

/-- BUFFER_SCRUB_DONE: scrub `n` of those in progress. -/
def execBufferScrubDone (n : Nat) (s : State) : Host.Outcome State Fault Refusal :=
  lift (fun w => match w.dev.scrubs[n]? with
    | none => w
    | some x => ({ w with dev := { w.dev with scrubs := w.dev.scrubs.eraseIdx n } }).scrubDone x) s

end Sys2Proof.Machine
end

