-- ==== Sys2Proof/Machine/Cipher.lean ====
section
/-! DEFINITION. The cipher cores, the Rime core and the answers to key requests (R113 to R128, R132, R133, R139). -/

namespace Sys2Proof.Machine

open Sys2Proof

/-- Change a job. -/
def W.modCipJob (w : W) (j : Nat) (f : CipJob → CipJob) : W := w.modCip fun c => { c with jobs := Tab.modify c.jobs j f }

/-- The cipher cores in service. -/
def W.cipCores (w : W) : List Nat := (List.range (w.xm 24 12)).filter fun u => (w.unitOf (source 8 u)).svc

/-- The Rime core is in service. -/
def W.rimeUp (w : W) : Bool := (w.unitOf (source 8 24)).svc

/-- Whether unit `u` may take jobs: a cipher core in service, but in Thaw, where the Rime core (24) runs every AES operation, or the Rime core with no
cipher core in service (R128). -/
def W.cipUnitOk (w : W) (u : Nat) : Bool :=
  if u = 24 then w.rimeUp && (w.cipCores.isEmpty || w.cur = mTHAW) else w.cipCores.contains u && w.cur ≠ mTHAW

/-- Whether unit `u` may take a job: one whose core faulted with no other in service goes to the Rime core (R128). -/
def W.cipFor (w : W) (u : Nat) (j : CipJob) : Bool := if j.rime && w.rimeUp then u = 24 else w.cipUnitOk u

/-- The job that a unit runs. -/
def W.cipOn (w : W) (u : Nat) : Option (Nat × CipJob) := Tab.first? w.dev.cip.jobs fun _ j => decide (j.core = some u)

/-- Forget a job. -/
def W.cipDrop (w : W) (j : Nat) : W :=
  w.modCip fun c => { c with
    jobs := Tab.del c.jobs j, queue := c.queue.filter fun x => x ≠ j
    derivs := c.derivs.map fun d => { d with waiters := d.waiters.filter fun x => x ≠ j } }

/-- Mode of a job's profile (R113). -/
def CipJob.mode (j : CipJob) : Nat := nbits j.profile 7 0
/-- GCM. -/
def CipJob.gcm (j : CipJob) : Bool := j.mode = 1 || j.mode = 2
/-- XTS. -/
def CipJob.xts (j : CipJob) : Bool := j.mode = 5 || j.mode = 6

/-- LBA shift of a job's channel. -/
def W.jobLba (w : W) (j : CipJob) : Nat :=
  match w.txn j.ref.txn with
  | some t => (match w.chan t.chid with | some c => c.lbaShift | none => 9)
  | none => 9

/-- Bytes that a job works on: XTS fills the last LBA (R116). -/
def W.jobLen (w : W) (j : CipJob) : Nat := if j.xts then ceilDiv j.len (2 ^ w.jobLba j) * 2 ^ w.jobLba j else j.len

/-- The additional authenticated data (R116). -/
def CipJob.aad (j : CipJob) : List Byte := leBytes 8 j.sdesc ++ beBytes 4 j.nsid ++ zeros 4 ++ beBytes 8 j.lba

/-- Key bytes of the AES of a mode. -/
def CipJob.klen (j : CipJob) : Nat := if j.mode % 2 = 1 then 16 else 32

/-- Run a job's mode over its bytes (R116). -/
def W.jobRun (w : W) (j : CipJob) (key iv : Nat) (dec : Bool) (bs : List Byte) : List Byte := cipherMode j.mode key iv j.lba (2 ^ w.jobLba j) dec bs

/-! ### IVs (R117) -/

/-- Issue an IV. -/
def W.issueIv (w : W) : Nat × W :=
  let c := w.dev.cip
  let fl := w.get F.CIP_IVFLOOR_FLOOR
  let (ts, sub) :=
    if c.ivFirst then (max w.now fl, 0)
    else
      let ts := max (max w.now fl) c.lastTs
      if ts = c.lastTs then (if 4095 < c.lastSub + 1 then (c.lastTs + 1, 0) else (ts, c.lastSub + 1)) else (ts, 0)
  (w.get F.CIP_IVCTL_PFX * 2 ^ 76 + sub * 2 ^ 64 + ts % 2 ^ 64, w.modCip fun c => { c with ivFirst := false, lastTs := ts, lastSub := sub })

/-! ### Starting (R121, R124 steps 2 and 3) -/

/-- A job that waits for ARM (R117). -/
def W.armWait (w : W) (j : CipJob) : Bool := decide (j.op = 1) && !j.xts && j.iv.isNone && !w.flag F.CIP_IVCTL_ARM

/-- Take a job: the IV of a SEAL, the mode check of the others, and HELD on an UNSEAL's buffers. -/
def W.cipTake (w : W) (u id : Nat) (j : CipJob) : W :=
  let (iv, w) := if j.op = 1 && !j.xts && j.iv.isNone then (let (v, w) := w.issueIv; (some v, w)) else (j.iv, w)
  let bad := decide (j.op ≠ 1) && decide (leAt j.record 0 1 ≠ j.mode)
  let chain := w.chainNow j.ref j.chain
  let w := (w.takeSeg j.ref).modCipJob id fun x => { x with core := some u, iv := iv, modeBad := bad, saved := false, chain := chain }
  (w.modCip fun c => { c with
    queue := c.queue.filter fun x => x ≠ id
    held := if j.op = 2 then (c.held.filter fun b => !chain.contains b) ++ chain else c.held }).unstall

/-- The waiting jobs, in queue order. -/
def W.cipReady (w : W) : List (Nat × CipJob) :=
  w.dev.cip.queue.filterMap fun i => match Tab.find? w.dev.cip.jobs i with
    | some j => if j.core = none && w.atHand j.ref then some (i, j) else none
    | none => none

/-- CIP_JOB_START: an idle unit takes the next job; a SEAL that needs an IV waits while ARM is 0 (R117, R121). -/
def execCipJobStart (u : Nat) (s : State) : Host.Outcome State Fault Refusal :=
  lift (fun w =>
    if (w.cipOn u).isSome || (decide (u = 24) && w.rimeDerives) then w
    else
      let l := w.cipReady.filter fun x => w.cipFor u x.2
      let w := if l.any fun x => w.armWait x.2 then w.set F.CIP_IVCTL_WAITING 1 else w
      let l := l.filter fun x => !w.armWait x.2
      match w.wrr w.dev.cip.wrr fun p => l.any fun x => x.2.prio = p with
      | none => w
      | some (p, x) => match l.find? fun y => y.2.prio = p with
        | none => w
        | some (id, j) => (w.modCip fun c => { c with wrr := x }).cipTake u id j) s

/-! ### Ends that release the buffers (R123 to R125) -/

/-- A job's buffers are scrubbed in the pool; the unit is free at once (R123). -/
def W.cipScrub (w : W) (id : Nat) (j : CipJob) (rerun : Bool) : W :=
  let w := (w.cipDrop id).modSeg j.ref.txn j.ref.seg fun s => { s with chain := [] }
  let w := { w with dev := { w.dev with scrubs := w.dev.scrubs ++ [({ ref := j.ref, bufs := j.chain, rerun := rerun } : Scrub)] } }
  w.kickEngine j.issuer

/-- The Moraine source of the unit that has a job. -/
def CipJob.src (j : CipJob) : Nat := source 8 (j.core.getD 25)

/-- A job whose key is refused ends with NOACCESS (R123, R125). -/
def W.cipRefuse (w : W) (id : Nat) (j : CipJob) (sub : Nat) : W :=
  let chid := match w.txn j.ref.txn with | some t => t.chid | none => 0
  let w := w.report { cls := 0x24, level := 0, src := j.src, sub := sub, world := j.world, chid := chid, detail := j.ref.seg }
  let w := w.cipScrub id j false
  w.outcome j.ref.txn 1

/-- A tag or mode failure (R124 step 5b, R126 branch 4b): the record of the held class is made here, that of a load when its area is zero. -/
def W.cipAuthFail (w : W) (id : Nat) (j : CipJob) (sub : Nat) : W :=
  let chid := match w.txn j.ref.txn with | some t => t.chid | none => 0
  let w := w.bump F.CIP_AUTHFAIL_COUNT
  let w := if j.op = 3 then w else w.report { cls := 0x23, level := 0, src := j.src, sub := sub, world := j.world, chid := chid, detail := j.ref.seg }
  let w := w.cipScrub id j false
  w.outcome j.ref.txn 4

/-! ### Keys (R129, R132, R133) -/

/-- The epoch of a job's key request: a replayed transaction's KEPOCH, else the record's, or the current one for SEAL (R129). -/
def W.jobEpoch (w : W) (j : CipJob) (e : Epoch) : Nat :=
  match j.epoch with
  | some x => x
  | none =>
    match w.txn j.ref.txn with
    | some t => if t.replayed then t.kepoch else if j.op = 1 then e.current (nbits j.profile 15 8) else leAt j.record 2 2
    | none => 0

/-- KEY_REQUEST: a running job asks for its key: refused, answered from the cache, or derived (R132, R133). -/
def W.keyRequest (w : W) (id : Nat) : W :=
  match Tab.find? w.dev.cip.jobs id with
  | none => w
  | some j =>
    if j.core.isNone || j.key.isSome || j.asked || j.modeBad || !w.canDerive then w
    else
      let (e, w) := if w.flag F.KDF_CTL_EN then w.epUse j.world else (({} : Epoch), w)
      let ep := w.jobEpoch j e
      let label := keyLabel j.profile j.world ep
      -- an entry with an uncorrectable error is invalidated, and the lookup misses (R132)
      let w := match w.dev.cip.look label j.mode with | some p => if p.2.ecc then w.modCip fun c => c.drop p.1 else w | none => w
      let sub := w.keyRefusal e j.world (nbits j.profile 15 8) ep label j.mode
      let sub := if sub = 3 && j.kept then 0 else sub
      let hit := match w.dev.cip.look label j.mode with | some p => if p.2.valid then some p else none | none => none
      -- a lookup that finds a valid entry is a hit, whatever the answer: it counts and sets the entry's bit (R132)
      let w := match hit with
        | some (i, _) => if sub = 9 then w else (w.bump F.KDF_HITCNT_COUNT).modCip fun c => c.mark i
        | none => w
      if sub ≠ 0 then w.cipRefuse id j sub
      else
        let w := w.modCipJob id fun x => { x with epoch := some ep }
        match hit with
        | some (_, x) => w.modCipJob id fun y => { y with key := some x.key }
        | none =>
          if w.dev.cip.derivs.any fun d => decide (d.label = label) && decide (d.mode = j.mode) && !d.dead then
            (w.modCip fun c => { c with derivs := c.derivs.map fun d =>
              if d.label = label ∧ d.mode = j.mode ∧ !d.dead then { d with waiters := d.waiters ++ [id] } else d }).modCipJob id fun x => { x with asked := true }
          else if 8 ≤ w.dev.cip.derivs.length && (w.unitOf (source 8 25)).svc then w
          else
            ((w.bump F.KDF_MISSCNT_COUNT).modCip fun c => { c with derivs := c.derivs ++ [⟨label, j.mode, j.world, false, [id]⟩] }).modCipJob id fun x =>
              { x with asked := true }

/-- KEY_REQUEST. -/
def execKeyRequest (j : Nat) (s : State) : Host.Outcome State Fault Refusal := lift (fun w => w.keyRequest j) s

/-- KEY_DERIVATION_DONE: derivation `n` ends: inserted and answered, or, after a revocation, discarded and refused (R130, R133). The Rime core
derives one key at a time, in the order of the requests (R128). -/
def execKeyDerivationDone (n : Nat) (s : State) : Host.Outcome State Fault Refusal :=
  lift (fun w =>
    if !w.canDerive || (decide (n ≠ 0) && !(w.unitOf (source 8 25)).svc) then w
    else match w.dev.cip.derivs[n]? with
    | none => w
    | some d =>
      let w := w.modCip fun c => { c with derivs := c.derivs.eraseIdx n }
      let dead := d.dead || w.dev.cip.revoked.contains d.world
      if dead then
        d.waiters.foldl (fun (w : W) (id : Nat) => match Tab.find? w.dev.cip.jobs id with | some j => w.cipRefuse id j 4 | none => w) w
      else
        let key := deriveKey (w.dev.mode.rootKey.getD 0) d.label d.mode
        let w := w.modCip fun c => c.insert d.label d.mode key
        d.waiters.foldl (fun (w : W) (id : Nat) => w.modCipJob id fun x => { x with key := some key, asked := false }) w) s

/-! ### Ends (R115, R116, R124, R126) -/

/-- A SEAL job ends: ciphertext in place, and the cipher record for STWRITE (R115, R116). -/
def W.sealEnd (w : W) (id : Nat) (j : CipJob) (key : Nat) : W :=
  let n := w.jobLen j
  let iv := j.iv.getD 0
  let pt := (w.chainBytes j.chain j.len ++ zeros n).take n
  let ct := w.jobRun j key iv false pt
  let tag := if j.gcm then gcmTag j.klen key iv j.aad ct else 0
  let rec_ := leBytes 1 j.mode ++ [0] ++ leBytes 2 (j.epoch.getD 0) ++ beBytes 12 (if j.xts then 0 else j.iv.getD 0) ++ beBytes 16 tag
  let w := ((w.cipDrop id).putChain j.chain ct).modSeg j.ref.txn j.ref.seg fun s => { s with record := rec_ }
  (w.endOp j.ref.txn j.ref.seg false).kickEngine j.issuer

/-- An UNSEAL or LOAD job ends: the tag is checked, the plaintext handed on, or written to the load's pages (R124, R126). -/
def W.unsealEnd (w : W) (id : Nat) (j : CipJob) (key : Nat) : W :=
  let n := w.jobLen j
  let iv := ofBE ((j.record.drop 4).take 12)
  let ct := (w.chainBytes j.chain n ++ zeros n).take n
  if j.gcm && decide (gcmTag j.klen key iv j.aad ct ≠ ofBE ((j.record.drop 16).take 16)) then w.cipAuthFail id j 1
  else
    let pt := w.jobRun j key iv true ct
    let w := w.cipDrop id
    let w :=
      if j.op = 3 then
        let w := match w.txn j.ref.txn with
          | some t => (match w.chan t.chid with
            | some c =>
              let n := min j.len (t.segLen c j.ref.seg)
              w.loadWrite j.ref.txn t (j.ref.seg * c.segSize) (pt.take n)
            | none => w)
          | none => w
        (w.freeBufs j.chain).modSeg j.ref.txn j.ref.seg fun s => { s with chain := [] }
      else
        (w.putChain j.chain pt).modCip fun c => { c with held := c.held.filter fun b => !j.chain.contains b }
    (w.endOp j.ref.txn j.ref.seg false).kickEngine j.issuer

/-- CIP_JOB_END. -/
def execCipJobEnd (u : Nat) (s : State) : Host.Outcome State Fault Refusal :=
  lift (fun w => match w.cipOn u with
    | none => w
    | some (id, j) =>
      if decide (u = 24) && w.rimeDerives then w
      else if j.modeBad then w.cipAuthFail id j 2
      else match j.key with
        | none => w
        | some key =>
          let w := (w.event .eng (100 + u) 0x180 j.len j.world).event .eng (100 + u) 0x181 j.len j.world
          if j.op = 1 then w.sealEnd id j key else w.unsealEnd id j key) s

/-- CIP_SUSPEND: the job of unit `u` gives way to a priority-0 job, unless the store of 128 entries is full (R122). -/
def execCipSuspend (u : Nat) (s : State) : Host.Outcome State Fault Refusal :=
  lift (fun w => match w.cipOn u with
    | none => w
    | some (id, j) =>
      let n := (w.cipReady.filter fun p => decide (p.2.prio = 0) && !w.armWait p.2 && w.cipFor u p.2).length
      let idle := (List.range 25).any fun x => w.cipUnitOk x && (w.cipOn x).isNone && !(decide (x = 24) && w.rimeDerives)
      let run := (List.range 25).filterMap fun x => (w.cipOn x).map fun p => (x, p.2.prio)
      if idle || !preempted run n u then w
      else if 128 ≤ (w.dev.cip.jobs.filter fun p => p.2.saved).length then w.bump F.CIP_SUSPFULL_COUNT
      else
        let w := w.modCip fun c => { c with
          queue := id :: c.queue, derivs := c.derivs.map fun d => { d with waiters := d.waiters.filter fun x => x ≠ id } }
        let w := w.modCipJob id fun x => { x with core := none, saved := true, key := none, asked := false, kept := x.kept || x.key.isSome }
        (w.bump F.CIP_SUSPCNT_COUNT).event .eng (100 + u) 0x183 1 j.world) s

/-- CIP_CORE_FAULT: the job ends, its buffers are scrubbed, and its segment runs again from FETCH or STREAD (R123). -/
def execCipCoreFault (u : Nat) (s : State) : Host.Outcome State Fault Refusal :=
  lift (fun w =>
    let on := w.cipOn u
    if 25 ≤ u || (!(w.unitOf (source 8 u)).svc && on.isNone) then w
    else
      let alone := decide (u ≠ 24) && (w.cipCores.filter fun x => x ≠ u).isEmpty
      let w := w.report { cls := 0x22, level := 1, src := source 8 u }
      match on with
      | none => w
      | some (id, j) => (w.modSeg j.ref.txn j.ref.seg fun s => { s with rime := alone }).cipScrub id j true) s

/-- CIP_CANCEL: the job of a transaction whose outcome is fixed ends; an UNSEAL's or LOAD's buffers are scrubbed first (R111, R123). -/
def execCipCancel (j : Nat) (s : State) : Host.Outcome State Fault Refusal :=
  lift (fun w => match Tab.find? w.dev.cip.jobs j with
    | none => w
    | some x => match w.txn x.ref.txn with
      | none => w
      | some t =>
        if t.status.isNone then w
        else if x.op ≠ 1 && w.atHand x.ref then w.cipScrub j { x with chain := w.chainNow x.ref x.chain } false
        else
          let w := (w.cipDrop j).dropChain x.ref.txn x.ref.seg (decide (x.op ≠ 1))
          (w.endOp x.ref.txn x.ref.seg false).kickEngine x.issuer) s

/-! ### Revocation (R139) -/

/-- REVOKE reaches the unit: flag, filter bit and sweep; derivations in progress are dead, every job of the world that runs or is suspended ends with
NOACCESS, and the world's loads take branch 4b (R127, R139). -/
def W.kdfRevoke (w : W) (world : Nat) : W :=
  let (e, w) := w.epUse world
  let w := w.epWrite world { e with revoked := true }
  let w := w.modCip fun c => { c with
    revoked := world :: c.revoked.filter fun x => x ≠ world
    sweep := c.sweep ++ [world]
    derivs := c.derivs.map fun d => if d.world = world then { d with dead := true } else d }
  let w := (w.dev.cip.jobs.filter fun p => decide (p.2.world = world) && ((p.2.core.isSome && !p.2.asked) || p.2.saved)).foldl (fun (w : W) (p : Nat × CipJob) => w.cipRefuse p.1 p.2 4) w
  (w.dev.txns.keysWhere fun _ t => t.load.isSome && decide (t.world = world) && t.status.isNone).foldl (fun (w : W) (i : Nat) => w.outcome i 1) w

/-- REVOKE_SWEEP_DONE: every cache entry of the world is marked invalid (R139). -/
def execRevokeSweepDone (s : State) : Host.Outcome State Fault Refusal :=
  lift (fun w => match w.dev.cip.sweep with
    | [] => w
    | world :: rest =>
      w.modCip fun c => { c with
        sweep := rest, cache := Tab.mapVal c.cache fun _ x => if labelWorld x.label = world then { x with valid := false } else x }) s

end Sys2Proof.Machine
end

