-- ==== Sys2Proof/Machine/Handle.lean ====
section
/-! DEFINITION. Handle-table entries and the addressing of an access through a handle (R147, R200 to R203). -/

namespace Sys2Proof.Machine

open Sys2Proof

/-- Whether an index names a loader window (R200). -/
def isWindow (idx : Nat) : Bool := decide (0xFFF000 ≤ idx) && decide (idx ≤ 0xFFF47F)

/-- An entry from its four words (R201). -/
def HEntry.parse (base len modlen attr : Nat) : HEntry :=
  let brev := nbits attr 31 24
  let ok := nbit base 63 && decide (nbits base 62 46 = 0) && decide (nbits len 63 40 = 0) && decide (nbits modlen 63 40 = 0) &&
    decide (nbits attr 23 18 = 0) && decide (brev ≤ 20) && decide (nbits attr 63 32 = 0) &&
    decide (nbits modlen 39 0 ≤ nbits len 39 0) && decide (modlen % 8 = 0)
  { valid := ok, base := nbits base 45 0, len := nbits len 39 0, modlen := nbits modlen 39 0, world := nbits attr 15 0,
    r := nbit attr 16, w := nbit attr 17, brev := brev }

/-- Read an entry: a loader window, or the handle table (R200, R201). -/
def W.hread (w : W) (idx : Nat) : HEntry :=
  if isWindow idx then Tab.getD w.dev.flo.windows idx {}
  else if !w.flag F.FLO_HTCTL_EN || 2 ^ w.get F.FLO_HTCTL_SIZE ≤ idx then {}
  else
    let a := w.base F.FLO_HTBASE_BASE + idx * 32
    if w.rangeOk (cirqueWho (source 20 0)) .rd a 32 then HEntry.parse (w.le a 8) (w.le (a + 8) 8) (w.le (a + 16) 8) (w.le (a + 24) 8) else {}

/-- Why an access through a handle is refused (R202). -/
inductive HFail where
  | rights | bounds
  deriving DecidableEq, Repr

/-- The offset of an access after the modulo rule (R202). -/
def HEntry.wrap (e : HEntry) (off : Nat) (delta : Int) : Nat :=
  let m : Int := if e.modlen ≠ 0 then e.modlen else 2 ^ 40
  (((off : Int) + delta) % m).toNat

/-- The offset after bit reversal (R202). -/
def HEntry.place (e : HEntry) (o : Nat) : Nat :=
  if e.brev = 0 then o
  else
    let wi := o / 8
    (wi / 2 ^ e.brev * 2 ^ e.brev + revBits e.brev (wi % 2 ^ e.brev)) * 8 + o % 8

/-- An access of `size` bytes through an entry (R202): the offset reached, or why it is refused, with the offset at that point. -/
def HEntry.access (e : HEntry) (world off : Nat) (delta : Int) (size : Nat) (write : Bool) : Except (HFail × Nat) Nat :=
  let o := e.wrap off delta
  if !e.valid || e.world ≠ world || !(if write then e.w else e.r) then .error (.rights, o)
  else if e.brev ≠ 0 && decide (8 < o % 8 + size) then .error (.bounds, o)
  else if e.len < e.place o + size then .error (.bounds, e.place o)
  else .ok (e.place o)

end Sys2Proof.Machine
end

