-- ==== Sys2Proof/Machine/Kernel.lean ====
section
/-! DEFINITION. The segment loader: placing, ending, stopping and re-running kernel segments, and the on-line exchange
(R140 to R160, R344, R345). -/

namespace Sys2Proof.Machine

open Sys2Proof

/-- KID of an attachment word (R144). -/
def wordKid (a : Nat) : Nat := nbits a 63 52
/-- WSCOPE of an attachment word. -/
def wordScope (a : Nat) : Nat := nbits a 31 30

/-- A kernel segment's budget in CORE cycles (R151). -/
def KSeg.budget (g : KSeg) : Nat := nbits g.word 51 40 * 64 * g.inChain.length + 4096

/-- Logical Floe cores of the order code (R3). -/
def W.floLogs (w : W) : Nat := w.xm 256 128

/-- The logical index that a physical Floe core serves. -/
def W.floLog (w : W) (n : Nat) : Option Nat :=
  (List.range w.floLogs).find? fun l => w.flag F.FLO_MAP_VALID l && decide (w.get F.FLO_MAP_PHYS l = n)

/-- The segment that runs on a physical core. -/
def W.segOn (w : W) (n : Nat) : Option (Nat × KSeg) := Tab.first? w.dev.flo.segs fun _ g => decide (g.core = some n)

/-- Set a core's line of FLO.CORESTAT. -/
def W.coreStat (w : W) (n state kid world : Nat) : W :=
  w.setReg .FLO_CORESTAT n (BitVec.ofNat 64 (state * 2 ^ 28 + kid * 2 ^ 16 + world))

/-! ### The exchange (R159, R160) -/

/-- The new word of an attachment: in the resident context, which is read in first where it was replaced, or in its block in the table when
every entry is pinned (R30, R160 step 3). -/
def W.xchgWord (w : W) (c att word : Nat) : W :=
  let w := match w.chan c, w.chanAny c with
    | none, some x => (match w.ctxRoom x.prio with | some v => v.ctxPut c x | none => w)
    | _, _ => w
  match w.chan c with
  | some _ => w.modChan c fun x => { x with kernel := x.kernel.set att word }
  | none => (match w.storeAs (cirqueWho (source 21 0)) (w.ctxAddr c + 0x20 + 8 * att) (leBytes 8 word) with | some v => v | none => w.ctxBad c)

/-- Whether an exchange of a channel's attachment for `word` passes the checks of R159 on the channel and the new kernel. -/
def W.xchgOk (w : W) (c word : Nat) : Bool :=
  !(word = 0 || attBad word || w.kstate (wordKid word) ≠ 1 ||
    (match w.chanAny c with
     | none => true
     | some x => !(x.state = 1 || x.state = 2) || w.kworld (wordKid word) ≠ x.world))

/-- The exchange commits once no segment of its attachment runs or waits under the old word (R160 steps 3 to 5). Its checks are made again: where
one fails now, the exchange ends with ERR and the held segments go on under the old word (R484). -/
def W.xchgCheck (w : W) : W :=
  let c := w.get F.FLO_XCHG_CHID
  let att := w.get F.FLO_XCHG_ATT
  if !w.xchgHolds c att || (w.dev.flo.segs.any fun p => decide (p.2.chid = c) && decide (p.2.att = att) && !p.2.held) then w
  else
    let word := (w.reg .FLO_XWORD).toNat
    let free (w : W) := w.modFlo fun f => { f with segs := Tab.mapVal f.segs fun _ g => if g.chid = c ∧ g.att = att then { g with held := false } else g }
    if !w.xchgOk c word then ((free w).set F.FLO_XCHG_BUSY 0).set F.FLO_XCHG_ERR 1
    else
      let w := w.xchgWord c att word
      let mine := w.dev.flo.segs.filter fun p => decide (p.2.chid = c) && decide (p.2.att = att)
      let w := mine.foldl (fun (w : W) (p : Nat × KSeg) => (w.kinflight (wordKid p.2.word) false).kinflight (wordKid word) true) w
      let w := free (w.modFlo fun f => { f with segs := Tab.mapVal f.segs fun _ g => if g.chid = c ∧ g.att = att then { g with word := word } else g })
      (w.set F.FLO_XCHG_BUSY 0).set F.FLO_XCHG_DONE 1

/-- GO: an exchange starts, or is refused with ERR (R159); during a Cirque restart it waits with BUSY set (R186). -/
def W.xchgGo (w : W) : W :=
  let c := w.get F.FLO_XCHG_CHID
  if w.cur ≠ mMAINT || !w.xchgOk c (w.reg .FLO_XWORD).toNat then w.set F.FLO_XCHG_ERR 1
  else if w.flag F.KPR_RSTCTL_RUN then { (w.set F.FLO_XCHG_BUSY 1) with dev := { (w.set F.FLO_XCHG_BUSY 1).dev with busy := Tab.put w.dev.busy (regKey .FLO_XCHG 0) 1 } }
  else (w.set F.FLO_XCHG_BUSY 1).xchgCheck

/-- Step 6 of a Cirque restart: an exchange that waited for it starts, if it still may (R186). -/
def W.xchgResume (w : W) : W :=
  if Tab.has w.dev.busy (regKey .FLO_XCHG 0) then
    ({ w with dev := { w.dev with busy := Tab.del w.dev.busy (regKey .FLO_XCHG 0) } }.set F.FLO_XCHG_BUSY 0).xchgGo
  else w

/-! ### Ends (R150, R152, R153) -/

/-- A segment leaves the loader: INFLIGHT falls and its core is idle. -/
def W.kdrop (w : W) (id : Nat) (g : KSeg) : W :=
  let w := (w.kinflight (wordKid g.word) false).modFlo fun f => { f with segs := Tab.del f.segs id }
  let w := match g.core with
    | none => w
    | some n =>
      let w := w.modCore (.flo n) fun x => { x with active := false, resv := none }
      if (w.unitOf (coreSrc (.flo n))).svc then w.coreStat n 1 0 (w.get F.FLO_CORESTAT_WORLD n) else w.coreStat n 0 0 (w.get F.FLO_CORESTAT_WORLD n)
  w.xchgCheck

/-- A segment's output buffers are scrubbed and released with its input buffers, which a cancellation scrubs as well (R152, R155). -/
def W.kfree (w : W) (g : KSeg) (cancel : Bool := false) : W :=
  let w := ((w.scrubBufs g.outChain).freeBufs g.outChain).dropChain g.ref.txn g.ref.seg cancel
  w.modSeg g.ref.txn g.ref.seg fun s => { s with outChain := [] }

/-- A kernel's tenant fault counts, without wrapping (R483); at FAULTLIM the kernel is SUSPENDED and the kernel interrupt raised (R153). -/
def W.kfaults (w : W) (kid world : Nat) : W :=
  let n := satAdd 32 (w.le (w.kte kid + 0x14) 4) 1
  let lim := w.le (w.kte kid + 0x13) 1
  let w := w.kput kid 0x14 4 n
  if lim ≠ 0 ∧ lim ≤ n ∧ w.kstate kid ≠ 2 then (w.kput kid 0x12 1 2).irq (.kernel kid world) else w

/-- A segment ends with a fault of R152. -/
def W.kfail (w : W) (id : Nat) (g : KSeg) (sub : Nat) : W :=
  let kid := wordKid g.word
  let src := match g.core with | some n => coreSrc (.flo n) | none => source 21 0
  let w := (w.kdrop id g).bump F.FLO_KFAULTCNT_COUNT
  let w := if (1 ≤ sub && sub ≤ 8) || sub = 0xB || sub = 0xC then w.kfaults kid g.world else w
  let w := if sub = 0xA then w else w.report { cls := 0x27, level := 0, src := src, sub := sub, world := g.world, chid := g.chid, detail := kid }
  let w := w.kfree g
  let w := w.outcome g.ref.txn (if sub = 0xB then 1 else 5)
  w.endOp g.ref.txn g.ref.seg false

/-- A fault of the kernel that runs on a core (R152). -/
def W.floeFault (w : W) (n sub : Nat) : W :=
  match w.segOn n with
  | some (id, g) => w.kfail id g sub
  | none => w.modCore (.flo n) fun x => { x with active := false }

/-- Lines of OUT that lie within `n` bytes and were not written are zero (R150). -/
def zeroFill (written : List Nat) (bs : List Byte) : List Byte :=
  bs.mapIdx fun i b => if written.contains (i / 64) then b else 0

/-- SRET with g1 = `v` (R150). -/
def W.kreturn (w : W) (n : Nat) (v : TWord) : W :=
  match w.segOn n with
  | none => w.modCore (.flo n) fun x => { x with active := false }
  | some (id, g) =>
    let k := v.val.toNat
    if v.tag ≠ tINT then w.kfail id g 8
    else if v.val = BitVec.allOnes 64 then w.kfail id g 0xC
    else if g.outChain.length * 4096 < k then w.kfail id g 8
    else
      let w := (w.kdrop id g).bump F.FLO_SEGCNT_COUNT
      let m := bufsFor k
      let w := w.putChain (g.outChain.take m) (zeroFill g.written (w.chainBytes g.outChain k))
      let w := (w.freeBufs (g.outChain.drop m)).freeBufs g.inChain
      let w := w.modSeg g.ref.txn g.ref.seg fun s => { s with
        chain := g.outChain.take m, outChain := [], len := k, stlen := k, empty := s.empty || decide (k = 0) }
      w.endOp g.ref.txn g.ref.seg false

/-! ### Placing (R147, R148, R156, R157) -/

/-- The core that ran an earlier segment of the transaction, while it is in service (R156). -/
def W.txnCore (w : W) (i : Nat) : Option Nat :=
  match w.txn i with
  | none => none
  | some t => (t.segs.findSome? fun s => s.2.core).bind fun n => if (w.unitOf (coreSrc (.flo n))).svc then some n else none

/-- The idle in-service cores with their logical indices. -/
def W.idleFlo (w : W) : List (Nat × Nat) :=
  (List.range w.floLogs).filterMap fun l =>
    let n := w.get F.FLO_MAP_PHYS l
    if w.flag F.FLO_MAP_VALID l && (w.unitOf (coreSrc (.flo n))).svc && (w.segOn n).isNone then some (l, n) else none

/-- The core that a waiting segment can take now (R156). -/
def W.place (w : W) (id : Nat) (g : KSeg) : Option Nat :=
  let earlier := w.dev.flo.segs.any fun p => decide (p.2.ref.txn = g.ref.txn) && decide (p.2.ref.seg < g.ref.seg)
  let shared := decide (wordScope g.word = 1) &&
    (w.dev.flo.segs.any fun p => decide (p.2.chid = g.chid) && decide (p.2.att = g.att) && !p.2.held && (p.2.core.isSome || decide (p.1 < id)))
  if g.core.isSome || g.held || earlier || shared || !w.atHand g.ref then none
  else match w.txnCore g.ref.txn with
    | some n => if (w.segOn n).isNone then some n else none
    | none =>
      let l := w.idleFlo
      match l.find? fun x => w.get F.FLO_CORESTAT_WORLD x.2 = g.world with
      | some x => some x.2
      | none => (l.head?).map Prod.snd

/-- The three window entries of a core for a segment (R147). -/
def W.windows (w : W) (n : Nat) (g : KSeg) : W :=
  let h := 0xFFF000 + 4 * n
  let inE : HEntry := { valid := true, len := g.inLen, world := g.world, r := true, brev := nbits g.word 29 24, chain := some g.inChain }
  let outE : HEntry := { valid := true, len := g.outChain.length * 4096, world := g.world, w := true, chain := some g.outChain }
  let e := w.hread (nbits g.word 23 0)
  let s := w.floLogs
  let i := (w.floLog n).getD 0
  let workE : HEntry := match wordScope g.word with
    | 0 => {}
    | 1 => e
    | _ => { e with len := e.len / s, base := e.base + i * (e.len / s) }
  w.modFlo fun f => { f with windows := Tab.putD {} (Tab.put (Tab.put f.windows h inE) (h + 1) outE) (h + 2) workE }

/-- g5 at segment start (R148). -/
def W.segInfo (w : W) (g : KSeg) : Nat :=
  match w.txn g.ref.txn with
  | none => g.inLen
  | some t => g.inLen + g.ref.seg * 2 ^ 32 + b2n (decide (g.ref.seg = 0)) * 2 ^ 56 + b2n (w.lastSeg g.ref) * 2 ^ 57 + b2n (!t.write) * 2 ^ 58 + b2n t.replayed * 2 ^ 59

/-- The core state at a kernel's first instruction (R148). -/
def W.kregs (w : W) (n : Nat) (g : KSeg) : Tab TWord :=
  let h := 0xFFF000 + 4 * n
  let hnd (i : Nat) : TWord := ⟨tHND, BitVec.ofNat 64 (i * 2 ^ 40)⟩
  let int (v : Nat) : TWord := ⟨tINT, BitVec.ofNat 64 v⟩
  let l : List (Nat × TWord) := [(1, hnd h), (2, hnd (h + 1)), (3, if wordScope g.word = 0 then {} else hnd (h + 2)), (4, int g.param),
    (5, int (w.segInfo g)), (6, int (g.outChain.length * 4096)), (7, int g.budget)]
  l.foldl (fun t p => Tab.putD {} t p.1 p.2) []

/-- Hand a segment to a core: a world switch first where the world differs (R157), or SUSPENDED where the kernel is (R152). -/
def W.handOut (w : W) (id : Nat) (g : KSeg) (n : Nat) : W :=
  let kid := wordKid g.word
  let g := { g with inChain := w.chainNow g.ref g.inChain }
  if w.kstate kid = 2 then w.kfail id g 9
  else
    let sw := w.get F.FLO_CORESTAT_WORLD n ≠ g.world
    let w := if sw then (w.bump F.FLO_SWITCHCNT_COUNT).modCore (.flo n) fun x => { x with dl1 := [], il1 := [] } else w
    let w := w.windows n g
    let pc := BitVec.ofNat 64 (w.le (w.kte kid) 8 + w.le (w.kte kid + 0xC) 4)
    let regs := w.kregs n g
    let w := w.modCore (.flo n) fun x => { x with
      active := true, g := regs, v := [], psw := 0, fpsw := 0, pc := pc, cworld := g.world, resv := none, lrUsed := false, waiting := false,
      hcache := x.hcache.filter fun p => !isWindow p.1 }
    let w := w.modFlo fun f => { f with segs := Tab.modify f.segs id fun x => { x with core := some n, written := [], inChain := g.inChain } }
    let w := (w.takeSeg g.ref).modSeg g.ref.txn g.ref.seg fun s => { s with core := some n }
    (w.coreStat n 3 kid g.world).unstall

/-- SEGMENT_LOAD: the next segment that a core can take, by priority and weighted turns (R156). -/
def execSegmentLoad (s : State) : Host.Outcome State Fault Refusal :=
  lift (fun w =>
    let l := w.dev.flo.segs.filterMap fun p => (w.place p.1 p.2).map fun n => (p.1, p.2, n)
    match w.wrr w.dev.flo.wrr fun p => l.any fun x => x.2.1.prio = p with
    | none => w
    | some (p, x) => match l.find? fun y => y.2.1.prio = p with
      | none => w
      | some (id, g, n) => (w.modFlo fun f => { f with wrr := x }).handOut id g n) s

/-! ### Limits, core faults and cancellation (R151, R154, R155) -/

/-- KERNEL_BUDGET: the kernel on physical core `n` reaches its budget. -/
def execKernelBudget (n : Nat) (s : State) : Host.Outcome State Fault Refusal :=
  lift (fun w => match w.segOn n with
    | some (id, g) => w.kfail id g 4
    | none => w) s

/-- A Floe core leaves service: its cluster's spare takes its logical index, or the index is retired (R344, R345). Clusters are nine
consecutive physical cores. -/
def W.floOut (w : W) (n : Nat) : W :=
  let w := w.unitOut (coreSrc (.flo n))
  let w := w.coreStat n 0 0 (w.get F.FLO_CORESTAT_WORLD n)
  match w.floLog n with
  | none => w
  | some l =>
    match (upto (n / 9 * 9) 9).find? fun p => (w.unitOf (coreSrc (.flo p))).spare with
    | some p => ((w.set F.FLO_MAP_PHYS p l).setUnit (coreSrc (.flo p)) { svc := true }).coreStat p 1 0 (w.get F.FLO_CORESTAT_WORLD p)
    | none => w.set F.FLO_MAP_VALID 0 l

/-- A core fault: FLO.CORE, the core leaves service, and its segment runs again once on another core, or ends with subcode CORE (R154). -/
def W.floCoreFault (w : W) (n : Nat) : W :=
  let seg := w.segOn n
  let (wid, chid) := match seg with | some (_, g) => (g.world, g.chid) | none => (0xFFFF, 0)
  let final := match seg with | some (_, g) => g.rerun || decide (wordScope g.word = 1) | none => false
  let w := w.report { cls := 0x26, level := 1, src := coreSrc (.flo n), sub := if final then 0xA else 0, world := wid, chid := chid }
  let w := w.floOut n
  match seg with
  | none => w
  | some (id, g) =>
    if final then w.kfail id g 0xA
    else
      let w := (w.modCore (.flo n) fun x => { x with active := false }).modFlo fun f =>
        { f with segs := Tab.modify f.segs id fun x => { x with core := none, rerun := true, written := [] } }
      (w.untakeSeg g.ref).modSeg g.ref.txn g.ref.seg fun s => { s with core := none }

/-- LOADER_WATCHDOG: the core has not stopped; treated as a core fault (R151). -/
def execLoaderWatchdog (n : Nat) (s : State) : Host.Outcome State Fault Refusal :=
  lift (fun w => if (w.segOn n).isSome then w.floCoreFault n else w) s

/-- FLOE_CORE_FAULT: a fault of physical core `n`. -/
def execFloeCoreFault (n : Nat) (s : State) : Host.Outcome State Fault Refusal :=
  lift (fun w => if (w.unitOf (coreSrc (.flo n))).svc ∧ n < w.xm 288 144 then w.floCoreFault n else w) s

/-- SEGMENT_CANCEL: segment `g` of a transaction whose outcome is fixed is removed or stopped (R155). -/
def execSegmentCancel (g : Nat) (s : State) : Host.Outcome State Fault Refusal :=
  lift (fun w => match Tab.find? w.dev.flo.segs g with
    | none => w
    | some x => match w.txn x.ref.txn with
      | none => w
      | some t =>
        if t.status.isNone then w
        else ((w.kdrop g x).kfree x true).endOp x.ref.txn x.ref.seg false) s

end Sys2Proof.Machine
end

