-- ==== Sys2Proof/Machine/Partner.lean ====
section
/-! DEFINITION. Serving and withdrawing segments, replay of the mirror ring, pairing, decisions, take-over, resynchronisation and
return (R88 to R91, R315, R322 to R336, R395). -/

namespace Sys2Proof.Machine

open Sys2Proof

/-! ### Endpoints (R330, R395) -/

/-- The segment of a queue pair: that of its address entry (R395). -/
def W.qpSeg (w : W) (q : Nat) : Nat :=
  let a := match w.qp q with | some x => x.ctx.getD 42 0 % 4 | none => 0
  w.get F.ETH_ADDR_W1_SEG (q / 2 ^ 24 * 4 + a)

/-- The gratuitous announcements of a segment's entries on a port (R395). -/
def W.announce (w : W) (s p : Nat) : W :=
  (List.range 4).foldl (fun (w : W) (a : Nat) =>
    if w.portOn p && w.flag F.ETH_ADDR_W1_EN (p * 4 + a) && decide (w.get F.ETH_ADDR_W1_SEG (p * 4 + a) = s) then w.ethSend p 0 (.eth p 2 a) else w) w

/-- Gate FABRIC[s] opens: every entry of the segment announces itself, and again 1 s later (R395). -/
def W.openSeg (w : W) (s : Nat) : W :=
  (List.range 32).foldl (fun (w : W) (p : Nat) =>
    if w.portOn p then (w.announce s p).modEth p fun e => { e with garp := e.garp ++ [(s, w.now)] } else w) w

/-- Gate FABRIC[s] closes: the segment's endpoints are withdrawn and its queue pairs are lost (R77, R329, R395). -/
def W.closeSeg (w : W) (s : Nat) : W :=
  (w.dev.qps.keysWhere fun _ x => 2 ≤ x.state ∧ x.state ≤ 3).foldl (fun (w : W) (q : Nat) => if w.qpSeg q = s then w.qpLost q else w) w

/-- Apply a change, and open or withdraw the endpoints of the segments whose gate it moves. -/
def W.gated (w : W) (f : W → W) : W :=
  let w' := f w
  [0, 1].foldl (fun (x : W) (s : Nat) =>
    if !w.gateFabric s && w'.gateFabric s then x.openSeg s
    else if w.gateFabric s && !w'.gateFabric s then x.closeSeg s else x) w'

/-- Set PLK.SEG.SERVE. -/
def W.setServe (w : W) (v : Nat) : W := w.gated fun w => w.set F.PLK_SEG_SERVE v

/-! ### Replay (R89 to R91) -/

/-- The transaction that a record header names (R80): its REPLAYED flag says whether replay decided its outcome. -/
def Txn.ofHead (h : List Byte) (slots : List Nat) (dat : List Byte) : Txn :=
  let fl := leAt h 11 1
  { jsn := leAt h 0 8, write := decide (leAt h 9 1 = 1), chid := leAt h 12 4, world := leAt h 16 2, prio := leAt h 18 1 % 4, ver := leAt h 19 1,
    ctag := leAt h 20 4, seq := leAt h 24 8, offset := leAt h 32 8, length := leAt h 40 8, raddr := leAt h 48 8, rkey := leAt h 56 4,
    kepoch := leAt h 60 2, deadline := leAt h 64 8, tsacc := leAt h 72 8, tsout := leAt h 80 8, digest := leAt h 88 8, bytes := leAt h 96 8,
    dataFlag := nbit fl 0, digested := nbit fl 2, inline := if nbit fl 1 then some (dat.take (leAt h 40 8)) else none,
    data := if nbit fl 0 then dat.take (leAt h 40 8) else [], slots := slots, replayed := nbit fl 4, intentOk := true, acceptSent := true }

/-- The slots of a record from its header (R80). -/
def headSlots (head : Nat) (h : List Byte) : List Nat := head :: (List.range (min 4 (leAt h 62 2))).map fun i => leAt h (104 + 2 * i) 2

/-- A record of the mirror ring, or of the active ring: whether its header is whole, its RSTATE and STATUS, and its transaction. -/
def W.ringRec (w : W) (own : Bool) (jsn head : Nat) : Bool × Nat × Nat × Txn :=
  let base := if own then w.base F.CHN_JBASE_BASE else w.base F.CHN_JMBASE_BASE
  let h := w.bytes (base + head * 4096) 256
  let slots := headSlots head h
  let dat := w.bytes (base + head * 4096 + 256) 3840 ++ (slots.drop 1).flatMap fun s => w.bytes (base + s * 4096) 4096
  (decide (crc64 (h.take 248) = leAt h 248 8) && decide (leAt h 0 8 = jsn) && decide (leAt h 8 1 ≤ 4), leAt h 8 1, leAt h 10 1,
   { Txn.ofHead h slots dat with inMirror := !own })

/-- Make a replayed channel resident and OPEN, when it validates (R91). -/
def W.replayChan (w : W) (c : Nat) : W × Bool :=
  match w.chan c with
  | some _ => (w.rebuildChan c, true)
  | none =>
    match w.ctxRead c with
    | none => (w, false)
    | some b =>
      let y := Chan.parse b
      if !Chan.valid b c || !w.progOk y then (w, false)
      else match w.ctxRoom y.prio with
        | none => (w, false)
        | some w => (w.ctxPut c { y with state := 1, crpver := 0, inflight := 0, avail := y.subcred, dirty := true }, true)

/-- Take one record over (R89, R90). A record whose RCRC does not check is reported and takes REPLAYFAIL (R80). Its slots stay in the mirror ring as
adopted ones, or in the active ring for a module's own record (R88, R332). -/
def W.replayOne (w : W) (own : Bool) (jsn head : Nat) : W :=
  let (ok, rst, st, t) := w.ringRec own jsn head
  if ok && (rst = 0 || rst = 2) then w
  else
    let w := if ok then w else w.report { cls := 0x1C, level := 2, src := source 21 2, chid := t.chid, detail := jsn }
    let (w, op) := w.replayChan t.chid
    let w := w.modChan t.chid fun c => c.accept t.seq
    let i := w.dev.nextTxn
    let w := { w with dev := { w.dev with nextTxn := i + 1 } }
    let w :=
      if own then
        ({ w with dev := { w.dev with jslots := t.slots.foldl (fun j s => Tab.put j s t.chid) w.dev.jslots, jsn := max w.dev.jsn (jsn + 1) } }).jstat
      else w.modPlk fun p => { p with adopted := t.slots ++ p.adopted }
    let put (w : W) (t : Txn) : W := { w with dev := { w.dev with txns := Tab.put w.dev.txns i t } }
    if !ok || (!op && rst = 1) then
      let t := { t with st := .done, status := some 7, replayed := true, tsout := w.now }
      (put w t).publishState t 4
    else if rst = 4 then put w { t with st := .done, status := some st }
    else if rst = 3 then
      let t := { t with st := .done, status := some st }
      (put w t).publishState t 4
    else
      let client := !(t.write && t.dataFlag)
      let w := w.modChan t.chid fun c => { c with inflight := c.inflight + 1, avail := c.avail - 1, replayWait := if client && c.replayWait.isNone then some w.now else c.replayWait }
      put w { t with st := .queued, wait := if client then .client else .engine, replayed := true }

/-- The channels of these segments have their sequence states rebuilt before they take a SUBMIT (R89). -/
def W.rebuildSegs (w : W) (seg : Nat → Bool) : W :=
  let w := w.modPlk fun p => { p with rebuild := [0, 1].filter seg, rebuilt := [] }
  w.dev.chans.keys.foldl (fun (w : W) (c : Nat) => if Tab.exists? w.dev.txns fun _ t => decide (t.chid = c) then w else w.rebuildChan c) w

/-- Classify the mirrored records of the segments that `seg` admits, in JSN order (R89, R90, R332 step 4). -/
def W.replayMirror (w : W) (seg : Nat → Bool) : W :=
  let mine := w.dev.plk.mirror.filter fun p => seg (w.chSeg (w.le (w.base F.CHN_JMBASE_BASE + p.2.1 * 4096 + 12) 4))
  let w := w.modPlk fun p => { p with mirror := p.mirror.filter fun x => !(mine.any fun y => y.1 = x.1) }
  mine.foldl (fun (w : W) (p : Nat × Nat × Nat) => w.replayOne false p.1 p.2.1) w

/-- The records in use that the active ring holds, JSN to head slot, by rising JSN. -/
def W.ringHeads (w : W) : Tab Nat :=
  let base := w.base F.CHN_JBASE_BASE
  (w.listedBlocks base 4096 65536).foldl (fun (l : Tab Nat) (h : Nat) =>
    let b := w.bytes (base + h * 4096) 256
    if crc64 (b.take 248) = leAt b 248 8 && decide (1 ≤ leAt b 8 1) && decide (leAt b 8 1 ≤ 4) then Tab.put l (leAt b 0 8) h else l) []

/-- A module that leaves Thaw to serve its segment replays the flush that the firmware has loaded into its active ring: every whole record that the ring
holds, in JSN order (R88, R90, assumption 101). -/
def W.replayOwn (w : W) : W :=
  match w.ringHeads with
  | [] => w
  | l => l.foldl (fun (w : W) (p : Nat × Nat) => w.replayOne true p.1 p.2) (w.rebuildSegs fun s => s = w.home)

/-! ### Losing and gaining the partner (R324, R328, R332) -/

/-- The link no longer carries a pair: messages not yet consumed are dropped, and it trains again (R332, R336). -/
def W.unpair (w : W) : W :=
  let w := (w.set F.PLK_STAT_PAIRED 0).set F.PLK_STAT_RESYNC 0
  let w := if w.get F.PLK_STAT_LINK = 0 then w else w.set F.PLK_STAT_LINK 1
  (w.set F.SYS_READY_PARTNER 0).modPlk fun p => { p.restart with
    helloSeen := false, lastHb := none, heard := [], missed := [], judged := none, resyncLeft := [], resyncSent := false
    returning := none, returnAsked := false, handbackSent := false }

/-- Record a decision (R328). -/
def W.decided (w : W) (reason : Nat) : W :=
  let w := ((w.set F.PLK_STAT_DECIDE 1).set F.PLK_STAT_REASON reason).set F.SYS_MODETS_TS w.now
  w.report { cls := 0x38, level := 1, src := source 16 0, sub := reason }

/-- The transactions that waited for JACK write their records to the journal namespaces instead, and those that waited for flits to
leave go on (R84, R332). -/
def W.goDegraded (w : W) : W :=
  let w := (w.dev.txns.keysWhere fun _ t => t.waitsFor .ack).foldl (fun (w : W) (i : Nat) =>
    match w.txn i with
    | some t => (w.modTxn i fun t => t.unwait .ack).sendIntent i (t.wait ≠ .ack)
    | none => w) w
  w.wakeLink

/-- A take-over (R332): Degraded, GEN, both segments, preempts where the partner's key is known, and the mirror ring classified. -/
def W.takeOver (w : W) (reason : Nat) : W :=
  let was := [0, 1].filter w.serves
  let w := w.decided reason
  let w := w.unpair
  let w := if w.cur = mDEGRADED then w else w.transition mDEGRADED
  let w := (w.setGen ((w.gen + 1) % 4096)).modPlk fun p => { p with lastRow := false, preempts := if p.known then w.shns else [] }
  let w := (w.setServe 3).registerAll
  ((w.goDegraded).rebuildSegs fun s => !was.contains s).replayMirror fun _ => true

/-- Entry into Standby (R329). -/
def W.enterStandby (w : W) : W :=
  let w := (w.dev.txns.keysWhere fun _ t => t.early && t.load.isNone && !(t.st = .done)).foldl (fun (w : W) (i : Nat) => w.endEarly i 6 true) w
  let w := (w.dev.txns.keysWhere fun _ t => t.load.isNone).foldl (fun (w : W) (i : Nat) => (w.orphan i).dropTxn i) w
  let w := ({ w with dev := { w.dev with jslots := [] } }.jstat).modPlk fun p => { p with adopted := [], lastRow := false, rebuild := [], rebuilt := [] }
  let w := w.setServe 0
  let w := (w.dev.chans.keysWhere fun _ c => c.dirty).foldl (fun (w : W) (c : Nat) => w.writeBack c) w
  let w := { w with dev := { w.dev with chans := [] } }
  (w.closeSas).transition mSTANDBY

/-- The last row of R328: Degraded, serving only the home segment, SHARED closed. -/
def W.homeOnly (w : W) : W :=
  let w := (w.decided 4).unpair
  let w := if w.cur = mDEGRADED then w else w.transition mDEGRADED
  let w := w.modPlk fun p => { p with lastRow := true }
  (w.setServe (w.get F.PLK_SEG_SERVE % 4 &&& 2 ^ w.home)).goDegraded

/-- The witness buses: those set in PLK.CTL.WIT that are in service (R327). -/
def W.witBuses (w : W) : List Nat := (List.range 4).filter fun n => nbit (w.get F.PLK_CTL_WIT) n && w.flag F.SAS_CTL_EN n

/-- The decision under a silent link (R328); from Standby only partner loss moves the module, and Degraded is never left by one (R24). -/
def W.linkDecision (w : W) : W :=
  let j := w.dev.plk.judged
  let noWit := w.witBuses.isEmpty
  let m := w.cur
  -- a segment whose HANDBACK is not acknowledged is the sender's own again (R336)
  let back (w : W) : W := match w.dev.plk.returning with
    | some s => if w.dev.plk.handbackSent then w.setServe (w.get F.PLK_SEG_SERVE ||| 2 ^ s) else w
    | none => w
  if !w.flag F.PLK_STAT_SILENT || w.dev.plk.lastHb.isNone || m = mRESET || m = mTHAW || (!noWit && j.isNone) then w
  else
    let w := back w
    let w := if m = mMAINT then w.rollLoops else w
    let loss := j = some false || (noWit && w.weWin)
    if m = mSTANDBY then (if loss then w.takeOver 1 else if noWit then ((w.decided 4).unpair).modPlk fun p => { p with lastRow := true } else (w.decided 3).unpair)
    else if loss then w.takeOver 1
    else if w.weWin then w.takeOver 2
    else if m = mDEGRADED then (w.unpair).goDegraded
    else if noWit then w.homeOnly
    else ((w.decided 3).unpair).enterStandby

/-- LINK_DECISION. -/
def execLinkDecision (s : State) : Host.Outcome State Fault Refusal := lift W.linkDecision s

/-- LINK_SILENCE: 50 µs without a valid HEARTBEAT (R326). -/
def execLinkSilence (s : State) : Host.Outcome State Fault Refusal :=
  lift (fun w => match w.dev.plk.lastHb with
    | some t =>
      if w.now < t + 50000 ∨ w.flag F.PLK_STAT_SILENT then w
      else (w.set F.PLK_STAT_SILENT 1).report { cls := 0x38, level := 1, src := source 16 0 }
    | none => w) s

/-- WITNESS_JUDGE: alive when any witness bus carried a frame of the partner since the last HEARTBEAT, silent when every one missed one
that was due (R327). -/
def execWitnessJudge (s : State) : Host.Outcome State Fault Refusal :=
  lift (fun w =>
    let p := w.dev.plk
    if !w.flag F.PLK_STAT_SILENT || w.witBuses.isEmpty then w
    else if w.witBuses.any fun n => p.heard.contains n then w.modPlk fun p => { p with judged := some true }
    else if w.witBuses.all fun n => p.missed.contains n then w.modPlk fun p => { p with judged := some false }
    else w) s

/-! ### Resynchronisation (R334) -/

/-- The record and data of a transaction as they stand in its ring: the body of a RECORD message (R320). -/
def W.recordBody (w : W) (t : Txn) : List Byte :=
  let base := w.jBase t
  let n := if t.dataFlag then t.data.length else 0
  w.bytes (base + t.slots.headD 0 * 4096) 256 ++
    ((w.bytes (base + t.slots.headD 0 * 4096 + 256) 3840 ++ (t.slots.drop 1).flatMap fun s => w.bytes (base + s * 4096) 4096).take n)

/-- Send the next copies while the journal channels have nothing waiting; after the last, RESYNCDONE, and a Degraded module returns to
its service mode (R24, R334). -/
def W.resyncN : Nat → W → W
  | 0, w => w
  | n + 1, w =>
    let p := w.dev.plk
    let free := (p.waiting.getD 0 []).isEmpty && (p.waiting.getD 1 []).isEmpty
    if !w.paired || !w.flag F.PLK_STAT_RESYNC || p.resyncSent || w.cur ≠ mDEGRADED || !free then w
    else match p.resyncLeft with
      | [] =>
        let w := w.plkSend 2 0x14 0 0 []
        let w := (w.set F.PLK_STAT_RESYNC 0).modPlk fun p => { p with resyncSent := true, doneAt := w.now }
        w.transition w.serviceMode
      | jsn :: rest =>
        let w := w.modPlk fun p => { p with resyncLeft := rest }
        match Tab.first? w.dev.txns fun _ t => decide (t.jsn = jsn) && !t.slots.isEmpty with
        | some (_, t) => W.resyncN n (w.plkSend t.vc 1 (t.slots.headD 0) t.jsn (w.recordBody t))
        | none => W.resyncN n w

/-- Whatever the link lets go on: waiting flits, the copy, and the transactions that waited for flits to leave. -/
def W.linkGo (w : W) : W :=
  let w := w.pump
  (W.resyncN (w.dev.plk.resyncLeft.length + 2) w).wakeLink

/-- Insert in rising order. -/
def natInsert (x : Nat) : List Nat → List Nat
  | [] => [x]
  | y :: t => if x ≤ y then x :: y :: t else y :: natInsert x t

/-! ### Training and pairing (R315, R318, R323, R324) -/

/-- HELLO's payload (R323). -/
def W.helloPayload (w : W) : List Byte :=
  leBytes 1 1 ++ leBytes 1 (w.get F.PLK_CTL_VMAX) ++ leBytes 1 w.home ++ leBytes 1 w.cur ++ beBytes 8 w.fuse.idrev.toNat ++ beBytes 16 w.fuse.serno ++
    beBytes 4 (w.get F.KDF_ROOTID_ID) ++ beBytes 2 (w.get F.PLK_CLAIM_OWN) ++ leBytes 1 (w.get F.PLK_SEG_SERVE) ++ beBytes 3 (w.get F.PLK_CHSPLIT_SPLIT)

/-- Why a HELLO does not pair: 1 version, 2 ROOTID, 3 SLOT, 4 SPLIT, 5 CONFIG; 0 when it pairs (R324). -/
def W.pairFail (w : W) (h : List Byte) : Nat :=
  let be (o n : Nat) : Nat := ofBE ((h.drop o).take n)
  if be 1 1 < 1 || w.get F.PLK_CTL_VMAX < be 0 1 || be 1 1 < be 0 1 then 1
  else if be 28 4 ≠ w.get F.KDF_ROOTID_ID then 2
  else if be 2 1 = w.home then 3
  else if be 35 3 ≠ w.get F.PLK_CHSPLIT_SPLIT then 4
  else if nbits (be 4 8) 15 8 ≠ bits w.fuse.idrev 15 8 then 5
  else 0

/-- Pairing succeeds (R24, R324, R325, R331, R334, R336). -/
def W.pair (w : W) (h : List Byte) : W :=
  let be (o n : Nat) : Nat := ofBE ((h.drop o).take n)
  let w := w.modPlk fun p => { p.restart with
    helloSeen := true, pSlot := be 2 1, pMode := be 3 1, pServe := be 34 1, pSerno := be 12 16, known := true, lastHb := some w.now
    heard := [], missed := [], judged := none, resyncSent := false, lastRow := false }
  let w := (w.set F.PLK_CLAIM_PARTNER (be 32 2)).set F.PLK_STAT_VERSEL (min (be 1 1) (w.get F.PLK_CTL_VMAX))
  let w := (((w.set F.PLK_STAT_LINK 2).set F.PLK_STAT_PAIRED 1).set F.PLK_STAT_SILENT 0).set F.SYS_READY_PARTNER 1
  let served := nbit (be 34 1) w.home
  let standby := served && !w.dev.plk.forced
  let m := w.cur
  let w := w.modPlk fun p => { p with forced := false }
  let gen (w : W) : W := w.setGen ((be 32 2 % 4096 + 4095) % 4096)
  let w :=
    if standby && (m = mTHAW || m = mSTANDBY) then gen w
    else if standby && !w.weWin && (m = mDEGRADED || isService m) then gen w.enterStandby
    else w
  let w := w.set F.PLK_STAT_RESYNC (b2n (decide (w.cur = mDEGRADED) || decide (be 3 1 = mDEGRADED)))
  let w := if w.cur = mDEGRADED then
      let js := (w.dev.txns.filter fun p => !p.2.slots.isEmpty).foldl (fun l p => natInsert p.2.jsn l) []
      w.modPlk fun p => { p with resyncLeft := js, mirror := [] }
    else w.modPlk fun p => { p with mirror := if be 3 1 = mDEGRADED then [] else p.mirror }
  (w.registerAll).linkGo

/-- A HELLO is heard in training (R323, R324). -/
def W.hello' (w : W) (h : List Byte) : W :=
  if w.paired || !w.dev.plk.fec || w.dev.plk.helloSeen then w
  else
    let why := w.pairFail h
    if why = 0 then w.pair h
    else
      let w := w.modPlk fun p => { p with helloSeen := true }
      ((w.set F.PLK_STAT_LINK 2).set F.PLK_STAT_PAIRFAIL 1).report { cls := 0x37, level := 0, src := source 16 0, sub := why }

/-- Whether the link may run: enabled and the partner fitted (R315). -/
def W.linkOn (w : W) : Bool := w.flag F.PLK_CTL_EN && w.dev.plk.present

/-- The link goes down or into training with EN and PTN_PRES_N (R315). -/
def W.linkFollow (w : W) : W :=
  if !w.linkOn then
    (((w.set F.PLK_STAT_LINK 0).set F.PLK_STAT_PAIRED 0).set F.SYS_READY_PARTNER 0).modPlk fun p => { p with fec := false, helloSeen := false }
  else if w.get F.PLK_STAT_LINK = 0 then w.set F.PLK_STAT_LINK 1
  else w

/-- PTN_PRES_CHANGE: the level of PTN_PRES_N; low means that the partner is fitted. -/
def execPtnPresChange (high : Bool) (s : State) : Host.Outcome State Fault Refusal :=
  lift (fun w => (w.modPlk fun p => { p with present := !high }).linkFollow) s

/-- FEC_LOCK: codeword lock is gained in training; the one-way delay is measured (R323, R361). -/
def execFecLock (delay : Nat) (s : State) : Host.Outcome State Fault Refusal :=
  lift (fun w =>
    if !w.linkOn || w.cur = mRESET || w.get F.PLK_STAT_LINK ≠ 1 then w else w.modPlk fun p => { p with fec := true, helloSeen := false, delay := delay }) s

/-- PLK_HELLO_TIMER: HELLO is sent until one is received (R323). -/
def execPlkHelloTimer (s : State) : Host.Outcome State Fault Refusal :=
  lift (fun w => if w.dev.plk.fec && !w.dev.plk.helloSeen && w.linkOn then w.putFlit 0x10 0 0 w.helloPayload else w) s

/-- Send every unacknowledged flit again from one on, in order (R317, R318). -/
def W.resendFrom (w : W) (fs : List PlkFlit) : W :=
  let w := fs.foldl (fun (w : W) (f : PlkFlit) => w.putFlit 1 f.vcf f.seq f.payload) w
  (w.bump F.PLK_REPLAYCNT_COUNT).event .port 40 0x205 1 0xFFFF

/-- The link retrains: both buffers and E are kept (R318). -/
def W.retrain (w : W) : W :=
  (((w.set F.PLK_STAT_LINK 3).modPlk fun p => { p with replays := 0 })).report { cls := 0x38, level := 1, src := source 16 0 }

/-- A replay; the eighth in a row without progress retrains the link (R317, R318). -/
def W.replayFlits (w : W) (fs : List PlkFlit) : W :=
  if fs.isEmpty then w
  else
    let w := (w.resendFrom fs).modPlk fun p => { p with replays := p.replays + 1 }
    if 8 ≤ w.dev.plk.replays then w.retrain else w

/-- PLK_REPLAY_TIMEOUT (R317). -/
def execPlkReplayTimeout (s : State) : Host.Outcome State Fault Refusal :=
  lift (fun w => if w.get F.PLK_STAT_LINK = 2 then w.replayFlits w.dev.plk.replay else w) s

/-- FEC_LOCK_LOSS (R318). -/
def execFecLockLoss (s : State) : Host.Outcome State Fault Refusal :=
  lift (fun w =>
    if w.get F.PLK_STAT_LINK = 2 then w.retrain
    else if w.get F.PLK_STAT_LINK = 1 then w.modPlk fun p => { p with fec := false } else w) s

/-- A fault of level 2 or higher is unacknowledged. -/
def W.grave (w : W) : Bool := (List.range 64).any fun c => w.flag F.MOR_CLS_PEND c && decide (2 ≤ w.get F.MOR_CLS_LEVEL c)

/-- HOLD of R335 counts from now: the modules have run without interruption since (R335 step 1). -/
def W.holdAnew (w : W) : W := if w.dev.plk.resyncSent then w.modPlk fun p => { p with doneAt := w.now } else w

/-- RETRAIN_DONE: sending resumes from the last acknowledged flit, or the link stays down (R318). -/
def execRetrainDone (ok : Bool) (s : State) : Host.Outcome State Fault Refusal :=
  lift (fun w =>
    if w.get F.PLK_STAT_LINK ≠ 3 then w
    else if !ok then w.set F.PLK_STAT_LINK 0
    else if !w.paired then (w.set F.PLK_STAT_LINK 1).modPlk fun p => { p with fec := true, helloSeen := false }
    else
      let w := (w.set F.PLK_STAT_LINK 2).holdAnew
      let fs := w.dev.plk.replay
      (fs.foldl (fun (w : W) (f : PlkFlit) => w.putFlit 1 f.vcf f.seq f.payload) w).linkGo) s

/-- RETRAIN_RETRY: 1 ms after a failed retrain (R318). -/
def execRetrainRetry (s : State) : Host.Outcome State Fault Refusal :=
  lift (fun w => if w.linkOn ∧ w.get F.PLK_STAT_LINK = 0 then w.set F.PLK_STAT_LINK 3 else w) s

/-! ### Return (R335) -/

/-- Step 1 of R335 but for HOLD. -/
def W.mayReturn (w : W) : Bool :=
  w.paired && w.get F.PLK_STAT_LINK = 2 && w.dev.plk.resyncSent && !w.grave && w.get F.PLK_SEG_SERVE = 3 && w.dev.plk.returning.isNone

/-- RETURN_HOLD_EXPIRY: admission for the partner's segment stops (R335 steps 1 and 2). -/
def execReturnHoldExpiry (s : State) : Host.Outcome State Fault Refusal :=
  lift (fun w =>
    if w.mayReturn && (w.flag F.PLK_RETCTL_AUTO || w.dev.plk.returnAsked) && decide (w.dev.plk.doneAt + w.get F.PLK_RETCTL_HOLD * 1000000000 ≤ w.now) then
      w.modPlk fun p => { p with returning := some (1 - w.home), returnAt := w.now, returnAsked := false }
    else w) s

/-- The transactions of a segment. -/
def W.segTxns (w : W) (s : Nat) : List Nat := w.dev.txns.keysWhere fun _ t => decide (w.chSeg t.chid = s) && t.load.isNone

/-- RETURN_DRAIN_END: every accepted transaction of the segment is DONE, or DRAIN ms have passed: those still running stop, HANDBACK is
sent and the endpoints are withdrawn (R335 steps 3 and 4). -/
def execReturnDrainEnd (s : State) : Host.Outcome State Fault Refusal :=
  lift (fun w => match w.dev.plk.returning with
    | none => w
    | some g =>
      let ts := w.segTxns g
      let run := ts.filter fun i => match w.txn i with | some t => t.accepted && decide (t.st ≠ .done) | none => false
      if w.dev.plk.handbackSent || (!run.isEmpty && decide (w.now < w.dev.plk.returnAt + w.get F.PLK_RETCTL_DRAIN * 1000000)) then w
      else
        let w := run.foldl (fun (w : W) (i : Nat) => w.restart i) w
        let top := ts.foldl (fun m i => match w.txn i with | some t => if t.slots.isEmpty then m else max m t.jsn | none => m) 0
        let w := w.plkSend 2 0x12 0 top (leBytes 1 g ++ zeros 7)
        let w := w.modPlk fun p => { p with handbackSent := true }
        w.setServe (w.get F.PLK_SEG_SERVE % 4 &&& (3 - 2 ^ g))) s

/-- HANDBACK is accepted by the home module (R335 step 5). -/
def W.handback (w : W) (g : Nat) : W :=
  let w := w.setGen ((w.gen + 1) % 4096)
  let w := (w.setServe (w.get F.PLK_SEG_SERVE ||| 2 ^ g)).registerAll
  let w := (w.rebuildSegs fun s => s = g).replayMirror fun s => s = g
  let w := w.plkSend 2 0x13 0 0 (leBytes 1 g ++ zeros 7)
  if w.cur = mSTANDBY then w.gated fun w => w.transition w.serviceMode else w

/-- HBACK: the segment's records are dropped without FREE (R335 step 6). -/
def W.hback (w : W) (g : Nat) : W :=
  if w.dev.plk.returning ≠ some g then w
  else
    let w := (w.segTxns g).foldl (fun (w : W) (i : Nat) =>
      match w.txn i with | some t => ((w.orphan i).freeSlots t).dropTxn i | none => w) w
    let w := (w.dev.chans.keysWhere fun c _ => w.chSeg c = g).foldl (fun (w : W) (c : Nat) =>
      let w := w.writeBack c
      { w with dev := { w.dev with chans := Tab.del w.dev.chans c } }) w
    w.modPlk fun p => { p with returning := none, handbackSent := false, rebuild := p.rebuild.filter (· ≠ g) }

/-! ### PLK.CMD (R318, R328, R335) -/

/-- FORCE: only on a module in the last row of R328, which a level 3 fault takes out of it (R24). -/
def W.plkForce (w : W) : Option W :=
  if w.dev.plk.lastRow && decide (w.cur ≠ mRESET) && decide (w.cur ≠ mTHAW) then some ((w.takeOver 5).modPlk fun p => { p with forced := true }) else none

/-- RETURN: only with AUTO = 0 and step 1 of R335 met. -/
def W.plkReturn (w : W) : Option W :=
  if !w.flag F.PLK_RETCTL_AUTO && w.mayReturn && decide (w.dev.plk.doneAt + w.get F.PLK_RETCTL_HOLD * 1000000000 ≤ w.now) then
    some (w.modPlk fun p => { p with returnAsked := true })
  else none

/-- RETRAIN. -/
def W.plkRetrain (w : W) : Option W := if w.get F.PLK_STAT_LINK = 2 then some w.retrain else none

end Sys2Proof.Machine
end

