-- ==== Sys2Proof/Machine/Plk.lean ====
section
/-! DEFINITION. Flits and messages received on the partner link (R316, R317, R319 to R322, R325, R326, R334 to R336). -/

namespace Sys2Proof.Machine

open Sys2Proof

/-- A received flit's 256 bytes and its fields (R316). -/
structure Flit where
  /-- FTYPE. -/
  ftype : Nat
  /-- VCF. -/
  vcf : Nat
  /-- FSEQ. -/
  fseq : Nat
  /-- ACKSEQ. -/
  ack : Nat
  /-- Virtual channel whose credits return. -/
  crvc : Nat
  /-- Credits returned. -/
  crcnt : Nat
  /-- The 240 payload bytes. -/
  payload : List Byte
  /-- 256 bytes, the FCRC checks and FTYPE is not reserved. -/
  ok : Bool
  deriving DecidableEq, Repr

/-- Read a flit. -/
def Flit.parse (b : List Byte) : Flit :=
  let be (o n : Nat) : Nat := ofBE ((b.drop o).take n)
  let t := be 0 1
  { ftype := t, vcf := be 1 1, fseq := be 2 2, ack := be 4 2, crvc := be 6 1 / 16, crcnt := be 7 1, payload := (b.drop 8).take 240,
    ok := decide (b.length = 256) && decide (crc64 (b.take 248) = be 248 8) && (t = 0 || t = 1 || t = 2 || t = 0x10 || t = 0x11) }

/-- One NAK for the present gap (R317). -/
def W.nakOnce (w : W) : W :=
  if w.dev.plk.nakSent || !w.paired then w
  else ((w.putFlit 2 0 w.dev.plk.expect []).modPlk fun p => { p with nakSent := true }).bump F.PLK_NAKCNT_COUNT

/-- The cumulative acknowledgement: flits up to `n` leave the replay buffer (R316, R317). -/
def PlkSt.ack (p : PlkSt) (n : Nat) : PlkSt :=
  match p.replay.findIdx? fun f => f.seq = n with
  | some i => { p with replay := p.replay.drop (i + 1), replays := 0 }
  | none => p

/-- Acknowledgement and credits that a flit carries (R316, R319). -/
def W.flitBack (w : W) (f : Flit) : W :=
  (w.modPlk fun p => { p.ack f.ack with
    credits := if f.crvc < 4 then p.credits.set f.crvc (p.credits.getD f.crvc 0 + f.crcnt) else p.credits }).linkGo

/-- Receive a flit of one type: a damaged flit, or one of a reserved type, is discarded with a NAK (R316, R317). Nothing is received while
the link is not up or in training. -/
def W.flitRow (w : W) (type : Nat) (b : List Byte) (f : W → Flit → W) : W :=
  let x := Flit.parse b
  let l := w.get F.PLK_STAT_LINK
  if !(l = 1 || l = 2) || w.cur = mRESET then w
  else
    let w := w.event .port 40 0x200 256 0xFFFF
    if !x.ok then w.nakOnce
    else if x.ftype ≠ type then w
    else if type = 0x10 then f w x
    else if !w.paired then w
    else f (w.flitBack x) x

/-- Whether a message type belongs on a virtual channel (R319, R320). -/
def mtypeOk (t vc : Nat) : Bool :=
  if t = 1 || t = 2 || t = 3 || t = 4 then decide (vc < 2)
  else if 0x10 ≤ t && t ≤ 0x14 then decide (vc = 2)
  else decide (t = 0x20) && decide (vc = 3)

/-- Return the credits of a consumed message; they ride on the next flit (R316, R319). -/
def W.consumed (w : W) (vc n : Nat) : W := w.modPlk fun p => { p with owed := p.owed.set vc (p.owed.getD vc 0 + n) }

/-- Put a taken DATA flit into the message of its channel; a whole message waits to be consumed, and one of a reserved type is consumed
and reported at once (R319, R320). -/
def W.takeFlit (w : W) (x : Flit) : W :=
  let vc := x.vcf / 16 % 4
  let som := nbit x.vcf 3
  let (old, n) := w.dev.plk.rx.getD vc ([], 0)
  let msg := if som then x.payload else old ++ x.payload
  let cnt := if som then 1 else n + 1
  if !nbit x.vcf 2 then w.modPlk fun p => { p with rx := p.rx.set vc (msg, cnt) }
  else
    let w := w.modPlk fun p => { p with rx := p.rx.set vc ([], 0) }
    if mtypeOk (leAt msg 0 1) vc then w.modPlk fun p => { p with inbox := p.inbox.set vc (p.inbox.getD vc [] ++ [(msg, cnt)]) }
    else (w.consumed vc cnt).report { cls := 0x36, level := 1, src := source 16 0, detail := leAt msg 0 1 }

/-- A DATA flit: taken in order, dropped as a repeat with an acknowledgement at once, or NAKed (R317). -/
def W.dataFlit (w : W) (x : Flit) : W :=
  let e := w.dev.plk.expect
  let back := (e + 65536 - x.fseq) % 65536
  if back = 0 then
    let w := w.modPlk fun p => { p with expect := (e + 1) % 65536, nakSent := false, sinceAck := p.sinceAck + 1 }
    let w := w.takeFlit x
    if 32 ≤ w.dev.plk.sinceAck then w.putFlit 0 0 0 [] else w
  else if back ≤ 512 then w.putFlit 0 0 0 []
  else w.nakOnce

/-- PLK_DATA_FLIT. -/
def execPlkDataFlit (bytes : List Byte) (s : State) : Host.Outcome State Fault Refusal := lift (fun w => w.flitRow 1 bytes W.dataFlit) s

/-- PLK_IDLE_FLIT. -/
def execPlkIdleFlit (bytes : List Byte) (s : State) : Host.Outcome State Fault Refusal := lift (fun w => w.flitRow 0 bytes fun w _ => w) s

/-- PLK_NAK: every flit from the expected number on goes again, ahead of new ones (R317). -/
def execPlkNak (bytes : List Byte) (s : State) : Host.Outcome State Fault Refusal :=
  lift (fun w => w.flitRow 2 bytes fun w x => w.replayFlits (w.dev.plk.replay.dropWhile fun f => f.seq ≠ x.fseq)) s

/-- PLK_HELLO. -/
def execPlkHello (bytes : List Byte) (s : State) : Host.Outcome State Fault Refusal := lift (fun w => w.flitRow 0x10 bytes fun w x => w.hello' x.payload) s

/-- A HEARTBEAT: the partner's claim, mode and segments, and the error of its timebase with the link delay (R325, R326, R361). -/
def W.heartbeat (w : W) (x : Flit) : W :=
  let be (o n : Nat) : Nat := ofBE ((x.payload.drop o).take n)
  let w := (w.set F.PLK_CLAIM_PARTNER (be 0 2)).set F.PLK_STAT_SILENT 0
  let w := w.modPlk fun p => { p with pMode := be 2 1, pServe := be 3 1, known := true, lastHb := some w.now, heard := [], missed := [], judged := none }
  let e : Int := (w.now : Int) - ((be 6 8 + w.dev.plk.delay : Nat) : Int)
  { w with dev := { w.dev with servo := { w.dev.servo with hbSum := w.dev.servo.hbSum + e, hbCount := w.dev.servo.hbCount + 1 } } }

/-- PLK_HEARTBEAT. -/
def execPlkHeartbeat (bytes : List Byte) (s : State) : Host.Outcome State Fault Refusal := lift (fun w => w.flitRow 0x11 bytes W.heartbeat) s

/-- PLK_ACK_TIMER: 200 ns passed with flits taken and no acknowledgement returned (R317). -/
def execPlkAckTimer (s : State) : Host.Outcome State Fault Refusal :=
  lift (fun w => if w.dev.plk.sinceAck ≠ 0 ∧ w.get F.PLK_STAT_LINK = 2 ∧ w.paired then w.putFlit 0 0 0 [] else w) s

/-- HEARTBEAT_TIMER: every 10 µs; an interval with none received counts (R326, PLK.HBMISS). -/
def execHeartbeatTimer (s : State) : Host.Outcome State Fault Refusal :=
  lift (fun w =>
    let w := match w.dev.plk.lastHb with
      | some t => if t + 10000 ≤ w.now then w.bump F.PLK_HBMISS_COUNT else w
      | none => w
    if w.cur = mRESET || w.cur = mTHAW || !w.paired || w.get F.PLK_STAT_LINK ≠ 2 then w
    else w.putFlit 0x11 0 0 (beBytes 2 (w.get F.PLK_CLAIM_OWN) ++ leBytes 1 w.cur ++ leBytes 1 (w.get F.PLK_SEG_SERVE) ++
      beBytes 2 (w.get F.SYS_READY_SUBSYS) ++ beBytes 8 w.now ++ beBytes 8 (w.dev.jsn - 1))) s

/-! ### Messages (R320 to R322, R334, R335) -/

/-- Consume the oldest message of a virtual channel, if it has this type: its SLOT, KEY and body (R319, R320). -/
def W.msgRow (w : W) (type vc : Nat) (f : W → (slot key : Nat) → List Byte → W) : W :=
  match w.dev.plk.inbox.getD vc [] with
  | [] => w
  | (b, n) :: rest =>
    if leAt b 0 1 ≠ type || !w.paired then w
    else
      let be (o k : Nat) : Nat := ofBE ((b.drop o).take k)
      let w := w.modPlk fun p => { p with inbox := p.inbox.set vc rest }
      ((f w (be 2 2) (be 8 8) ((b.drop 16).take (be 4 4))).consumed vc n).linkGo

/-- Write into the mirror ring as the journal writer (R182, R321). -/
def W.mPut (w : W) (slot off : Nat) (bs : List Byte) : W :=
  if bs.isEmpty then w
  else match w.storeAs (cirqueWho (source 21 2)) (w.base F.CHN_JMBASE_BASE + slot * 4096 + off) bs with
    | some w => w
    | none => w.ownRefuse (cirqueWho (source 21 2)) (w.base F.CHN_JMBASE_BASE + slot * 4096 + off)

/-- Write a mirrored record's data from an offset on: 3,840 bytes behind the header, the rest in the extension slots (R80, R82). -/
def W.mData (w : W) (slots : List Nat) (off : Nat) (bs : List Byte) : W :=
  slots.zipIdx.foldl (fun (w : W) (p : Nat × Nat) =>
    -- the place in slot p.2 of the record, and its span of the data
    let lo := if p.2 = 0 then 0 else 3840 + (p.2 - 1) * 4096
    let n := if p.2 = 0 then 3840 else 4096
    let skip := lo - off
    let at_ := off - lo
    if at_ < n then w.mPut p.1 ((if p.2 = 0 then 256 else 0) + at_) ((bs.drop skip).take (n - at_)) else w) w

/-- Change the header of a mirrored record and its CRC (R80). -/
def W.mHead (w : W) (slot : Nat) (f : List Byte → List Byte) : W :=
  let h := (f (w.bytes (w.base F.CHN_JMBASE_BASE + slot * 4096) 256)).take 248
  w.mPut slot 0 (h ++ leBytes 8 (crc64 h))

/-- Replace bytes of a list from an offset on. -/
def splice (l : List Byte) (o : Nat) (b : List Byte) : List Byte := l.take o ++ b ++ l.drop (o + b.length)

/-- Slots of a mirrored record. -/
def W.mSlots (w : W) (slot : Nat) : List Nat := headSlots slot (w.bytes (w.base F.CHN_JMBASE_BASE + slot * 4096) 256)

/-- PLK_RECORD: the record goes to the mirror ring and JACK is sent; while the partner sends its copy, its slots are marked in use
(R320, R321, R334). -/
def execPlkRecord (vc : Nat) (s : State) : Host.Outcome State Fault Refusal :=
  lift (fun w => w.msgRow 1 vc fun w slot key body =>
    let slots := headSlots slot body
    let w := (w.mPut slot 0 (body.take 256)).mData slots 0 (body.drop 256)
    let copying := w.flag F.PLK_STAT_RESYNC && decide (w.cur ≠ mDEGRADED)
    let w := w.modPlk fun p => { p with
      mirror := Tab.put p.mirror key (slot, slots.length), marked := if copying then slots ++ p.marked.filter fun x => !slots.contains x else p.marked }
    w.plkSend 2 0x10 slot key []) s

/-- PLK_STATE: RSTATE, STATUS, FLAGS, TSOUT and BYTES of a mirrored record; FREE and VOID end it (R47, R320). -/
def execPlkState (vc : Nat) (s : State) : Host.Outcome State Fault Refusal :=
  lift (fun w => w.msgRow 2 vc fun w _ key body =>
    match Tab.find? w.dev.plk.mirror key with
    | none => w
    | some (slot, _) =>
      let slots := w.mSlots slot
      let rst := leAt body 0 1
      let w := w.mHead slot fun h =>
        let h := splice h 8 (leBytes 1 rst)
        let h := splice (splice h 10 ((body.drop 1).take 1)) 11 ((body.drop 2).take 1)
        splice (splice h 80 ((body.drop 8).take 8).reverse) 96 ((body.drop 16).take 8).reverse
      if rst = 0 || rst = 2 then w.modPlk fun p => { p with mirror := Tab.del p.mirror key, marked := p.marked.filter fun x => !slots.contains x } else w) s

/-- PLK_DATA_MSG: data of a mirrored record (R82, R320). -/
def execPlkDataMsg (vc : Nat) (s : State) : Host.Outcome State Fault Refusal :=
  lift (fun w => w.msgRow 3 vc fun w _ key body =>
    match Tab.find? w.dev.plk.mirror key with
    | none => w
    | some (slot, _) => w.mData (w.mSlots slot) (ofBE (body.take 4)) (body.drop 8)) s

/-- PLK_DIGEST: DIGEST, and DIGESTED set (R83, R320). -/
def execPlkDigest (vc : Nat) (s : State) : Host.Outcome State Fault Refusal :=
  lift (fun w => w.msgRow 4 vc fun w _ key body =>
    match Tab.find? w.dev.plk.mirror key with
    | none => w
    | some (slot, _) => w.mHead slot fun h =>
      let fl := leAt h 11 1
      splice (splice h 88 (body.take 8).reverse) 11 (leBytes 1 (if nbit fl 2 then fl else fl + 4))) s

/-- JACK: the RECORD with this JSN is in the mirror ring, and INTENT completes, or has completed when a restarted transaction comes to it (R28, R81,
R321). -/
def execJack (s : State) : Host.Outcome State Fault Refusal :=
  lift (fun w => w.msgRow 0x10 2 fun w _ key _ =>
    match Tab.first? w.dev.txns fun _ t => decide (t.jsn = key) && !t.slots.isEmpty && !t.intentOk with
    | some (i, _) => w.intentDone i
    | none => w) s

/-- CTXWB: the bytes go to the same offsets of this module's context table copy (R322). -/
def execCtxwb (s : State) : Host.Outcome State Fault Refusal :=
  lift (fun w => w.msgRow 0x11 2 fun w _ key body =>
    let a := w.ctxAddr (key % 2 ^ 20)
    match (w.storeAs (cirqueWho (source 21 0)) (a + 6) (body.take 1)).bind fun w => w.storeAs (cirqueWho (source 21 0)) (a + 0x80) ((body.drop 1).take 192) with
    | some w => w
    | none => w.ownRefuse (cirqueWho (source 21 0)) a) s

/-- HANDBACK: the home module takes its segment back (R335 step 5). -/
def execHandback (s : State) : Host.Outcome State Fault Refusal :=
  lift (fun w => w.msgRow 0x12 2 fun w _ _ body => let g := leAt body 0 1; if g = w.home then w.handback g else w) s

/-- HBACK (R335 step 6). -/
def execHback (s : State) : Host.Outcome State Fault Refusal := lift (fun w => w.msgRow 0x13 2 fun w _ _ body => w.hback (leAt body 0 1)) s

/-- RESYNCDONE: the mirror holds the whole copy (R334). -/
def execResyncdone (s : State) : Host.Outcome State Fault Refusal :=
  lift (fun w => w.msgRow 0x14 2 fun w _ _ _ => if w.cur = mDEGRADED then w else w.set F.PLK_STAT_RESYNC 0) s

/-- MAIL: the message is delivered to the Cirque firmware (R320). -/
def execMail (s : State) : Host.Outcome State Fault Refusal := lift (fun w => w.msgRow 0x20 3 fun w _ _ body => w.send (.mail body)) s

end Sys2Proof.Machine
end

