-- ==== Sys2Proof/Machine/Power.lean ====
section
/-! DEFINITION. Thermal and power pins, the management interfaces and the boundary-scan instructions (R409 to R412, R463, R472). -/

namespace Sys2Proof.Machine

open Sys2Proof

/-- Change the power pins' state. -/
def W.modPwr (w : W) (f : PwrSt → PwrSt) : W := { w with dev := { w.dev with pwr := f w.dev.pwr } }

/-- Change the management interfaces. -/
def W.modMgmt (w : W) (f : MgmtSt → MgmtSt) : W := { w with dev := { w.dev with mgmt := f w.dev.mgmt } }

/-- The highest junction reading, in 0.5 °C units: TMAX, the warning with its 5 °C hysteresis, and the trip (R472). -/
def W.thermal (w : W) (t : Int) : W :=
  let w := w.set F.PWR_THERM_TMAX ((t % (2048 : Int)).toNat)
  let th := sext 11 (w.get F.PWR_THERM_WARNTH)
  let w :=
    if th ≤ t then
      if w.dev.pwr.warned then w
      else ((w.set F.PWR_THERM_WARN 1).modPwr fun p => { p with warned := true }).report { cls := 0x07, level := 1, src := source 24 0, sub := 1 }
    else if t ≤ th - 10 then w.modPwr fun p => { p with warned := false }
    else w
  if 230 ≤ t ∧ !w.flag F.PWR_THERM_TRIP then
    let w := (w.set F.PWR_THERM_TRIP 1).report { cls := 0x07, level := 3, src := source 24 0, sub := 2 }
    (w.modPwr fun p => { p with tripPin := true }).send (.pin 3 0 0)
  else w

/-- The junction sensors are read; `t` is the highest reading. -/
def execThermalSample (t : Int) (s : State) : Host.Outcome State Fault Refusal :=
  lift (fun w => if w.dev.mode.pwrgood then w.thermal t else w) s

/-- VR_ALERT_N was low for 10 µs: PWR.RAIL at level 3 (R463). -/
def execVrAlert (s : State) : Host.Outcome State Fault Refusal :=
  lift (fun w => w.report { cls := 0x05, level := 3, src := source 24 0 }) s

/-- The output current of every rail that answers is read (R463). -/
def execVrCurrentPoll (rails : List Nat) (s : State) : Host.Outcome State Fault Refusal :=
  lift (fun w => w.modMgmt fun m => { m with rails := rails }) s

/-- Whether the slow management pins are active: powered and out of Reset (R459). -/
def W.mgmtUp (w : W) : Bool := w.dev.mode.rstN && w.dev.mode.pwrgood

/-- SERNO, 128 bits, as the fuses hold it (R479). -/
def W.serno (w : W) : Nat := w.fuse.serno

/-- The status block's content; the spec gives what it holds and not its layout (R409, assumption 36). -/
def W.bmcStatus (w : W) : List Byte :=
  let b := leBytes 8 w.fuse.idrev.toNat ++ leBytes 16 w.serno ++ leBytes 4 (w.reg .SYS_MODE).toNat ++ leBytes 4 (w.reg .SYS_READY).toNat ++
    leBytes 1 (b2n w.dev.mode.alive) ++ leBytes 2 (w.get F.PWR_THERM_TMAX) ++ (w.dev.mgmt.rails.take 48).flatMap (leBytes 4)
  b ++ zeros (256 - b.length)

/-- The BMC reads the status block (0) or the mailbox (1), or writes the mailbox (2), over I3C with a dynamic address or SMBus (R409). -/
def W.bmc (w : W) (op : Nat) (bs : List Byte) : W :=
  if !w.mgmtUp || !(w.dev.mgmt.dynAddr.isSome || w.dev.mgmt.smbus) then w
  else match op with
    | 0 => w.send (.bmc w.bmcStatus)
    | 1 => w.send (.bmc w.dev.mgmt.mboxOut)
    | 2 => w.modMgmt fun m => { m with mboxIn := (bs ++ zeros 64).take 64 }
    | _ => w

/-- A BMC access. -/
def execBmcAccess (op : Nat) (bytes : List Byte) (s : State) : Host.Outcome State Fault Refusal := lift (fun w => w.bmc op bytes) s

/-- The BMC assigns a dynamic address: the pins run I3C, also after the SMBus fallback (R409). -/
def execI3cDaa (addr : Nat) (s : State) : Host.Outcome State Fault Refusal :=
  lift (fun w => if w.mgmtUp then w.modMgmt fun m => { m with dynAddr := some addr, smbus := false, daaWait := false } else w) s

/-- 1 s after PWRGOOD with no dynamic address: an SMBus target (R409). -/
def execSmbusFallback (s : State) : Host.Outcome State Fault Refusal :=
  lift (fun w =>
    if w.dev.mode.pwrgood ∧ w.dev.mgmt.daaWait ∧ w.dev.mgmt.dynAddr = none then w.modMgmt fun m => { m with smbus := true, daaWait := false } else w) s

/-- The JTAG instruction takes effect; EXTEST, CLAMP and HIGHZ only while SYS_RST_N is low, else BYPASS (R412). -/
def W.jtagIr (w : W) (i : Nat) : W :=
  w.modMgmt fun m => { m with jtag := if 3 ≤ i && w.dev.mode.rstN then 0 else i }

/-- IDCODE (R412): major stepping, 0x0487, 0x55E and 1. -/
def W.idcode (w : W) : Nat := (bits w.fuse.idrev 31 24 % 16) * 2 ^ 28 + 0x0487 * 2 ^ 12 + 0x55E * 2 + 1

/-- BYPASS: a one-bit register that captures 0. -/
def execBypass (s : State) : Host.Outcome State Fault Refusal := lift (fun w => (w.jtagIr 0).send (.jtag 0)) s

/-- IDCODE: the identification is captured. -/
def execIdcode (s : State) : Host.Outcome State Fault Refusal := lift (fun w => (w.jtagIr 1).send (.jtag w.idcode)) s

/-- SAMPLE/PRELOAD. -/
def execSamplePreload (s : State) : Host.Outcome State Fault Refusal := lift (fun w => w.jtagIr 2) s

/-- EXTEST. -/
def execExtest (s : State) : Host.Outcome State Fault Refusal := lift (fun w => w.jtagIr 3) s

/-- CLAMP. -/
def execClamp (s : State) : Host.Outcome State Fault Refusal := lift (fun w => w.jtagIr 4) s

/-- HIGHZ. -/
def execHighz (s : State) : Host.Outcome State Fault Refusal := lift (fun w => w.jtagIr 5) s

end Sys2Proof.Machine
end

