-- ==== Sys2Proof/Machine/Pmu.lean ====
section
/-! DEFINITION. World counters, snapshots and dumps (R418 to R423). -/

namespace Sys2Proof.Machine

open Sys2Proof

/-- Counters of an allocation (R418). -/
def pmuSize : Nat → Nat
  | 1 => 4
  | 2 => 16
  | _ => 0

/-- Counters in use by every slot but one. -/
def W.pmuUsed (w : W) (but : Nat) : Nat := ((w.dev.pmu.filter fun p => p.1 ≠ but).map fun p => pmuSize p.2.alloc).sum

/-- Change the world counters' table. -/
def W.setPmu (w : W) (slot : Nat) (p : Option PmuWorld) : W :=
  { w with dev := { w.dev with pmu := match p with | some p => Tab.put w.dev.pmu slot p | none => Tab.del w.dev.pmu slot } }

/-- The dump unit's agent (R182, R346). -/
def dumpWho : Who := cirqueWho (source 22 0)

/-- LOAD (R418, R423): reads the entry of the slot; none when it is refused: a reserved ALLOC or range, the owner check, or the pool. -/
def W.pmuLoad (w : W) (slot : Nat) : Option W :=
  let a := w.base F.PMU_WBASE_BASE + slot * 256
  match w.loadAs dumpWho a 256 with
  | none => none
  | some (v, w) =>
    let b (o n : Nat) : Nat := nbits v (8 * (o + n) - 1) (8 * o)
    let alloc := b 0 1
    let dumpk := b 1 1
    let wink := b 2 1
    let rl := b 3 1
    if 3 ≤ alloc ∨ (dumpk ≠ 0 ∧ (dumpk < 4 ∨ 20 < dumpk)) ∨ 20 < wink ∨ (alloc ≠ 0 ∧ (rl < 4 ∨ 16 < rl)) then none
    else if w.xm 16384 8192 < w.pmuUsed slot + pmuSize alloc then none
    else if alloc = 0 then some (w.setPmu slot none)
    else
      let n := pmuSize alloc
      some (w.setPmu slot (some
        { alloc := alloc, dumpk := dumpk, wink := wink, ringlog := rl, ringva := b 8 6, sels := (List.range n).map fun i => b (0x10 + 8 * i) 8,
          cnt := List.replicate n 0, win := List.replicate n 0, wrapped := List.replicate n false }))

/-- The engine, compression engine or cipher core that unit index `u` of R414 names is one of the order code (R2). -/
def W.pmuEng (w : W) (u : Nat) : Bool :=
  decide (u < w.xm 68 36) || (decide (68 ≤ u) && decide (u < 68 + w.xm 32 16)) || (decide (100 ≤ u) && decide (u < 100 + w.xm 24 12))

/-- The port that unit index `u` of R414 names is one of the order code (R2). -/
def W.pmuPort (w : W) (u : Nat) : Bool :=
  decide (u < w.xm 32 16) || (decide (32 ≤ u) && decide (u < 32 + w.xm 8 4)) || u = 40

/-- The unit counter registers of SNAPU's unit: programmable, then fixed (R414, R423); none for a unit the order code lacks. -/
def W.snapRegs (w : W) (kind ix : Nat) : Option (List (RegName × Nat)) :=
  let mk (r : RegName) (n : Nat) : List (RegName × Nat) := (List.range n).map fun j => (r, ix * n + j)
  match kind with
  | 0 => if ix < w.xm 36 20 then some (mk .PMU_CRNCNT 8 ++ mk .PMU_CRNFIX 3) else none
  | 1 => if ix < w.xm 288 144 then some (mk .PMU_FLOCNT 8 ++ mk .PMU_FLOFIX 3) else none
  | 2 => if w.pmuEng ix then some (mk .PMU_ENGCNT 4) else none
  | _ => if w.pmuPort ix then some (mk .PMU_PRTCNT 4) else none

/-- Store a snapshot (R423): counts in PMU.SNAPV, the rest 0, and T in PMU.SNAPTS. -/
def W.snapStore (w : W) (t : Nat) (vs : List Nat) : W :=
  let w := w.set F.PMU_SNAPTS_T t
  (List.range 16).foldl (fun (w : W) (i : Nat) => w.set F.PMU_SNAPV_COUNT (vs.getD i 0) i) w

/-- PMU.CMD as it runs: OP, and for a snapshot its tick; 15 once latched (R423, R484). -/
def pmuBusy (op t : Nat) : Nat := t * 16 + op

/-- Start PMU.CMD: the checks that need no memory, then BUSY (R423, R484). -/
def W.pmuStart (w : W) (op : Nat) : W :=
  let slot := w.get F.PMU_CMD_SLOT
  let ok := match op with
    | 1 => true
    | 2 => true
    | 3 => Tab.has w.dev.pmu slot
    | _ => (w.snapRegs (w.get F.PMU_CMD_KIND) (w.get F.PMU_CMD_INDEX)).isSome
  if !ok then w.set F.PMU_CMD_ERR 1
  else
    let w := w.set F.PMU_CMD_BUSY 1
    { w with dev := { w.dev with busy := Tab.put w.dev.busy (regKey .PMU_CMD 0) (pmuBusy op (w.now + 256)) } }

/-- The end of PMU.CMD (R423, R484): a snapshot ends only once it has been latched. -/
def W.pmuFinish (w : W) (b : Nat) : W :=
  let fin (w : W) : W := { w.set F.PMU_CMD_BUSY 0 with dev := { (w.set F.PMU_CMD_BUSY 0).dev with busy := Tab.del w.dev.busy (regKey .PMU_CMD 0) } }
  match b % 16 with
  | 1 => match w.pmuLoad (w.get F.PMU_CMD_SLOT) with
    | some w => fin w
    | none =>
      let a := w.base F.PMU_WBASE_BASE + w.get F.PMU_CMD_SLOT * 256
      fin ((if w.rangeOk dumpWho .rd a 256 then w else w.physRefuse dumpWho a).set F.PMU_CMD_ERR 1)
  | 2 => fin (w.setPmu (w.get F.PMU_CMD_SLOT) none)
  | 15 => fin w
  | _ => w

/-- Tick T of a snapshot: the counters are latched (R423). -/
def W.snapLatch (w : W) : W :=
  match Tab.find? w.dev.busy (regKey .PMU_CMD 0) with
  | none => w
  | some b =>
    let t := b / 16
    let latched (w : W) (vs : List Nat) : W :=
      let w := w.snapStore t vs
      { w with dev := { w.dev with busy := Tab.put w.dev.busy (regKey .PMU_CMD 0) (pmuBusy 15 t) } }
    if w.now < t then w
    else match b % 16 with
      | 3 => match Tab.find? w.dev.pmu (w.get F.PMU_CMD_SLOT) with
        | some p =>
          let owner := (Tab.first? w.dev.worlds fun _ r => decide (r.slot = w.get F.PMU_CMD_SLOT)).map Prod.fst
          latched { w with dev := { w.dev with dbg := { w.dev.dbg with snapWorld := owner } } } p.cnt
        | none => latched w []
      | 4 => match w.snapRegs (w.get F.PMU_CMD_KIND) (w.get F.PMU_CMD_INDEX) with
        | some rs => latched { w with dev := { w.dev with dbg := { w.dev.dbg with snapWorld := none } } } (rs.map fun r => bits (w.reg r.1 r.2) 47 0)
        | none => latched w []
      | _ => w

/-- The latch tick of a PMU snapshot. -/
def execPmuSnapLatch (s : State) : Host.Outcome State Fault Refusal := lift W.snapLatch s

/-- Close the windows of MODE 3 counters that end at tick `t`: each takes the sum of its window (R420). -/
def PmuWorld.closeWindow (p : PmuWorld) (t : Nat) : PmuWorld :=
  if p.winAt = t then p
  else
    let isWin (j : Nat) : Bool := bits (BitVec.ofNat 64 (p.sels.getD j 0)) 62 61 = 3 && !(decide (p.alloc = 2) && decide (j < 4))
    { p with winAt := t
             cnt := p.cnt.mapIdx fun j c => if isWin j then p.win.getD j 0 % 2 ^ 48 else c
             win := p.win.mapIdx fun j c => if isWin j then 0 else c }

/-- The last multiple of `n` ns, if the timebase stands on it (a cycle may advance by 2, R359). -/
def W.onTick (w : W) (n : Nat) : Option Nat := if w.now % n ≤ 1 then some (w.now - w.now % n) else none

/-- A window boundary of a world's counters (R420). -/
def W.windowBoundary (w : W) (slot : Nat) : W :=
  match Tab.find? w.dev.pmu slot with
  | none => w
  | some p => match w.onTick (2 ^ p.wink * 1000) with
    | some t => w.setPmu slot (some (p.closeWindow t))
    | none => w

/-- A window boundary. -/
def execPmuWindowBoundary (slot : Nat) (s : State) : Host.Outcome State Fault Refusal := lift (fun w => w.windowBoundary slot) s

/-- The world that holds a world table slot. -/
def W.worldAt (w : W) (slot : Nat) : Option (Nat × WorldRec) := Tab.first? w.dev.worlds fun _ r => decide (r.slot = slot)

/-- The bytes of a dump record (R421). -/
def PmuWorld.record (p : PmuWorld) (seq t wid : Nat) : List Byte :=
  leBytes 8 seq ++ leBytes 8 t ++ leBytes 2 wid ++ leBytes 1 p.alloc ++ leBytes 1 p.lost ++ leBytes 1 p.wink ++ zeros 11 ++
    (p.cnt.mapIdx fun j c => leBytes 8 (c + b2n (p.wrapped.getD j false) * 2 ^ 63)).flatten

/-- A dump tick (R421, R422): the window closes first; the record goes to the world's ring, or is dropped and counted. -/
def W.dumpTick (w : W) (slot : Nat) : W :=
  match Tab.find? w.dev.pmu slot, w.worldAt slot with
  | some p, some (wid, r) =>
    if p.dumpk = 0 ∨ !nbit r.flags 0 ∨ !(r.state = 1 ∨ r.state = 2) then w
    else match w.onTick (2 ^ p.dumpk * 1000) with
      | none => w
      | some t =>
        let p := if t % (2 ^ p.wink * 1000) = 0 then p.closeWindow t else p
        let seq := (p.seq + 1) % 2 ^ 64
        let stride := if p.alloc = 2 then 256 else 64
        let va := p.ringva + seq % 2 ^ p.ringlog * stride
        let who : Who := { world := wid, src := source 22 0, dma := true }
        let drop (w : W) : W :=
          (w.setPmu slot (some { p with seq := seq, lost := min 255 (p.lost + 1) })).report { cls := 0x3C, level := 0, src := source 22 0, world := wid }
        match w.xlate wid va .wr with
        | .error f => drop (w.walkRefuse (source 22 0) wid f)
        | .ok (pa, _) =>
          match w.storeAs who pa (p.record seq t wid) with
          | none => drop (w.physRefuse who pa)
          | some w => w.setPmu slot (some { p with seq := seq, lost := 0, wrapped := p.wrapped.map fun _ => false })
  | _, _ => w

/-- A dump tick. -/
def execPmuDumpTick (slot : Nat) (s : State) : Host.Outcome State Fault Refusal := lift (fun w => w.dumpTick slot) s

/-- The PMU interrupt line: a wrapped unit counter with OVIE (R416). -/
def W.pmuLine (w : W) : Bool :=
  w.dev.regs.any fun p =>
    (decide (p.1 / 65536 = RegName.PMU_CRNCNT.code) || decide (p.1 / 65536 = RegName.PMU_CRNFIX.code) || decide (p.1 / 65536 = RegName.PMU_FLOCNT.code)
      || decide (p.1 / 65536 = RegName.PMU_FLOFIX.code) || decide (p.1 / 65536 = RegName.PMU_ENGCNT.code) || decide (p.1 / 65536 = RegName.PMU_PRTCNT.code))
      && bit p.2 63 && bit p.2 62

end Sys2Proof.Machine
end

