-- ==== Sys2Proof/Machine/Worlds.lean ====
section
/-! DEFINITION. Worlds, the owner table's commands, loads into tenant memory, the service endpoint and memory errors
(R126, R127, R139, R141 to R143, R162 to R178, R282). -/

namespace Sys2Proof.Machine

open Sys2Proof

/-! ### Context and world enumeration -/

/-- Channels whose block is not all zero and not resident, with the block. -/
def W.ctxStored (w : W) : List (Nat × Chan) :=
  ((w.listedBlocks (w.base F.CHN_CTXBASE_BASE) 512 (2 ^ 20)).filter fun c => (w.chan c).isNone).map fun c => (c, (Chan.parse (w.bytes (w.ctxAddr c) 512)).fix)

/-- Every channel that is not CLOSED, and every block that is not all zero. -/
def W.allChans (w : W) : List (Nat × Chan) := w.dev.chans ++ w.ctxStored

/-- OPENCH: channels of a world not CLOSED (R166). -/
def W.openCh (w : W) (world : Nat) : Nat := (w.allChans.filter fun p => decide (p.2.world = world) && decide (p.2.state ≠ 0)).length

/-- Whether a context block names a kernel (R143). -/
def W.kidNamed (w : W) (kid : Nat) : Bool := w.allChans.any fun p => p.2.kernel.any fun a => decide (a ≠ 0) && decide (wordKid a = kid)

/-- Pages that the owner table gives a world, in OWNED, SHARED-RO or FROZEN (R166). -/
def W.countPages (w : W) (world : Nat) : Nat :=
  let base := w.base F.OWN_TBASE_BASE
  let mine := (w.listedBlocks base 4 (2 ^ 34)).filter fun k => match OwnEntry.ofNat (w.le (base + 4 * k) 4) with
    | some e => decide (e.owner = world) && e.counts
    | none => false
  -- an entry stands for a page of each enabled region whose entries hold it (R175)
  (mine.map fun k => ((List.range 16).filter fun i => w.flag F.OWN_RGNA_EN i && decide (w.get F.OWN_RGNB_INDEX i ≤ k) &&
    decide (k < w.get F.OWN_RGNB_INDEX i + w.get F.OWN_RGNB_SIZE i * 512)).length).foldl (· + ·) 0

/-! ### The world table and WLD.CMD (R162 to R165) -/

/-- The agent of world and owner commands. -/
def wldWho : Who := cirqueWho (source 20 0)

/-- Address of a world table entry (R162). -/
def W.wldAddr (w : W) (slot : Nat) : Nat := w.base F.WLD_TBASE_BASE + slot * 64

/-- Change a world's state, in its record and in the table's WSTATE (R163). -/
def W.setWstate (w : W) (world state : Nat) : W :=
  match Tab.find? w.dev.worlds world with
  | none => w
  | some r =>
    let w := w.modWorld world fun r => { r with state := state }
    match w.storeAs wldWho (w.wldAddr r.slot + 2) (leBytes 1 state) with
    | some w => w
    | none => w.ownRefuse wldWho (w.wldAddr r.slot + 2)

/-- The QUEUED transactions of a world end with NOACCESS, its SUBMITs that wait for a context entry among them (R37). -/
def W.endQueued (w : W) (world : Nat) : W :=
  let mine := w.dev.ctxq.filter fun p => decide ((Msg.parse p.bytes).type = 0x10) && (match w.qp p.qp with | some x => decide (x.world = world) | none => false)
  let w := mine.foldl (fun (w : W) (p : CtxWait) => w.endWaiting p 1) w
  (w.dev.txns.keysWhere fun _ t => decide (t.world = world) && decide (t.st = .queued) && t.load.isNone).foldl (fun (w : W) (i : Nat) => w.outcome i 1) w

/-- Every agent drops a world's translations (R181). -/
def W.dropTlb (w : W) (world : Nat) : W :=
  { w with dev := { w.dev with cores := Tab.mapVal w.dev.cores fun _ x => { x with tlb := x.tlb.filter fun e => e.world ≠ world } } }

/-- ACTIVATE (R165): the entry at SLOT is read and its world mapped, with a full bucket (R164). -/
def W.wldActivate (w : W) (slot world : Nat) : Option W :=
  let a := w.wldAddr slot
  if world = 0 || world = 0xFFFF || Tab.has w.dev.worlds world || (w.worldAt slot).isSome || !w.rangeOk wldWho .rd a 64 || w.le a 2 ≠ world then none
  else
    let d := w.le (a + 0x14) 4
    let r : WorldRec := {
      slot := slot, state := 1, flags := w.le (a + 3) 1, akmask := w.le (a + 4) 2, root := nbits (w.le (a + 8) 8) 45 12 * 4096
      rate := w.le (a + 0x10) 4, depth := d, svcqp := w.le (a + 0x18) 4, tokens := d, filled := d, pages := w.countPages world }
    some ({ w with dev := { w.dev with worlds := Tab.put w.dev.worlds world r } }.setWstate world 1)

/-- SUSPEND (R165). -/
def W.wldSuspend (w : W) (world : Nat) : Option W :=
  match Tab.find? w.dev.worlds world with
  | some r => if r.state = 1 then some ((w.setWstate world 2).endQueued world) else none
  | none => none

/-- RESUME (R165). -/
def W.wldResume (w : W) (world : Nat) : Option W :=
  match Tab.find? w.dev.worlds world with
  | some r => if r.state = 2 then some (w.setWstate world 1) else none
  | none => none

/-- REVOKE (R127, R139, R165, R181). -/
def W.wldRevoke (w : W) (world : Nat) : Option W :=
  match Tab.find? w.dev.worlds world with
  | some r =>
    if r.state = 1 || r.state = 2 then
      let w := (((w.setWstate world 3).kdfRevoke world).dropTlb world).endQueued world
      some ((w.dev.txns.keysWhere fun _ t => decide (t.world = world) && t.load.isSome).foldl (fun (w : W) (i : Nat) => w.outcome i 1) w)
    else none
  | none => none

/-- DEACTIVATE (R165); the world's counters go with its slot. -/
def W.wldDeactivate (w : W) (world : Nat) : Option W :=
  match Tab.find? w.dev.worlds world with
  | some r =>
    if (r.state = 2 || r.state = 3) && decide (w.openCh world = 0) && decide (r.pages = 0) then
      let w := w.setWstate world 0
      some { w with dev := { w.dev with worlds := Tab.del w.dev.worlds world, pmu := Tab.del w.dev.pmu r.slot } }
    else none
  | none => none

/-- The bucket after a RELOAD (R164). -/
def WorldRec.reload (r : WorldRec) (rate depth : Nat) : WorldRec :=
  if depth = 0 then { r with rate := rate, depth := 0, capped := r.capped + r.tokens, tokens := 0, frac := 0 }
  else if r.depth = 0 then { r with rate := rate, depth := depth, tokens := depth, refilled := r.refilled + depth }
  else if depth < r.tokens then { r with rate := rate, depth := depth, capped := r.capped + (r.tokens - depth), tokens := depth }
  else { r with rate := rate, depth := depth }

/-- RELOAD (R164, R165, R181). -/
def W.wldReload (w : W) (world : Nat) : Option W :=
  match Tab.find? w.dev.worlds world with
  | some r =>
    let a := w.wldAddr r.slot
    if (r.state = 1 || r.state = 2) && w.rangeOk wldWho .rd a 64 then
      let root := nbits (w.le (a + 8) 8) 45 12 * 4096
      let (fl, ak) := (w.le (a + 3) 1, w.le (a + 4) 2)
      let (rate, depth) := (w.le (a + 0x10) 4, w.le (a + 0x14) 4)
      some ((w.modWorld world fun r => { (r.reload rate depth) with root := root, flags := fl, akmask := ak }).dropTlb world)
    else none
  | none => none

/-- An operation of WLD.CMD (R165). -/
def W.wldOp (w : W) (op slot world : Nat) : Option W :=
  match op with
  | 1 => w.wldActivate slot world
  | 2 => w.wldSuspend world
  | 3 => w.wldResume world
  | 4 => w.wldRevoke world
  | 5 => w.wldDeactivate world
  | 6 => w.wldReload world
  | _ => none

/-- WLD.STAT of the selected world (R166). -/
def W.wldStat (w : W) (world : Nat) : Nat :=
  match Tab.find? w.dev.worlds world with
  | none => 0
  | some r =>
    let thr := Tab.exists? w.dev.txns fun _ t => decide (t.world = world) && decide (t.wait = .tokens)
    let nobuf := w.dev.neve.refused.any fun q => q.world = world
    let noctx := w.dev.ctxq.any fun p => match w.qp p.qp with | some x => x.world = world | none => false
    let noslot := Tab.exists? w.dev.txns fun _ t => decide (t.world = world) && decide (t.wait = .noslot)
    r.state * 2 ^ 56 + b2n thr * 2 ^ 51 + b2n nobuf * 2 ^ 50 + b2n noctx * 2 ^ 49 + b2n noslot * 2 ^ 48 + w.openCh world % 2 ^ 20 * 2 ^ 24 + min r.pages 0xFFFFFF

/-- WLD.CNT[k] of a world (R166). -/
def W.wldCnt (w : W) (world k : Nat) : Nat :=
  match Tab.find? w.dev.worlds world with | some r => r.cnt.getD k 0 | none => 0

/-! ### OWN.CMD (R176 to R178) -/

/-- The "From" condition of an operation on one entry (R176, R178); a FROZEN page fails each. -/
def ownFrom (op world : Nat) (e : OwnEntry) : Bool :=
  match op with
  | 1 => decide (e.st = 0) && decide (world ≠ 0xFFFF)
  | 2 => decide (e.st = 1) && decide (e.owner = world)
  | 3 => decide (e.st = 1) && decide (e.owner = world)
  | 4 => decide (e.st = 2) && decide (e.owner = world)
  | 5 => (decide (e.st = 1) || decide (e.st = 2)) && decide (e.owner = world)
  | 6 => decide (e.st = 4)
  | _ => false

/-- The pages of a command. -/
def cmdPages (addr count : Nat) : List Nat := (List.range count).map fun i => addr + i * 4096

/-- Whether every page of a command satisfies its condition (R176). -/
def W.ownMay (w : W) (op world addr count : Nat) : Bool :=
  (cmdPages addr count).all fun p => match w.ownEntry p with | some e => ownFrom op world e | none => false

/-- The scrubber's work on one page: zeros with tag RAW and FREE, or QUARANTINE and OWN.SCRUB where it meets a failed unit (R176, R280). -/
def W.scrubPage (w : W) (p : Nat) : W :=
  match w.ownEntry p with
  | none => w
  | some e =>
    if w.unitFailed p then (w.setOwn p { e with st := 4 }).report { cls := 0x2A, level := 1, src := source 20 1, detail := p }
    else (w.unitStore p (zeros 4096)).setOwn p ⟨0xFFFF, false, false, false, false, 0, 0⟩

/-- One page of a command that commits (R176). -/
def W.ownPage (w : W) (op rights ksel world p : Nat) : W :=
  match w.ownEntry p with
  | none => w
  | some e =>
    match op with
    | 1 => w.setOwn p ⟨world, nbit rights 3, nbit rights 2, nbit rights 1, nbit rights 0, 1, ksel⟩
    | 2 => w.setOwn p ⟨world, nbit rights 3, nbit rights 2, nbit rights 1, nbit rights 0, 1, ksel⟩
    | 3 => w.setOwn p { e with st := 2 }
    | 4 => w.setOwn p { e with st := 1 }
    | _ => (w.setOwn p { e with st := 4 }).scrubPage p

/-- Clear the recorded world of every L1 line in the pages of a command (R225). -/
def W.untagL1 (w : W) (addr count : Nat) : W :=
  let inside (x : L1Line) : Bool := decide (addr ≤ x.line * 64) && decide (x.line * 64 < addr + count * 4096)
  let clear (t : Tab L1Line) : Tab L1Line := Tab.mapVal t fun _ x => if inside x then { x with world := 0xFFFF, wgrant := false } else x
  { w with dev := { w.dev with cores := Tab.mapVal w.dev.cores fun _ c => { c with il1 := clear c.il1, dl1 := clear c.dl1 } } }

/-- An OWN.CMD operation: all or nothing (R176, R177). -/
def W.ownOp (w : W) (op rights ksel world addr count : Nat) : Option W :=
  if w.ownMay op world addr count then
    some (((cmdPages addr count).foldl (fun (w : W) (p : Nat) => w.ownPage op rights ksel world p) w).untagL1 addr count)
  else none

/-! ### Memory errors (R178, R280 to R282) -/

/-- The count registers and class of a memory unit (R346, R476). -/
def memRegs (src : Nat) : RegName × RegName × Nat × Nat :=
  let i := src % 128
  if i < 8 then (.MEMH_ECCCNT, .MEMH_UECNT, i, 0x30) else (.MEMB_ECCCNT, .MEMB_UECNT, i - 8, 0x31)

/-- Count one in a 32-bit count register. -/
def W.countUp (w : W) (r : RegName) (i : Nat) : W := w.setReg r i (BitVec.ofNat 64 (satAdd 32 (w.reg r i).toNat 1))

/-- The lines that an error at an address spoils: its own, or those whose tags a line of the tag store holds (R281, R282). -/
def W.spoiled (w : W) (pa : Nat) : List Nat :=
  let (b, m) := match w.pkind pa with | .dram => (0x004000000000, w.dramSize) | _ => (0, w.hbmSize)
  let t := b + m / 16 * 15
  if t ≤ pa then (if (pa - t) / 64 * 1024 < m / 16 * 15 then upto ((b + (pa - t) / 64 * 1024) / 64) 16 else []) else [pa / 64]

/-- A page with an uncorrectable error: QUARANTINE keeping OWNER, or at the end of the load that froze it (R178). -/
def W.quarantine (w : W) (p : Nat) : W :=
  match w.ownEntry p with
  | none => w
  | some e =>
    if e.st = 3 then
      { w with dev := { w.dev with txns := Tab.mapVal w.dev.txns fun _ t =>
        if t.load.isSome && t.dest.2.1.contains p then { t with ue := p :: t.ue } else t } }
    else w.setOwn p { e with st := 4 }

/-- An uncorrectable error in HBM or bulk DRAM (R282). -/
def W.memUE (w : W) (pa : Nat) : W :=
  match w.memUnit pa with
  | none => (match w.pkind pa with
    -- data that a CXL.mem device marks as poison (R408)
    | .cxl p => (w.tagRange (pa / 64 * 64) 64 tPOISON).report { cls := 0x35, level := 2, src := source 15 p, detail := pa }
    | _ => w)
  | some u =>
    let (_, ue, i, cls) := memRegs u
    let ls := w.spoiled pa
    let w := ls.foldl (fun (w : W) (l : Nat) => w.tagRange (l * 64) 64 tPOISON) w
    let w := (dropRuns (ls.map fun l => l / 64 * 4096)).foldl (fun (w : W) (p : Nat) => w.quarantine p) w
    (w.countUp ue i).report { cls := cls, level := 2, src := u, detail := pa }

/-- MEMORY_UE: an uncorrectable error at a physical address. -/
def execMemoryUe (pa : Nat) (s : State) : Host.Outcome State Fault Refusal := lift (fun w => w.memUE pa) s

/-- PATROL_SCRUB: the scrubber reads the line of `pa` and finds nothing (0), a correctable (1) or an uncorrectable error (2). -/
def execPatrolScrub (pa found : Nat) (s : State) : Host.Outcome State Fault Refusal :=
  lift (fun w => match w.memUnit pa with
    | none => w
    | some u =>
      if found = 1 then
        let (ecc, _, i, cls) := memRegs u
        (w.countUp ecc i).report { cls := cls, level := 0, src := u, detail := pa }
      else if found = 2 then w.memUE pa
      else w) s

/-! ### Loads (R126, R127, R171) -/

/-- A load descriptor (R171). -/
structure LoadDesc where
  /-- CHID. -/
  chid : Nat
  /-- WORLD. -/
  world : Nat
  /-- PRIO. -/
  prio : Nat
  /-- OFFSET. -/
  offset : Nat
  /-- LENGTH. -/
  length : Nat
  /-- DESTVA. -/
  destva : Nat
  /-- DEADLINE. -/
  deadline : Nat
  /-- TAG. -/
  tag : Nat
  deriving DecidableEq, Repr

/-- Read a descriptor; none when its own fields are malformed. -/
def W.loadDesc (w : W) (a : Nat) : Option LoadDesc :=
  if !w.rangeOk (cirqueWho (source 21 0)) .rd a 64 then none
  else
    let d : LoadDesc := ⟨w.le a 4, w.le (a + 4) 2, w.le (a + 6) 1, w.le (a + 8) 8, w.le (a + 0x10) 8, w.le (a + 0x18) 8, w.le (a + 0x20) 4, w.le (a + 0x24) 4⟩
    if 2 ^ 20 ≤ d.chid || 3 < d.prio || w.le (a + 7) 1 ≠ 0 || w.le (a + 0x29) 7 ≠ 0 || d.length % 4096 ≠ 0 || d.length = 0 || 2 ^ 36 < d.length ||
       d.destva % 4096 ≠ 0 then none
    else some d

/-- Loads in progress. -/
def W.loads (w : W) : Nat := (w.dev.txns.filter fun p => p.2.load.isSome).length

/-- The physical pages of a load's destination, or why the first bad one is refused: translated with the world's ROOT, and OWNED by
the world with W and D (R171). -/
def W.destPages (w : W) (d : LoadDesc) : Except (W → W) (List Nat) :=
  let who : Who := { world := d.world, src := source 21 0, dma := true }
  (List.range (d.length / 4096)).foldr (fun i r =>
    let va := d.destva + i * 4096
    if 2 ^ 48 ≤ va then .error id
    else match w.xlate d.world va .wr with
      | .error f => .error fun w => w.walkRefuse who.src d.world f
      | .ok (pa, _) =>
        match w.ownEntry pa with
        | some e =>
          if e.st = 1 && w.worldActive d.world && decide (e.owner = d.world) && e.w && e.d then r.map fun l => pa :: l
          else .error fun w => w.ownRefuse who pa
        | none => .error fun w => w.ownRefuse who pa) (.ok [])

/-- Why a load cannot start on its channel: the channel's state, direction, world or extent, or an LBA size that an XTS mode does not take
(R34, R113, R171). -/
def W.loadBad (w : W) (c : Chan) (d : LoadDesc) : Bool :=
  let mode := nbits c.cipprof 7 0
  c.state ≠ 1 || !w.mayTouch c false d.offset d.length || (5 ≤ mode && mode ≤ 6 && c.lbaShift ≠ 9 && c.lbaShift ≠ 12)

/-- The subcode under which CIP.KEY records a load that its channel's cipher profile refuses, 0 for none: a reserved mode, or a purpose other than STORE
or TRANSIT, whatever the mode (R114, R125). -/
def loadKeyBad (prof : Nat) : Nat := if 6 < nbits prof 7 0 then 2 else if nbits prof 15 8 = 1 || nbits prof 15 8 = 2 then 0 else 8

/-- Take a descriptor (R171): none while its channel's block has no room. A load that may not run ends with NOACCESS, nothing read or frozen. -/
def W.loadTake (w : W) (a : Nat) : Option W :=
  match w.loadDesc a with
  | none => some (w.set F.WLD_LOADCMD_ERR 1)
  | some d =>
    if 256 ≤ w.loads then some (w.set F.WLD_LOADCMD_ERR 1)
    else
      let room := match w.chan d.chid with
        | some c => some (w, some c)
        | none => match w.ctxRead d.chid with
          | none => some (w, none)
          | some b =>
            let c := (Chan.parse b).fix
            (w.ctxRoom c.prio).map fun (v : W) => (v.ctxPut d.chid c, some c)
      match room with
      | none => none
      | some (w, oc) =>
        let c := oc.getD {}
        if oc.isSome && (c.world ≠ d.world || d.offset % c.segSize ≠ 0) then some (w.set F.WLD_LOADCMD_ERR 1)
        else
          let i := w.dev.nextTxn
          let w := match w.chooseEngine d.prio with | some e => w.engWake e d.world | none => w
          let t : Txn := {
            chid := d.chid, world := d.world, prio := d.prio, write := false, offset := d.offset, length := d.length, st := .accepted
            deadline := if d.deadline = 0 then 0 else w.now + d.deadline * 1000, inWheel := decide (d.deadline < 4096), load := some a
            engine := w.chooseEngine d.prio }
          let w := { w with dev := { w.dev with nextTxn := i + 1 } }
          let put (w : W) (t : Txn) : W := { w with dev := { w.dev with txns := Tab.put w.dev.txns i t } }
          let bad := oc.isNone || w.loadBad c d
          let key := loadKeyBad c.cipprof
          let keyBad (w : W) : W := w.report { cls := 0x24, level := 0, src := engSrc t.engine, sub := key, world := d.world, chid := d.chid }
          match (if bad then Except.error id else if key ≠ 0 then Except.error keyBad else w.destPages d) with
          | .error f => some (f (put w { t with status := some 1, tsout := w.now, dest := (d.destva, [], d.tag, false) }))
          | .ok pages =>
            let frozen := decide (2 ^ 20 < d.length)
            let w := if frozen then pages.foldl (fun (w : W) (p : Nat) => match w.ownEntry p with
              | some e => w.setOwn p { e with st := 3 }
              | none => w) w else w
            let n := ceilDiv d.length c.segSize
            let segs : Tab Seg := (List.range n).map fun k => (k, { ops := [.stread 0] })
            some ((put w { t with dest := (d.destva, pages, d.tag, frozen), segs := segs }).kick i)

/-- A write of WLD.LOADCMD.DESC (R171); while BUSY it is ignored. -/
def W.loadCmd (w : W) (a : Nat) : W :=
  if w.flag F.WLD_LOADCMD_BUSY then w
  else match w.loadTake a with
    | some w => w
    | none => { w with dev := { w.dev with busy := Tab.put w.dev.busy (regKey .WLD_LOADCMD 0) a } }.set F.WLD_LOADCMD_BUSY 1

/-- LOAD_START: the descriptor at physical address `desc` is given to the HK7. -/
def execLoadStart (desc : Nat) (s : State) : Host.Outcome State Fault Refusal :=
  lift (fun w => if w.cur = mRESET then w else w.loadCmd (desc / 64 * 64)) s

/-- A load's pages return from FROZEN to OWNED, or to QUARANTINE after an uncorrectable error (R126, R178). -/
def W.unfreeze (w : W) (t : Txn) : W :=
  if !t.dest.2.2.2 then w
  else t.dest.2.1.foldl (fun (w : W) (p : Nat) => match w.ownEntry p with
    | some e => w.setOwn p { e with st := if t.ue.contains p then 4 else 1 }
    | none => w) w

/-- LOAD_ZERO_DONE: the zeroing of a failed load of the zeroing class is acknowledged (R126 steps 5b and 6b). -/
def execLoadZeroDone (t : Nat) (s : State) : Host.Outcome State Fault Refusal :=
  lift (fun w => match w.txn t with
    | none => w
    | some x =>
      let st := x.status.getD 0
      if x.load.isNone || st = 0 || !x.dest.2.2.2 || x.anyBusy then w
      else
        let w := x.dest.2.1.foldl (fun (w : W) (p : Nat) => w.unitStore p (zeros 4096)) w
        let w := (w.unfreeze x).modTxn t fun y => { y with dest := (y.dest.1, y.dest.2.1, y.dest.2.2.1, false) }
        w.report { cls := 0x23, level := 0, src := source 8 25, sub := 6, world := x.world, chid := x.chid }) s

/-- Write a field of a load's descriptor (R171). -/
def W.loadField (w : W) (a n v : Nat) : W :=
  match w.storeAs (cirqueWho (source 21 0)) a (leBytes n v) with
  | some w => w
  | none => w.ownRefuse (cirqueWho (source 21 0)) a

/-- The reply that waited for the load at descriptor `a` takes its outcome and BYTES (R169). -/
def Svc.loaded (a st n : Nat) (v : Svc) : Svc :=
  if v.load = some a then
    { v with load := none, bytes := v.bytes.take 8 ++ leBytes 1 (b2n (decide (st = 1))) ++ zeros 7 ++ leBytes 1 st ++ beBytes 8 n }
  else v

/-- LOAD_END: STATUS, BYTES and TSDONE are written and the load interrupt raised; the reply of the request that asked is ready (R169, R171). -/
def execLoadEnd (t : Nat) (s : State) : Host.Outcome State Fault Refusal :=
  lift (fun w => match w.txn t with
    | none => w
    | some x => match x.load with
      | none => w
      | some a =>
        let st := x.status.getD 0
        let ended := if st = 0 then (x.segs.all fun g => g.2.ops.isEmpty) else !x.dest.2.2.2 && !x.anyBusy
        if !ended then w
        else
          let w := (w.unfreeze x).releaseBufs t
          let w := if st = 1 then w.report { cls := 0x2B, level := 0, src := source 21 0, world := x.world, chid := x.chid, detail := a } else w
          let w := ((w.loadField (a + 0x28) 1 st).loadField (a + 0x30) 8 x.bytes).loadField (a + 0x38) 8 w.now
          let w := (w.creditBack { x with status := some st }).irq (.load x.dest.2.2.1)
          let w := w.dropTxn t
          { w with dev := { w.dev with svc := w.dev.svc.map (Svc.loaded a st x.bytes) } }) s

/-! ### Kernel images (R141 to R143) -/

/-- Whether an instruction belongs to the Floe profile of TSH-3 (R188, R219). -/
def floeProfile : Instr → Bool
  | .lr .. => false | .sc .. => false | .atswap .. => false | .atadd .. => false | .atand .. => false | .ator .. => false
  | .atxor .. => false | .atmins .. => false | .atmaxs .. => false | .atminu .. => false | .atmaxu .. => false | .atcas .. => false
  | .eret .. => false | .wfi .. => false | .svc .. => false | .brk .. => false
  | .tinvVa .. => false | .tinvWorld .. => false | .tinvAll .. => false | .hinv .. => false | .tagset .. => false
  | .dcClean .. => false | .dcInv .. => false | .dcCiv .. => false | .icInv .. => false
  | .movblk .. => false | .tagscrub .. => false | .crc .. => false
  | .mfsr _ _ n => n < 2
  | .mtsr _ _ n => n < 2
  | _ => true

/-- The byte target of a direct branch at byte `pc` (R208). -/
def branchTarget (pc : Nat) : Instr → Option Int
  | .bc _ _ off => some ((pc : Int) + sext 22 off * 4)
  | .bl _ _ off => some ((pc : Int) + sext 22 off * 4)
  | .cb _ _ _ _ off => some ((pc : Int) + sext 14 off * 4)
  | _ => none

/-- One code word at byte `pc` of the code: its instructions decode, belong to the profile and branch within the code (R142). -/
def codeWordOk (codelen pc w : Nat) : Bool :=
  let one (pc : Nat) (i : Instr) : Bool :=
    floeProfile i && (match branchTarget pc i with | some t => decide (0 ≤ t) && decide (t < codelen) | none => true)
  match decodeTsh (.flo 0) w with
  | none => false
  | some i =>
    one pc i && (isLong i || (match decodeTsh (.flo 0) (w / 2 ^ 32) with | some j => !isLong j && one (pc + 4) j | none => false))

/-- The checks of an image (R141, R142). -/
def imageOk (b : List Byte) : Bool :=
  let codelen := leAt b 8 4
  let entry := leAt b 12 4
  decide (64 ≤ b.length) && decide (leAt b 0 4 = 0x464C4F45) && decide (leAt b 4 1 = 3) && decide (leAt b 5 3 = 0) &&
  decide (codelen % 8 = 0) && decide (8 ≤ codelen) && decide (codelen ≤ 65536) && decide (entry % 8 = 0) && decide (entry < codelen) &&
  ((b.drop 0x18).take 40).all (· = 0) && decide (b.length = 64 + codelen) &&
  (List.range (codelen / 8)).all fun k => codeWordOk codelen (8 * k) (leAt b (64 + 8 * k) 8)

/-- Whether every page of a range is OWNED by world 0x0000. -/
def W.cirqueOwned (w : W) (a n : Nat) : Bool :=
  (pagesOf a n).all fun p => match w.ownEntry p with | some e => decide (e.st = 1) && decide (e.owner = 0) | none => false

/-- Load a checked image as kernel `kid` (R142 steps 3 to 5, R143). -/
def W.kernelLoad (w : W) (image : List Byte) (kid codebase faultlim world : Nat) : W :=
  let n := leAt image 8 4
  let w := (w.unitStore codebase (image.drop 64)).tagRange codebase n tCODE
  w.unitStore (w.kte kid) (leBytes 8 codebase ++ leBytes 4 n ++ leBytes 4 (leAt image 12 4) ++ leBytes 2 world ++ [1] ++ leBytes 1 faultlim ++
    zeros 12 ++ leBytes 8 (leAt image 16 8) ++ beBytes 48 (sha384 image) ++ zeros 40)

/-- KRETIRE: RETIRING, and FREE once nothing runs and no context names the kernel (R143, R169). -/
def W.kretire (w : W) (kid : Nat) : W :=
  let w := w.kput kid 0x12 1 3
  if w.le (w.kte kid + 0x18) 4 = 0 && !w.kidNamed kid then w.kput kid 0x12 1 0 else w

/-! ### The service endpoint (R168 to R170, R186, R187) -/

/-- World of a request: that of its queue pair (R168). -/
def W.svcWorld (w : W) (x : Svc) : Nat := match w.qp x.qp with | some q => q.world | none => 0

/-- A reply: the request's header with a STATUS, and a result. The bytes that a request shorter than a header lacks count as zero. -/
def svcReply (x : Svc) (status : Nat) (body : List Byte) : Svc :=
  let h := x.bytes ++ zeros 8
  { x with work := none, bytes := leBytes 1 1 ++ (h.drop 1).take 1 ++ beBytes 2 (16 + body.length) ++ (h.drop 4).take 4 ++ leBytes 1 status ++ zeros 7 ++ body }

/-- QUERY's result: WLD.STAT, WLD.CNT, KPR.MEAS and KPR.RSTCNT, big-endian in that order (R169). -/
def W.queryBody (w : W) (world : Nat) : List Byte :=
  beBytes 8 (w.wldStat world) ++ (List.range 8).flatMap (fun k => beBytes 8 (w.wldCnt world k)) ++
    (List.range 24).flatMap (fun k => beBytes 8 (w.get F.KPR_MEAS_WORD k)) ++ beBytes 4 (w.get F.KPR_RSTCNT_COUNT)

/-- Serve a request: the state, and the reply (R168 to R171). A refusal is recorded under WLD.SVC (R170). -/
def W.svcAnswer (w : W) (x : Svc) : W × Svc :=
  let be (o n : Nat) : Nat := ofBE ((x.bytes.drop o).take n)
  let world := w.svcWorld x
  let len := x.bytes.length
  let no (w : W) (st : Nat) : W × Svc :=
    (w.report { cls := 0x2B, level := 0, src := source 21 0, world := world, sub := st, detail := be 1 1 }, svcReply x st [])
  if be 0 1 ≠ 1 || be 2 2 ≠ len || len < 16 || 4096 < len || be 8 8 ≠ 0 then no w 8
  else match x.work with
    | some .query => if len = 16 then (w, svcReply x 0 (w.queryBody world)) else no w 8
    | some (.kload image kid base lim) =>
      if world = 0 || len ≠ 32 || be 28 4 ≠ image.length || !imageOk image then no w 8
      else if kid = 0 || 4096 ≤ kid || w.kstate kid ≠ 0 || base % 8 ≠ 0 || !w.cirqueOwned base (leAt image 8 4) || !w.cirqueOwned (w.kte kid) 128 then no w 0x10
      else (w.kernelLoad image kid base lim world, svcReply x 0 (beBytes 2 kid))
    | some .kretire =>
      let kid := be 16 2
      if world = 0 || len ≠ 18 then no w 8
      else if kid = 0 || 4096 ≤ kid || w.kstate kid = 0 || 3 < w.kstate kid || w.kworld kid ≠ world then no w 1
      else (w.kretire kid, svcReply x 0 [])
    | some (.load desc prio tag) =>
      let ok := match w.chanAny (be 16 4) with
        | some c => decide (c.world = world) && decide (c.state = 1) && c.rdok
        | none => false
      if world = 0 || len ≠ 48 || 2 ^ 20 ≤ be 16 4 then no w 8
      else if !ok then no w 1
      else if 256 ≤ w.loads || w.flag F.WLD_LOADCMD_BUSY || desc % 64 ≠ 0 || !w.cirqueOwned desc 64 then no w 0x10
      else
        let w := w.unitStore desc (leBytes 4 (be 16 4) ++ leBytes 2 world ++ leBytes 1 prio ++ [0] ++ leBytes 8 (be 20 8) ++ leBytes 8 (be 28 8) ++
          leBytes 8 (be 36 8) ++ leBytes 4 (be 44 4) ++ leBytes 4 tag ++ zeros 24)
        let w' := w.loadCmd desc
        if !w.flag F.WLD_LOADCMD_ERR && w'.flag F.WLD_LOADCMD_ERR then no w' 8
        else (w', { (svcReply x 0 (zeros 9)) with load := some desc })
    | some (.admin reply) =>
      let op := be 1 1
      if op < 0x40 || 0x80 ≤ op then no w 8
      else if world ≠ 0 then no w 1
      else (w, svcReply x 0 reply)
    | none => (w, x)

/-- Whether the Cirque firmware serves requests: not during a restart (R186). -/
def W.svcOpen (w : W) : Bool := !w.flag F.KPR_RSTCTL_RUN

/-- The firmware frees the RETIRING kernels that nothing runs and no context names (R143, R169). -/
def W.freeRetired (w : W) : W :=
  (w.listedBlocks (w.base F.FLO_KTBASE_BASE) 128 4096).foldl (fun (w : W) (kid : Nat) =>
    if w.kstate kid = 3 && w.le (w.kte kid + 0x18) 4 = 0 && !w.kidNamed kid then w.kput kid 0x12 1 0 else w) w

/-- Serve the requests that wait, in order of arrival (R187). -/
def W.svcServe (w : W) : W :=
  if !w.svcOpen then w
  else
    let w := w.freeRetired
    let l := w.dev.svc
    l.foldl (fun (w : W) (x : Svc) =>
      let (w, y) := if x.work.isSome then w.svcAnswer x else (w, x)
      { w with dev := { w.dev with svc := w.dev.svc ++ [y] } }) { w with dev := { w.dev with svc := [] } }

/-- A service request reaches the endpoint on a service queue pair whose gate is open; each row takes its own operations. -/
def W.svcIn (w : W) (q : Nat) (b : List Byte) (op : Nat → Bool) (work : SvcWork) : W :=
  match w.qp q with
  | none => w
  | some x =>
    if x.chid.isSome || !x.up || !w.gateFabric (w.qpSeg q) || !op (leAt b 1 1) then w
    else { w with dev := { w.dev with svc := w.dev.svc ++ [({ qp := q, at_ := w.now, bytes := b, work := some work } : Svc)] } }.svcServe

/-- SVC_QUERY. -/
def execSvcQuery (q : Nat) (bytes : List Byte) (s : State) : Host.Outcome State Fault Refusal :=
  lift (fun w => w.svcIn q bytes (· = 1) .query) s

/-- SVC_KLOAD: with the image that RDMA READ finds, and the KID, place and FAULTLIM that the Cirque firmware chooses. -/
def execSvcKload (q : Nat) (bytes image : List Byte) (kid codebase faultlim : Nat) (s : State) : Host.Outcome State Fault Refusal :=
  lift (fun w => w.svcIn q bytes (· = 2) (.kload image kid codebase faultlim)) s

/-- SVC_KRETIRE. -/
def execSvcKretire (q : Nat) (bytes : List Byte) (s : State) : Host.Outcome State Fault Refusal :=
  lift (fun w => w.svcIn q bytes (· = 3) .kretire) s

/-- SVC_LOAD: with the place, priority and TAG of the descriptor that the Cirque firmware chooses. -/
def execSvcLoad (q : Nat) (bytes : List Byte) (desc prio tag : Nat) (s : State) : Host.Outcome State Fault Refusal :=
  lift (fun w => w.svcIn q bytes (· = 4) (.load desc prio tag)) s

/-- SVC_ADMIN: an administrative request with the firmware release's own answer, and every unlisted OP. -/
def execSvcAdmin (q : Nat) (bytes reply : List Byte) (s : State) : Host.Outcome State Fault Refusal :=
  lift (fun w => w.svcIn q bytes (fun op => op = 0 || 5 ≤ op) (.admin reply)) s

/-- SERVICE_REPLY_RELEASE: the reply at place `n` leaves, HOLD µs after its request at the earliest, and not during a restart (R170, R186). -/
def execServiceReplyRelease (n : Nat) (s : State) : Host.Outcome State Fault Refusal :=
  lift (fun w => match w.dev.svc[n]? with
    | none => w
    | some x =>
      if x.work.isSome || x.load.isSome || !w.svcOpen || w.now < x.at_ + w.get F.WLD_SVCCTL_HOLD * 1000 then w
      else
        let w := { w with dev := { w.dev with svc := w.dev.svc.eraseIdx n } }
        match w.qp x.qp with
        | some q =>
          if q.state = 3 && !w.shut then (w.rdmaPost x.qp { psn := 0, n := 1, kind := 0, len := x.bytes.length }).qpSend x.qp (.svcReply x.qp x.bytes) else w
        | none => w) s

end Sys2Proof.Machine
end

