-- ==== Sys2Proof/Machine/Modes.lean ====
section
/-! DEFINITION. Reset, bring-up, leaving Thaw, mode requests, keepers, the Cirque restart and ALIVE (R13, R22 to R25, R185 to R187,
R354 to R358, R435 to R453, R464 to R466). -/

namespace Sys2Proof.Machine

open Sys2Proof

/-! ### Reset (R7, R24, R435 to R437, R459, R464) -/

/-- The registers that a reset leaves: MOR.FATAL, BOOT.CTL.FIRST and PWR.THERM.TRIP stand until PWRGOOD falls (R352, R439, R472). -/
def W.keptRegs (w : W) (power : Bool) : Tab Word :=
  if power then []
  else
    let v : W := { w with dev := { regs := [] } }
    let v := (List.range 4).foldl (fun (v : W) (i : Nat) => v.setReg .MOR_FATAL i (w.reg .MOR_FATAL i)) v
    ((v.set F.BOOT_CTL_FIRST (w.get F.BOOT_CTL_FIRST)).set F.PWR_THERM_TRIP (w.get F.PWR_THERM_TRIP)).dev.regs

/-- Show the output pins that a change moved: ALIVE, TPPS_OUT, PCI_PERST_N and CIO (R459). -/
def W.pinsMoved (w w' : W) : W :=
  let x := if w.dev.mode.alive && !w'.dev.mode.alive then w'.send (.pin 1 0 0) else w'
  let x := if w.dev.servo.ppsOut && !w'.dev.servo.ppsOut then x.send (.pin 2 0 0) else x
  let x := (w.dev.pci.keysWhere fun _ p => p.perst).foldl (fun (x : W) (p : Nat) => if (Tab.getD w'.dev.pci p {}).perst then x else x.send (.pin 4 p 0)) x
  (List.range 48).foldl (fun (x : W) (n : Nat) => if w.pinLevel n = w'.pinLevel n then x else x.pinShow n) x

/-- The device in Reset: every register and unit at its reset state; what the pins and the outside hold stays (R7, R24). `power`: PWRGOOD
fell, so nothing is kept. -/
def W.intoReset (w : W) (power : Bool) : W :=
  let d := w.dev
  let m := d.mode
  let d' : Dev := {
    regs := w.keptRegs power
    free := d.free
    out := d.out
    mode := { rstN := m.rstN, pwrgood := m.pwrgood, railBad := m.railBad, pwrFailN := m.pwrFailN, strapPair := m.strapPair, strapSlot := m.strapSlot,
              flash := m.flash }
    plk := { present := d.plk.present }
    servo := { tref := d.servo.tref }
    mgmt := if power then { daaWait := false, jtag := d.mgmt.jtag }
            else { dynAddr := d.mgmt.dynAddr, smbus := d.mgmt.smbus, daaWait := d.mgmt.daaWait, jtag := d.mgmt.jtag }
    pwr := { tripPin := d.pwr.tripPin && !power } }
  W.pinsMoved w { w with now := 0, ws := [], dev := d' }

/-- RESET_ASSERT: SYS_RST_N (0) or PWRGOOD (1) goes low. A fall of PWRGOOD ends the power supply of the memories: they then read as
memory does after power-on (assumption 3). -/
def execResetAssert (pin : Nat) (s : State) : Host.Outcome State Fault Refusal :=
  let w := s.w
  let w := if pin = 0 then (w.modeSt fun m => { m with rstN := false }).intoReset false
           else (w.modeSt fun m => { m with pwrgood := false, railBad := false }).intoReset true
  .next { s with now := 0, mem := if pin = 0 then s.mem else {}, dev := w.dev }

/-- RAIL_OUT_OF_RANGE: Reset with no flush; the reset holds until a pin rises again (R464). -/
def execRailOutOfRange (s : State) : Host.Outcome State Fault Refusal :=
  liftNow (fun w => if w.dev.mode.pwrgood then (w.modeSt fun m => { m with railBad := true }).intoReset false else w) s

/-- The fuses and what they load: the fields marked F (R437, R443, R479, R482). -/
def W.loadFuses (w : W) : W :=
  let f := w.fuse
  let minor := bits f.idrev 23 16
  let w := ((w.setReg .IDREV_IDREV 0 f.idrev).setReg .IDREV_SERNO_W0 0 (BitVec.ofNat 64 f.serno)).setReg .IDREV_SERNO_W1 0 (BitVec.ofNat 64 (f.serno / 2 ^ 64))
  let w := (w.set F.DBG_STAT_LOCK (b2n f.dbgLock)).set F.KDF_ROOTID_ID f.rootid
  let w := (w.set F.KDF_RKCMD_BLANK (b2n f.rootKey.isNone)).setReg .PWR_VID 0 (BitVec.ofNat 64 f.vid)
  let w := (w.set F.CRN_UCREV_ROMREV (0x0210 + minor)).set F.CHN_UCREV_ROMREV (0x0112 + minor)
  let w := if f.rootKey.isNone then w.set F.BOOT_STAT_FAIL 4 else w
  w.modeSt fun m => { m with fusesLoaded := true, rootKey := f.rootKey }

/-- Reset is left for Thaw: the straps show, and the fuses are loaded before anything else happens (R436, R437). -/
def W.leaveReset (w : W) : W :=
  let m := w.dev.mode
  let w := (w.set F.SYS_MODE_PAIRSTRAP (b2n m.strapPair)).set F.PLK_SEG_HOME (m.strapSlot % 2)
  w.loadFuses

/-- RESET_RELEASE: SYS_RST_N rises; with PWRGOOD high the straps are sampled and the mode is Thaw. -/
def execResetRelease (pair : Bool) (slot : Nat) (s : State) : Host.Outcome State Fault Refusal :=
  liftNow (fun w =>
    if w.dev.mode.rstN then w
    else
      let w := w.modeSt fun m => { m with rstN := true, railBad := false, strapPair := pair, strapSlot := slot % 4 }
      let w := { w with now := 0 }
      if w.dev.mode.pwrgood then w.leaveReset else w) s

/-- PWRGOOD_RISE: the 1 s wait of R409 starts, and with SYS_RST_N high already the mode is Thaw under the straps as last sampled. -/
def execPwrgoodRise (s : State) : Host.Outcome State Fault Refusal :=
  liftNow (fun w =>
    if w.dev.mode.pwrgood then w
    else
      let w := (w.modeSt fun m => { m with pwrgood := true, railBad := false }).modMgmt fun g => { g with daaWait := true }
      if w.dev.mode.rstN then { w with now := 0 }.leaveReset else w) s

/-! ### Bring-up (R437 to R450) -/

/-- Thaw that runs bring-up: not the Thaw of a level 3 record (R450). -/
def W.bringing (w : W) : Bool := w.cur = mTHAW && !w.flag F.SYS_MODE_FATAL

/-- Bring-up step `n` has completed (R444). -/
def W.stepDone (w : W) (n : Nat) : W := (w.set F.BOOT_STAT_STEP n).modeSt fun m => { m with steps := n :: m.steps.filter (· ≠ n) }

/-- Whether bring-up step `n` has completed. -/
def W.hasStep (w : W) (n : Nat) : Bool := w.dev.mode.steps.contains n

/-- A unit comes into service or leaves it at its self-test. -/
def W.tested (w : W) (src : Nat) (ok : Bool) : W := if ok && !(w.unitOf src).out then w.setUnit src { svc := true } else w.unitOut src

/-- The claim of keeper `k` with generation `g` (R356). -/
def W.kprClaim (w : W) (k g : Nat) : Nat := (if k = 0 then w.get F.KPR_KCTL_RANKA else w.get F.KPR_KCTL_RANKB) * 4096 + g % 4096

/-- The claim of keeper `k` as KPR.KSTAT shows it. -/
def W.claimOf (w : W) (k : Nat) : Nat := if k = 0 then w.get F.KPR_KSTAT_CLAIMA else w.get F.KPR_KSTAT_CLAIMB

/-- Set the claim of keeper `k`. -/
def W.setClaim (w : W) (k v : Nat) : W := if k = 0 then w.set F.KPR_KSTAT_CLAIMA v else w.set F.KPR_KSTAT_CLAIMB v

/-- KEEPER_SELFTEST_DONE: the claim comparison picks the active keeper, or none passed and nothing runs (R356, R437, R438). -/
def execKeeperSelftestDone (a b : Bool) (s : State) : Host.Outcome State Fault Refusal :=
  lift (fun w =>
    if !w.bringing || w.dev.mode.keeperOk ≠ [false, false] || decide (w.get F.BOOT_STAT_FAIL = 1) then w
    else
      let w := if w.dev.mode.fusesLoaded then w else w.loadFuses
      let w := ((w.tested (source 1 0) a).tested (source 1 1) b).modeSt fun m => { m with keeperOk := [a, b] }
      let w := (w.setClaim 0 (w.kprClaim 0 0)).setClaim 1 (w.kprClaim 1 0)
      if !a && !b then w.set F.BOOT_STAT_FAIL 1
      else
        let act := if !a then 1 else if !b then 0 else if claimWins (w.claimOf 0) (w.claimOf 1) 0 then 0 else 1
        let w := { w with dev := { w.dev with kpr := { w.dev.kpr with running := true } } }
        (w.set F.KPR_KSTAT_ACTIVE act).set F.KPR_KSTAT_FSTATE (if a && b then 0 else 3)) s

/-- Component `i` of a slot image: offset, length and digest (R440). -/
def slotComp (img : List Byte) (i : Nat) : Nat × Nat × Nat :=
  let o := 0x10 + 56 * i
  (leAt img o 4, leAt img (o + 4) 4, ofBE ((img.drop (o + 8)).take 48))

/-- The bytes of component `i`. -/
def compBytes (img : List Byte) (i : Nat) : List Byte :=
  let (o, n, _) := slotComp img i
  (img.drop o).take n

/-- Whether no two of the listed ranges overlap. -/
def rangesApart : List (Nat × Nat) → Bool
  | [] => true
  | (o, n) :: t => (t.all fun p => decide (n = 0) || decide (p.2 = 0) || decide (o + n ≤ p.1) || decide (p.1 + p.2 ≤ o)) && rangesApart t

/-- slot_ok for a flash image (R441). -/
def W.slotOk (w : W) (img : List Byte) : Bool :=
  let z (o n : Nat) : Bool := ((img.drop o).take n).all (· = 0)
  let ids := (List.range (leAt img 6 1)).map fun i => leAt img (0x128 + 8 * i) 8
  let cs := (List.range 5).map fun i => slotComp img i
  let lims := [0x40000, 0x100000, 0x2000000, 0x4000, 0x4000]
  decide (0x1000 ≤ img.length) && decide (leAt img 0 4 = 0x484B3749) && decide (leAt img 4 2 = 1) && decide (leAt img 0xFF8 8 = crc64 (img.take 0xFF8)) &&
    z 7 1 && z 0xE 2 && z 0x228 3536 &&
    ids.contains w.fuse.idrev.toNat &&
    (cs.all fun c => decide (c.1 + c.2.1 ≤ img.length)) && rangesApart (cs.map fun c => (c.1, c.2.1)) &&
    ((cs.zip lims).all fun p => decide (p.1.2.1 ≤ p.2)) &&
    decide (leAt img 0xC 1 ≤ leAt img 0xD 1) &&
    ((List.range 5).all fun i => decide ((slotComp img i).2.1 = 0) || decide (sha384 (compBytes img i) = (slotComp img i).2.2))

/-- A measurement, word 0 most significant (R187). -/
def W.meas (w : W) (i : Nat) : Nat := (List.range 6).foldl (fun a j => a * 2 ^ 64 + (w.reg .KPR_MEAS (i * 6 + j)).toNat) 0

/-- Set a measurement. -/
def W.setMeas (w : W) (i v : Nat) : W :=
  (List.range 6).foldl (fun (w : W) (j : Nat) => w.setReg .KPR_MEAS (i * 6 + j) (BitVec.ofNat 64 (v / 2 ^ (64 * (5 - j))))) w

/-- MEAS[i] := SHA-384(MEAS[i] ‖ digest) (R442). -/
def W.extend (w : W) (i digest : Nat) : W := w.setMeas i (sha384 (beBytes 48 (w.meas i) ++ beBytes 48 digest))

/-- The flash image of slot `k` as last seen. -/
def W.flash (w : W) (k : Nat) : List Byte := w.dev.mode.flash.getD k []

/-- The first stage of slot `k` starts: MEAS[0] takes the boot ROM's digest and the first stage's (R439, R442). -/
def W.bootSlot (w : W) (k : Nat) : W :=
  let img := w.flash k
  let w := (w.set F.BOOT_STAT_SLOT k).set F.BOOT_STAT_BOOTED 1
  let w := w.modeSt fun m => { m with comps := (List.range 5).map fun i => (slotComp img i).2.2, engif := (leAt img 0xC 1, leAt img 0xD 1) }
  (w.extend 0 Config.bootRomDigest).extend 0 (slotComp img 0).2.2

/-- The boot ROM's choice of a slot; a slot that failed before is not tried again (R439). -/
def W.slotSelect (w : W) : W :=
  let first := w.get F.BOOT_CTL_FIRST
  let failed (w : W) (k : Nat) : Bool := nbit (w.get F.BOOT_STAT_SLOTFAIL) k
  let try1 (w : W) (k : Nat) : W × Bool :=
    if failed w k then (w, false)
    else if w.slotOk (w.flash k) then (w.bootSlot k, true)
    else (w.set F.BOOT_STAT_SLOTFAIL (w.get F.BOOT_STAT_SLOTFAIL ||| 2 ^ k), false)
  let (w, ok) := try1 w first
  if ok then w
  else
    let (w, ok) := try1 w (1 - first)
    if ok then w else w.set F.BOOT_STAT_FAIL 2

/-- The boot ROM sets the two core regulators to their PWR.VID set points (R463). -/
def W.setRails (w : W) : W :=
  (w.send (.vout 0x40 (500 + 5 * w.get F.PWR_VID_CORE))).send (.vout 0x41 (500 + 5 * w.get F.PWR_VID_MESH))

/-- BOOT_SLOT_SELECT: the active keeper runs the boot ROM, which sets the regulators, on the two flashes as they are. -/
def execBootSlotSelect (flash0 flash1 : List Byte) (s : State) : Host.Outcome State Fault Refusal :=
  lift (fun w =>
    if !w.bringing || !w.dev.kpr.running || w.flag F.BOOT_STAT_BOOTED || decide (w.get F.BOOT_STAT_FAIL = 2) then w
    else (w.setRails.modeSt fun m => { m with flash := [flash0, flash1] }).slotSelect) s

/-- Whether the first stage runs: what R444's steps need. -/
def W.staging (w : W) : Bool := w.bringing && w.flag F.BOOT_STAT_BOOTED

/-- PLL_LOCK: step 1, or CLK.LOCK at level 3 (R444). -/
def execPllLock (ok : Bool) (s : State) : Host.Outcome State Fault Refusal :=
  lift (fun w => if !w.staging || w.hasStep 1 then w else if ok then w.stepDone 1 else w.report { cls := 0x08, level := 3, src := source 25 0 }) s

/-- KNOWN_ANSWER_TESTS: steps 2 and 3 with the cipher units that passed; the others leave service (R128, R444). -/
def execKnownAnswerTests (rime kdu : Bool) (cores : List Nat) (s : State) : Host.Outcome State Fault Refusal :=
  lift (fun w =>
    if !w.staging || !w.hasStep 1 || w.hasStep 3 then w
    else
      let w := ((w.tested (source 8 24) rime).stepDone 2).tested (source 8 25) kdu
      ((List.range (w.xm 24 12)).foldl (fun (w : W) (u : Nat) => w.tested (source 8 u) (cores.contains u)) w).stepDone 3) s

/-- The units that self-test covers, by KIND and count (R444, R448). -/
def W.testUnits (w : W) : List Nat :=
  let k (kind n : Nat) : List Nat := (List.range n).map (source kind)
  k 2 (w.xm 36 20) ++ ((List.range (w.xm 288 144)).map fun n => coreSrc (.flo n)) ++ k 6 (w.xm 68 36) ++ k 7 (w.xm 32 16) ++ k 8 (w.xm 24 12) ++
    k 9 (w.xm 48 24) ++ k 10 (w.xm 9 5) ++ k 11 (w.xm 32 16) ++ k 14 (w.xm 32 16)

/-- Give logical index `l` to physical unit `p`, or to the first spare left that passed; no unit: the index is retired (R445). -/
def W.assignUnit (w : W) (valid phys : Fld) (src : Nat → Nat) (spares : List Nat) (l p : Nat) : W :=
  let ok (u : Nat) : Bool := (w.unitOf (src u)).svc
  let put (w : W) (u : Nat) : W := (w.set valid 1 l).set phys u l
  if ok p then put w p
  else match spares.find? fun u => (w.unitOf (src u)).spare with
    | some u => (put w u).setUnit (src u) { svc := true }
    | none => w.set valid 0 l

/-- Units beyond the in-service count that passed are spares until they take an index (R3, R445). -/
def W.asSpares (w : W) (src : Nat → Nat) (us : List Nat) : W :=
  us.foldl (fun (w : W) (u : Nat) => if (w.unitOf (src u)).svc then w.setUnit (src u) { spare := true } else w) w

/-- Logical Cornice cores of the order code. -/
def W.crnLogs (w : W) : Nat := w.xm 32 16
/-- The physical indices of the Cornice spares: the last cluster (R221, R344). -/
def W.crnSpares (w : W) : List Nat := upto w.crnLogs 4

/-- The physical Cornice core of logical core `l`, whichever arrangement holds (CRN.MAP). -/
def W.mapped (w : W) (l : Nat) : Option Nat := if w.flag F.CRN_MAP_VALID l then some (w.get F.CRN_MAP_PHYS l) else none

/-- CRN.PAIRSTAT of a pair. -/
def W.setPair (w : W) (k state lead trail : Nat) : W :=
  ((w.set F.CRN_PAIRSTAT_STATE state k).set F.CRN_PAIRSTAT_LEAD lead k).set F.CRN_PAIRSTAT_TRAIL trail k

/-- Logical indices of Cornice cores, Floe cores and channel engines, the pairs, and the Snowpack slices (R264, R337, R445). Logical Floe
core 8c + j is physical core 9c + j; the ninth core of a cluster is its spare. -/
def W.assignAll (w : W) : W :=
  let crn (p : Nat) : Nat := coreSrc (.crn p)
  let flo (p : Nat) : Nat := coreSrc (.flo p)
  let eng (p : Nat) : Nat := source 6 p
  let engSp := upto (w.xm 64 32) 4
  let w := ((w.asSpares crn w.crnSpares).asSpares flo ((List.range (w.xm 32 16)).map fun c => 9 * c + 8)).asSpares eng engSp
  let w := (List.range w.crnLogs).foldl (fun (w : W) (l : Nat) => w.assignUnit F.CRN_MAP_VALID F.CRN_MAP_PHYS crn w.crnSpares l l) w
  let w := (List.range w.floLogs).foldl (fun (w : W) (l : Nat) => w.assignUnit F.FLO_MAP_VALID F.FLO_MAP_PHYS flo [9 * (l / 8) + 8] l (9 * (l / 8) + l % 8)) w
  let w := (List.range (w.xm 64 32)).foldl (fun (w : W) (l : Nat) => w.assignUnit F.CHN_ENGMAP_VALID F.CHN_ENGMAP_PHYS eng engSp l l) w
  let w := (List.range w.floLogs).foldl (fun (w : W) (l : Nat) =>
    if w.flag F.FLO_MAP_VALID l then w.coreStat (w.get F.FLO_MAP_PHYS l) 1 0 0xFFFF else w) w
  let w := if !w.dev.mode.strapPair then w else
    (List.range (w.crnLogs / 2)).foldl (fun (w : W) (k : Nat) =>
      match w.mapped (2 * k), w.mapped (2 * k + 1) with
      | some a, some b => w.setPair k 0 a b
      | some a, none => w.setPair k 1 a 0
      | none, some b => ((w.setPair k 1 b 0).set F.CRN_MAP_VALID 0 (2 * k + 1)).set F.CRN_MAP_VALID 1 (2 * k) |> fun w => w.set F.CRN_MAP_PHYS b (2 * k)
      | none, none => w) w
  -- a slice group serves whole or not at all
  let ok (g : Nat) : Bool := (upto (4 * g) 4).all fun p => (w.unitOf (source 9 p)).svc
  let w := (List.range (w.xm 12 6)).foldl (fun (w : W) (g : Nat) =>
    if ok g then w else (upto (4 * g) 4).foldl (fun (w : W) (p : Nat) => w.unitOut (source 9 p)) w) w
  let n := 4 * ((List.range (w.xm 12 6)).filter ok).length
  let phys := ((List.range (w.xm 12 6)).filter ok).flatMap fun g => upto (4 * g) 4
  (w.set F.SNP_CTL_SLICES n).modCoh fun c => { c with slices := n, slicePhys := phys }

/-- UNIT_SELFTEST_DONE: step 4; `failed` lists the units that failed, as Moraine sources (R346, R444). -/
def execUnitSelftestDone (failed : List Nat) (s : State) : Host.Outcome State Fault Refusal :=
  lift (fun w =>
    if !w.staging || !w.hasStep 3 || w.hasStep 4 then w
    else (w.testUnits.foldl (fun (w : W) (u : Nat) => w.tested u (!failed.contains u)) w).assignAll.stepDone 4) s

/-- The largest permitted channel count of R279. -/
def dramCount (isM : Bool) (n : Nat) : Nat := if 8 ≤ n && !isM then 8 else if 4 ≤ n then 4 else if 2 ≤ n then 2 else min n 1

/-- Step 5 has completed once memory has trained and, with a PCIe port enabled, its training is over (R447). -/
def W.trainEnd (w : W) : W :=
  let pcie := (List.range (w.xm 8 4)).any fun p => w.flag F.PCI_PORTCFG_EN p
  if w.hasStep 50 && w.hasStep 51 && (w.hasStep 52 || !pcie) && !w.hasStep 5 then w.stepDone 5 else w

/-- Memory units of one kind that passed: MEMH.CFG or MEMB.CFG and the units (R278, R279, R476). -/
def W.trainMem (w : W) (bulk : Bool) (passed : List Nat) (gib : Nat) : W :=
  let lim := if bulk then w.xm 8 4 else w.xm 6 4
  let ok := (List.range lim).filter fun u => passed.contains u
  let used := if bulk then ok.take (dramCount w.isM ok.length) else ok
  let map := (used.map (2 ^ ·)).sum
  let b := if bulk then 8 else 0
  let w := (List.range lim).foldl (fun (w : W) (u : Nat) => w.tested (source 12 (b + u)) (used.contains u)) w
  (List.range lim).foldl (fun (w : W) (i : Nat) =>
    if bulk then ((w.set F.MEMB_CFG_UNITGIB gib i).set F.MEMB_CFG_MAP map i).set F.MEMB_CFG_UNITS used.length i
    else ((w.set F.MEMH_CFG_UNITGIB gib i).set F.MEMH_CFG_MAP map i).set F.MEMH_CFG_UNITS used.length i) w

/-- TRAINING_DONE: HBM (0), bulk DRAM with DIMMs of `gib` GiB (1), or the PCIe ports' 100 ms (2) (R447). -/
def execTrainingDone (kind : Nat) (passed : List Nat) (gib : Nat) (s : State) : Host.Outcome State Fault Refusal :=
  lift (fun w =>
    if !w.staging || !w.hasStep 3 || w.hasStep (50 + kind) || 2 < kind then w
    else
      let st := w.get F.BOOT_STAT_STEP
      let w := match kind with
        | 0 => w.trainMem false passed 24
        | 1 => w.trainMem true passed gib
        | _ => (List.range (w.xm 8 4)).foldl (fun (w : W) (p : Nat) =>
            if w.flag F.PCI_PORTCFG_EN p && (Tab.getD w.dev.pci p {}).links.isEmpty then w.report { cls := 0x35, level := 1, src := source 15 p } else w) w
      ((w.stepDone (50 + kind)).set F.BOOT_STAT_STEP st).trainEnd) s

/-! ### Patch sets (R253 to R255, R446) -/

/-- Whether no element occurs twice. -/
def allDistinct : List Nat → Bool
  | [] => true
  | x :: t => !t.contains x && allDistinct t

/-- Whether a patch set at `a` lies in memory OWNED by world 0x0000; before OWN.CTL.EN no page is owned and world 0x0000 reads all memory (R173, R253). -/
def W.ucOwned (w : W) (a n : Nat) : Bool :=
  a % 16 = 0 && (!w.flag F.OWN_CTL_EN || (pagesOf a n).all fun p => match w.ownEntry p with | some e => decide (e.st = 1) && decide (e.owner = 0) | none => false)

/-- What the check of a patch set finds: 0 accepted, 1 refused for its ROMREV, 2 refused for another reason, memory that world 0x0000 does not own among
them (R253, R254, assumption 105). -/
def W.ucCheck (w : W) (target romrev a : Nat) : Nat :=
  let le (o n : Nat) : Nat := w.le (a + o) n
  let words := le 8 2
  let nm := le 0xA 1
  let ms := (List.range 64).map fun i => le (0x10 + 4 * i) 4
  let inUse := (ms.take nm).filter fun m => nbit m 31
  if !w.ucOwned a (0x150 + 24 * min words 512) then 2
  else if le 6 2 ≠ romrev then 1
  else if le 4 2 ≠ target || le 0 4 ≠ 0x50435355 || words = 0 || 512 < words || 64 < nm || le 0xC 4 ≠ 0 || le 0x110 16 ≠ 0 then 2
  else if ((ms.drop nm).any (· ≠ 0)) || ((ms.take nm).any fun m => nbits m 15 9 ≠ 0) then 2
  else if inUse.any fun m => 16384 ≤ nbits m 30 16 || words ≤ nbits m 8 0 then 2
  else if !allDistinct (inUse.map fun m => nbits m 30 16) then 2
  else if (List.range words).any fun i => !Config.microwordOk (w.bytes (a + 0x120 + 24 * i) 20) || decide (le (0x120 + 24 * i + 20) 4 ≠ 0) then 2
  else 0

/-- Set bits of DETSTAT while DET is 1 (R249); TIMELOSS is bit 31. -/
def Core.detLoss (x : Core) (reason : Nat) : Core :=
  if x.corectl.getLsbD 5 then { x with detstat := x.detstat ||| BitVec.ofNat 64 (2 ^ 31 + 2 ^ reason) } else x

/-- An event outside R247 at a core, by its DETSTAT bit: 0 OUTSIDE, 1 RETRY, 2 CMPQ, 3 PARK, 4 HALT. -/
def W.detLoss (w : W) (c : CoreId) (reason : Nat) : W := w.modCore c fun x => x.detLoss reason

/-- The set at `a` as patch RAM and match registers take it (R253). -/
def W.patchSet (w : W) (a : Nat) : PatchSet :=
  let m (i : Nat) : Nat := w.le (a + 0x10 + 4 * i) 4
  { rev := w.le (a + 0xB) 1
    pairs := (List.range 64).filterMap fun i => if nbit (m i) 31 then some (nbits (m i) 30 16, nbits (m i) 8 0) else none
    words := (List.range (w.le (a + 8) 2)).map fun i => w.le (a + 0x120 + 24 * i) 20 }

/-- A patch set is loaded: in force in every core, each of which parks at its next boundary while its patch RAM and matches are written, or refused, which
leaves ROM-only microcode (R249, R254, R255). -/
def W.ucLoad (w : W) (crn : Bool) (a : Nat) : W × Bool :=
  let why := if crn then w.ucCheck 1 (w.get F.CRN_UCREV_ROMREV) a else w.ucCheck 2 (w.get F.CHN_UCREV_ROMREV) a
  let (romonly, mismatch, badset, rev) := if crn then (F.CRN_UCSTAT_ROMONLY, F.CRN_UCSTAT_MISMATCH, F.CRN_UCSTAT_BADSET, F.CRN_UCSTAT_SETREV)
    else (F.CHN_UCSTAT_ROMONLY, F.CHN_UCSTAT_MISMATCH, F.CHN_UCSTAT_BADSET, F.CHN_UCSTAT_SETREV)
  let w := (w.set romonly (b2n (why ≠ 0))).set rev (if why = 0 then w.le (a + 0xB) 1 else 0)
  let w := if why = 1 then w.set mismatch 1 else if why = 2 then w.set badset 1 else w
  let set := if why = 0 then some (w.patchSet a) else none
  let w := if crn then
      (List.range (w.xm 36 20)).foldl (fun (w : W) (p : Nat) => w.modCore (.crn p) fun x =>
        let x := { x with patch := set }
        if why = 0 && x.active then x.detLoss 3 else x) w
    else { w with dev := { w.dev with engPatch := set } }
  (w, why = 0)

/-- The microword that a core's sequencer fetches at a ROM address: the patch word of a match register that names it, at the same time (R251). What a
microword does is not given (assumption 90). -/
def Core.microword (x : Core) (rom : Nat → Nat) (a : Nat) : Nat :=
  match x.patch with
  | none => rom a
  | some s => match s.pairs.find? fun m => m.1 = a with
    | some m => s.words.getD m.2 0
    | none => rom a

/-- The keeper loads the patch set of COMP entry `i` through memory, unless the set's own DIGEST differs from that entry's (R446). -/
def W.keeperPatch (w : W) (i a : Nat) (set : List Byte) : W :=
  let n := 0x120 + 24 * leAt set 8 2
  if set.isEmpty || decide (ofBE ((set.drop n).take 48) ≠ w.dev.mode.comps.getD i 0) then w
  else
    let w := w.dmaWrite a set
    if i = 3 then let (w, ok) := (w.set F.CRN_UCLOAD_ADDR (a / 16)).ucLoad true a; w.when (!ok) fun w => w.set F.CRN_UCLOAD_ERR 1
    else let (w, ok) := (w.set F.CHN_UCLOAD_ADDR (a / 16)).ucLoad false a; w.when (!ok) fun w => w.set F.CHN_UCLOAD_ERR 1

/-- PATCH_SET_LOAD: step 6 with the sets as the keeper read them from the booted slot, and where in memory it put them; an empty list
stands for no set. -/
def execPatchSetLoad (crnAddr engAddr : Nat) (crnSet engSet : List Byte) (s : State) : Host.Outcome State Fault Refusal :=
  lift (fun w =>
    if !w.staging || !w.hasStep 4 || !w.hasStep 5 || w.hasStep 6 then w
    else ((w.keeperPatch 3 crnAddr crnSet).keeperPatch 4 engAddr engSet).stepDone 6) s

/-! ### Starting the Cirque firmware (R185, R439, R442, R444) -/

/-- A Cornice core starts at a pc in world 0x0000 with interrupts off. -/
def W.startCore (w : W) (p pc : Nat) : W :=
  w.modCore (.crn p) fun x => { x with
    active := true, pc := BitVec.ofNat 64 pc, psw := 0, fpsw := 0, cworld := 0, waiting := false, doze := false, resv := none, out := [], undo := []
    since := 0, triggers := 0, ckpt := { pc := BitVec.ofNat 64 pc, g := x.g, psw := 0, fpsw := 0, cworld := 0, cstk := x.cstk } }

/-- Whether a core runs a tenant control program, which a Cirque restart leaves running: its present world is not 0x0000 (R186, assumption 104). -/
def Core.tenant (x : Core) : Bool := x.active && decide (x.cworld ≠ 0)

/-- The Cirque image of slot `k` goes to memory and starts on its cores. Its words are tagged CODE, from which alone a core fetches (R199; which
words the keeper tags is not stated, assumption 96). -/
def W.startCirque (w : W) (k : Nat) : W :=
  let (cores, a, pc) := w.dev.mode.cirque
  let img := compBytes (w.flash k) 2
  let w := (w.dmaWrite a img).tagRange a img.length tCODE
  cores.foldl (fun (w : W) (l : Nat) => match w.physCore l with | some p => if (w.core (.crn p)).tenant then w else w.startCore p pc | none => w) w

/-- Step 1 of a Cirque restart: the bulk services stop on their cores (R185). -/
def W.stopCirque (w : W) : W :=
  w.dev.mode.cirque.1.foldl (fun (w : W) (l : Nat) => match w.physCore l with
    | some p => if (w.core (.crn p)).tenant then w else w.modCore (.crn p) fun x => { x with active := false, out := [], undo := [] }
    | none => w) w

/-- CIRQUE_START: step 7: the keeper image and the Cirque image are measured, and the Cirque firmware starts on logical cores `cores` at
`pc`, its image at `addr`. A failure is one of the slot: the other one is tried (R439). -/
def execCirqueStart (ok : Bool) (cores : List Nat) (addr pc : Nat) (s : State) : Host.Outcome State Fault Refusal :=
  lift (fun w =>
    if !w.staging || !w.hasStep 6 || w.hasStep 7 then w
    else
      let k := w.get F.BOOT_STAT_SLOT
      if !ok then ((w.set F.BOOT_STAT_SLOTFAIL (w.get F.BOOT_STAT_SLOTFAIL ||| 2 ^ k)).set F.BOOT_STAT_BOOTED 0).slotSelect
      else
        let w := (w.extend 1 (w.dev.mode.comps.getD 1 0)).extend 2 (w.dev.mode.comps.getD 2 0)
        let w := w.modeSt fun m => { m with cirque := (cores, addr, pc) }
        (w.startCirque k).stepDone 7) s

/-! ### Readiness (R13, R448, R449) -/

/-- Whether a unit of a kind is in service. -/
def W.anyUnit (w : W) (kind n : Nat) : Bool := (List.range n).any fun u => (w.unitOf (source kind u)).svc

/-- Memory units in service. -/
def W.hbmUp (w : W) : Bool := (List.range 6).any fun u => (w.unitOf (source 12 u)).svc
/-- Bulk DRAM channels in service. -/
def W.dramUp (w : W) : Bool := (List.range 8).any fun u => (w.unitOf (source 12 (8 + u))).svc

/-- A Cornice core or pair is in service with its cluster L2 (R448). -/
def W.crnUp (w : W) : Bool :=
  (List.range w.crnLogs).any fun l => match w.physCore l with
    | some p => (w.unitOf (source 2 p)).svc && (w.unitOf (source 10 (p / 4))).svc
    | none => false

/-- A Snowpack slice group of 4 slices is in service (R448, R449). -/
def W.groupUp (w : W) : Bool := (List.range 12).any fun g => (upto (4 * g) 4).all fun p => (w.unitOf (source 9 p)).svc

/-- The memory that holds the owner table is in service (R448). -/
def W.tableUp (w : W) : Bool :=
  match w.pkind (w.base F.OWN_TBASE_BASE) with
  | .hbm => w.hbmUp
  | .dram => w.dramUp
  | _ => false

/-- The smallest set and the bring-up steps of a subsystem (R448). -/
def W.subsysUp (w : W) (n : Nat) : Bool :=
  let eng := ((List.range (w.xm 64 32)).filter fun l => w.flag F.CHN_ENGMAP_VALID l).length
  let mem := w.hasStep 50 && w.hasStep 51
  match n with
  | 1 => w.hasStep 4 && w.crnUp
  | 2 => w.hasStep 4 && (List.range w.floLogs).any fun l => w.flag F.FLO_MAP_VALID l && (w.unitOf (source 11 (l / 8))).svc
  | 3 => w.hasStep 4 && mem && (w.hbmUp || w.dramUp) && w.groupUp
  | 4 => w.hasStep 4
  | 5 => w.hasStep 6 && decide (4 ≤ eng) && w.dramUp
  | 6 => w.hasStep 4 && w.anyUnit 7 32
  | 7 => w.hasStep 2 && w.hasStep 3 && w.canDerive && ((w.anyUnit 8 24) || (w.unitOf (source 8 24)).svc)
  | 8 => w.hasStep 4 && w.anyUnit 14 32
  | 9 => Tab.exists? w.dev.pci fun _ p => !p.links.isEmpty
  | 10 => w.dev.kpr.running && mem && w.tableUp && w.flag F.OWN_CTL_EN
  | 11 => w.hasStep 1
  | _ => w.dev.kpr.running

/-- What a subsystem depends on (R13). -/
def subsysDeps : Nat → List Nat
  | 1 => [3, 4, 10]
  | 2 => [3, 4, 10]
  | 4 => [3]
  | 5 => [1, 3, 4, 6, 7, 8, 9, 10, 11]
  | 6 => [3, 4]
  | 7 => [3, 10]
  | 8 => [4, 11]
  | 9 => [4, 10]
  | 10 => [3]
  | 12 => [11]
  | _ => []

/-- SYS.READY.SUBSYS: each subsystem after those it depends on (R13). -/
def W.readyBits (w : W) : Nat :=
  [3, 11, 4, 10, 12, 1, 2, 6, 7, 8, 9, 5].foldl (fun r n =>
    if w.subsysUp n && (subsysDeps n).all fun d => nbit r (d - 1) then r ||| 2 ^ (n - 1) else r) 0

/-- SUBSYS_READY_CHANGE: what waited for a subsystem to become ready goes on (R13). -/
def execSubsysReadyChange (s : State) : Host.Outcome State Fault Refusal :=
  lift (fun w => if w.cur = mRESET then w else (w.set F.SYS_READY_SUBSYS w.readyBits).kickAll) s

/-- The smallest working set with which Thaw may be left (R449). -/
def W.minSet (w : W) : Bool :=
  w.dev.kpr.running && (w.hbmUp || w.dramUp) && ((List.range w.crnLogs).any fun l => (w.physCore l).isSome) &&
    decide (4 ≤ ((List.range (w.xm 64 32)).filter fun l => w.flag F.CHN_ENGMAP_VALID l).length) && w.groupUp &&
    w.anyUnit 14 32 && (w.anyUnit 8 24 || (w.unitOf (source 8 24)).svc)

/-! ### Leaving Thaw (R24, R450, R452) -/

/-- BOOT.CTL.GO is written (R450, R452). -/
def W.bootGo (w : W) : W :=
  if !w.bringing || !w.hasStep 7 then w.set F.BOOT_CTL_ERR 1
  else (w.stepDone 8).modeSt fun m => { m with goDone := true, goAt := w.now }

/-- PWAIT_EXPIRY: PWAIT ms have passed since GO with no pairing. -/
def execPwaitExpiry (s : State) : Host.Outcome State Fault Refusal :=
  lift (fun w =>
    let m := w.dev.mode
    if w.bringing && m.goDone && !w.paired && decide (m.goAt + w.get F.BOOT_CTL_PWAIT * 1000000 ≤ w.now) then w.modeSt fun m => { m with pwaitDone := true } else w) s

/-- THAW_EXIT: bring-up is complete and the mode follows from the partner; what keeps the device in Thaw shows in BOOT.STAT.FAIL. -/
def W.thawExit (w : W) : W :=
  let m := w.dev.mode
  let fail := w.get F.BOOT_STAT_FAIL
  let partner := w.flag F.SYS_READY_PARTNER
  if !w.bringing || !w.hasStep 7 || !m.goDone || fail = 1 || fail = 2 || fail = 5 then w
  else if m.rootKey.isNone then w.set F.BOOT_STAT_FAIL 4
  else if !w.minSet then w.set F.BOOT_STAT_FAIL 3
  else if !(partner || !w.dev.plk.present || w.flag F.PLK_STAT_PAIRFAIL || m.pwaitDone || decide (w.get F.BOOT_CTL_PWAIT = 0)) then w
  else
    let home := 2 ^ w.home
    let w := w.set F.BOOT_STAT_FAIL 0
    let w := w.gated fun w =>
      if !partner then (w.transition mDEGRADED).set F.PLK_SEG_SERVE home
      else if nbit w.dev.plk.pServe w.home then (w.transition mSTANDBY).set F.PLK_SEG_SERVE 0
      else (w.transition w.serviceMode).set F.PLK_SEG_SERVE home
    let w := if w.cur = mSTANDBY then w else w.replayOwn
    (w.registerAll).linkGo

/-- THAW_EXIT. -/
def execThawExit (s : State) : Host.Outcome State Fault Refusal := lift W.thawExit s

/-! ### Root key (R443) -/

/-- KDF.RKCMD.GO is written by world `world`. -/
def W.rkGo (w : W) (world : Nat) : W :=
  if w.flag F.KDF_RKCMD_BUSY then w
  else if w.cur ≠ mTHAW || !w.flag F.KDF_RKCMD_BLANK || world ≠ 0 then w.set F.KDF_RKCMD_ERR 1
  else
    let key := (List.range 4).foldl (fun a i => a * 2 ^ 64 + (w.reg .KDF_RKDATA i).toNat) 0
    (w.set F.KDF_RKCMD_BUSY 1).modeSt fun m => { m with rkBurn := some key }

/-- ROOT_KEY_BURN_DONE: the fuses hold the key and its ROOTID, KDF.RKDATA is cleared and the bank is blank no more (assumption 65); a burn that
fails its read-back shows ERR, and what the fuses then hold is free. The key takes effect at the next Reset. -/
def execRootKeyBurnDone (ok : Bool) (s : State) : Host.Outcome State Fault Refusal :=
  liftFuse (fun w => match w.dev.mode.rkBurn with
    | none => w
    | some key =>
      let k := if ok then (key, rootId key) else Config.failedBurn key
      let w := { w with fuse := { w.fuse with rootKey := some k.1, rootid := k.2 } }
      let w := (List.range 4).foldl (fun (w : W) (i : Nat) => w.setReg .KDF_RKDATA i 0) w
      (((w.set F.KDF_RKCMD_BUSY 0).set F.KDF_RKCMD_BLANK 0).set F.KDF_RKCMD_ERR (if ok then w.get F.KDF_RKCMD_ERR else 1)).modeSt fun m => { m with rkBurn := none }) s

/-! ### Power failure (R86, R450, R465, R466) -/

/-- POWER_FAIL_ACCEPT: admission stops; the flush runs, but in a Thaw with no slot in use bring-up ends instead. -/
def execPowerFailAccept (s : State) : Host.Outcome State Fault Refusal :=
  lift (fun w =>
    if w.cur = mRESET || !w.dev.mode.pwrFailN || w.dev.jour.frozen then w
    else
      let w := w.modeSt fun m => { m with pwrFailN := false }
      if w.cur = mTHAW && decide (w.get F.CHN_JSTAT_INUSE = 0) then
        ({ w with dev := { w.dev with jour := { w.dev.jour with frozen := true, fell := w.now } } }.set F.BOOT_STAT_FAIL 5)
      else w.flushStart) s

/-! ### Recovery and mode requests (R23 to R25) -/

/-- Recovery is entered from a mode that has it (R24); `req`: by a SYS.MODEREQ request. -/
def W.enterRecovery (w : W) (req : Bool) : W :=
  let m := w.cur
  let w := w.updRecov
  if isService m || m = mSTANDBY || m = mDEGRADED || m = mMAINT then
    (w.transition mRECOVERY).modeSt fun s => { s with recFrom := some m, recReq := req }
  else w

/-- Recovery is left for the mode it came from once nothing remains in progress and, where it was requested, the return was too (R24). -/
def W.endRecovery (w : W) : W :=
  let w := w.updRecov
  let s := w.dev.mode
  if w.cur ≠ mRECOVERY || w.flag F.SYS_MODE_RECOV || (s.recReq && !s.recHeld) then w
  else (w.gated fun w => w.transition (s.recFrom.getD mSTANDBY) 7).linkGo

/-- A request that the table does not allow (R23). -/
def W.modeRefuse (w : W) : W := w.set F.SYS_MODE_REFUSED 1

/-- An on-line exchange has not taken effect yet: a kernel exchange or the exchange of a control loop runs (R24, R160, R390). -/
def W.exchanging (w : W) : Bool := w.flag F.FLO_XCHG_BUSY || (List.range 32).any fun l => w.flag F.CIO_LOOP_BUSY l

/-- Whether the present MGMT cycle has taken a transition of higher precedence than `rank`, which no request made (R23, R25). -/
def W.outranked (w : W) (rank : Nat) : Bool :=
  match w.dev.mode.took with
  | some (c, r) => decide (w.now / 10 ≤ c) && decide (r < rank)
  | none => false

/-- A SYS.MODEREQ request for mode `t` as the table of R24 judges it. -/
def W.modeJudge (w : W) (t : Nat) : W :=
  let m := w.cur
  let s := w.dev.mode
  if m = mRECOVERY then
    if s.recFrom ≠ some t || !s.recReq then w.modeRefuse
    else (w.modeSt fun s => { s with recHeld := true }).endRecovery
  else if m = mMAINT && s.maintFrom = some t then
    if w.exchanging then w.modeRefuse else (w.gated fun w => w.transition t 7).linkGo
  else if t = mSTANDBY && isService m then w.enterStandby
  else if t = mRECOVERY && (isService m || m = mSTANDBY || m = mDEGRADED || m = mMAINT) then w.enterRecovery true
  else if t = mMAINT && (isService m || m = mSTANDBY) then (w.transition mMAINT).modeSt fun s => { s with maintFrom := some m }
  else w.modeRefuse

/-- A SYS.MODEREQ request (R23): refused where a transition of higher precedence was taken in the same MGMT cycle. A transition that a request made
counts for none of the writes after it: each of them is taken in a cycle of its own. -/
def W.modeReq (w : W) (t : Nat) : W :=
  let returns := (w.cur = mRECOVERY && w.dev.mode.recFrom = some t) || (w.cur = mMAINT && w.dev.mode.maintFrom = some t)
  (if w.outranked (if returns then 7 else modeRank t) then w.modeRefuse else w.modeJudge t).modeSt fun s => { s with took := none }

/-! ### Keepers (R356 to R358) -/

/-- The active keeper. -/
def W.actKpr (w : W) : Nat := w.get F.KPR_KSTAT_ACTIVE

/-- Change the keepers' state. -/
def W.modKpr (w : W) (f : KeeperSt → KeeperSt) : W := { w with dev := { w.dev with kpr := f w.dev.kpr } }

/-- A hand-over to the other keeper (R357): its claim takes the higher generation plus 1. `back`: the planned return of R358, without
the former keeper's self-test. -/
def W.keeperChange (w : W) (back : Bool) : W :=
  let a := w.actKpr
  let b := 1 - a
  let g := max (w.claimOf a % 4096) (w.claimOf b % 4096)
  let w := (w.setClaim b (w.kprClaim b (g + 1))).set F.KPR_KSTAT_ACTIVE b
  let w := w.set F.KPR_KSTAT_FSTATE (if back then 0 else 1)
  let w := w.report { cls := 0x01, level := 1, src := source 1 a }
  if (w.unitOf (source 1 a)).out then w.set F.KPR_KSTAT_FSTATE 3 else w

/-- A trigger of R357: the follower takes over, or no keeper remains and the record is fatal. -/
def W.handover (w : W) : W :=
  if w.get F.KPR_KSTAT_FSTATE = 0 then w.keeperChange false
  else (w.modKpr fun k => { k with running := false }).report { cls := 0x01, level := 3, src := source 1 w.actKpr }

/-- KEEPER_FAULT: in the active keeper, or in both in one cycle. -/
def execKeeperFault (both : Bool) (s : State) : Host.Outcome State Fault Refusal :=
  lift (fun w =>
    if !w.dev.kpr.running then w
    else if both then (w.modKpr fun k => { k with running := false }).report { cls := 0x01, level := 3, src := source 1 w.actKpr }
    else w.handover) s

/-- KEEPER_SELFTEST_AFTER_HANDOVER: the former keeper is follower with its hold-off started, or stays out. -/
def execKeeperSelftestAfterHandover (ok : Bool) (s : State) : Host.Outcome State Fault Refusal :=
  lift (fun w =>
    if w.get F.KPR_KSTAT_FSTATE ≠ 1 then w
    else if ok then (w.set F.KPR_KSTAT_FSTATE 2).modKpr fun k => { k with holdAt := w.now }
    else (w.set F.KPR_KSTAT_FSTATE 3).unitOut (source 1 (1 - w.actKpr))) s

/-- KEEPER_RETURN: HOLD s after its self-test the returned keeper's claim takes effect, and it takes over if the claim wins (R358). -/
def execKeeperReturn (s : State) : Host.Outcome State Fault Refusal :=
  lift (fun w =>
    let b := 1 - w.actKpr
    if w.get F.KPR_KSTAT_FSTATE ≠ 2 || decide (w.now < w.dev.kpr.holdAt + w.get F.KPR_KCTL_HOLD * 1000000000) then w
    else
      let w := (w.set F.KPR_KSTAT_FSTATE 0).setClaim b (w.kprClaim b (w.claimOf b))
      if claimWins (w.claimOf b) (w.claimOf (1 - b)) b then w.keeperChange true else w) s

/-- KPR.KCMD.HANDOVER is refused while the follower is not ready (R357). -/
def W.kcmdHandover (w : W) : W :=
  if w.flag F.KPR_KCMD_BUSY then w
  else if w.get F.KPR_KSTAT_FSTATE ≠ 0 || !w.dev.kpr.running then w.set F.KPR_KCMD_ERR 1
  else { w.set F.KPR_KCMD_BUSY 1 with dev := { (w.set F.KPR_KCMD_BUSY 1).dev with busy := Tab.put w.dev.busy (regKey .KPR_KCMD 0) 1 } }

/-! ### Cirque restart (R185 to R187) -/

/-- Steps 3 to 5: MEAS[2] and MEAS[3] start from zero, and the Cirque image of the booted slot, or of the other one, is measured and started;
an image that fails its checks is KPR.MEAS at level 2. -/
def W.restartImage (w : W) : W :=
  let w := (w.setMeas 2 0).setMeas 3 0
  let k := w.get F.BOOT_STAT_SLOT
  let bad (w : W) : W := w.report { cls := 0x04, level := 2, src := source 1 w.actKpr }
  let start (w : W) (k : Nat) : W := (w.extend 2 (slotComp (w.flash k) 2).2.2).startCirque k
  if w.slotOk (w.flash k) then start w k
  else
    let w := bad w
    if w.slotOk (w.flash (1 - k)) then start w (1 - k) else bad w

/-- A Cirque restart starts; one that runs already goes on (R185). -/
def W.cirqueRestart (w : W) : W :=
  if w.flag F.KPR_RSTCTL_RUN then w
  else ((((w.set F.KPR_RSTCTL_RUN 1).modeSt fun m => { m with restartAt := w.now }).stopCirque).enterRecovery false).restartImage

/-- KEEPER_WATCHDOG: KPR.WDOG at level 1, a hand-over and a Cirque restart; the flashes as the keeper then finds them. -/
def execKeeperWatchdog (flash0 flash1 : List Byte) (s : State) : Host.Outcome State Fault Refusal :=
  lift (fun w =>
    if !w.dev.kpr.running then w
    else
      let w := w.modeSt fun m => { m with flash := [flash0, flash1] }
      ((w.report { cls := 0x02, level := 1, src := source 1 w.actKpr }).handover).cirqueRestart) s

/-- KPR.RSTCTL.DONE is written: step 6 (R185, R187). -/
def W.restartDone (w : W) : W :=
  if !w.flag F.KPR_RSTCTL_RUN then w
  else (((w.set F.KPR_RSTCTL_RUN 0).bump F.KPR_RSTCNT_COUNT).endRecovery).svcServe.xchgResume

/-- RESTART_LIMIT: LIMIT ms have passed without DONE (R186). -/
def execRestartLimit (s : State) : Host.Outcome State Fault Refusal :=
  lift (fun w =>
    if w.flag F.KPR_RSTCTL_RUN && decide (w.dev.mode.restartAt + w.get F.KPR_RSTCTL_LIMIT * 1000000 ≤ w.now) && !w.flag F.SYS_MODE_FATAL
    then w.report { cls := 0x03, level := 3, src := source 1 w.actKpr } else w) s

/-- KPR.EXTEND.GO is written: a Cornice core may extend MEAS[3] only (R442). -/
def W.measExtend (w : W) (src : Nat) : W :=
  let i := w.get F.KPR_EXTEND_INDEX
  if i ≠ 3 && src / 128 ≠ 1 then w.set F.KPR_EXTEND_ERR 1
  else
    let d := (List.range 6).foldl (fun a j => a * 2 ^ 64 + (w.reg .KPR_EXTDATA j).toNat) 0
    let w := w.set F.KPR_EXTEND_BUSY 1
    { w with dev := { w.dev with busy := Tab.put w.dev.busy (regKey .KPR_EXTEND 0) (i * 2 ^ 384 + d) } }

/-! ### ALIVE (R354) -/

/-- ALIVE_RISE: at a whole millisecond, at most 40 ns after it. -/
def execAliveRise (s : State) : Host.Outcome State Fault Refusal :=
  lift (fun w =>
    let m := w.cur
    if m = mRESET || m = mTHAW || w.flag F.SYS_MODE_FATAL || w.dev.mode.aliveStop || w.dev.mode.alive || 40 < w.now % 1000000 then w
    else (w.modeSt fun m => { m with alive := true }).send (.pin 1 0 1)) s

/-- ALIVE_FALL: 500 µs after its rise, also after a level 3 record. -/
def execAliveFall (s : State) : Host.Outcome State Fault Refusal :=
  lift (fun w =>
    if w.dev.mode.alive && decide (500000 ≤ w.now % 1000000) && decide (w.now % 1000000 ≤ 500040)
    then (w.modeSt fun m => { m with alive := false }).send (.pin 1 0 0) else w) s

end Sys2Proof.Machine
end

