-- ==== Sys2Proof/Machine/CpuCore.lean ====
section
/-! DEFINITION. What a TSH-3 core does around its instructions: registers and flags, held stores, checkpoints and retries, leaving service,
address translation, and exception and interrupt entry and return (R189 to R191, R199, R221 to R260, R340 to R345). -/

namespace Sys2Proof.Machine

open Sys2Proof

/-! ### Registers and flags (R189, R191) -/

/-- A general register: g0 reads 0 tagged INT (R189). -/
def Core.gr (x : Core) (r : Nat) : TWord := if r % 32 = 0 then ⟨tINT, 0⟩ else Tab.getD x.g (r % 32) {}

/-- Write a general register: a write to g0 is discarded (R189). -/
def Core.setG (x : Core) (r : Nat) (v : TWord) : Core := if r % 32 = 0 then x else { x with g := Tab.putD {} x.g (r % 32) v }

/-- A general register of a core. -/
def W.gr (w : W) (c : CoreId) (r : Nat) : TWord := (w.core c).gr r

/-- Write a general register of a core. -/
def W.setG (w : W) (c : CoreId) (r : Nat) (v : TWord) : W := w.modCore c fun x => x.setG r v

/-- A word tagged INT. -/
def int (v : Nat) : TWord := ⟨tINT, BitVec.ofNat 64 v⟩

/-- Set N, Z, C and V (R191). -/
def pswFlags (psw : Word) (n z c v : Bool) : Word := setBits psw 31 28 (b2n n * 8 + b2n z * 4 + b2n c * 2 + b2n v)

/-- Merge sticky floating-point flags (R190, R191). -/
def fpswMerge (f : Word) (fl : Nat) : Word := f ||| BitVec.ofNat 64 (fl % 32)

/-- Who a core's access is: its world, with AKMASK for tenant code on a Cornice core (R172, R182). -/
def W.coreWho (w : W) (c : CoreId) (world : Nat) : Who :=
  { world := world, src := coreSrc c, dma := false
    akmask := match c with | .crn _ => if world = 0 then none else some (w.core c).akmask | .flo _ => none }

/-! ### Own TCM (R222, R223, R257) -/

/-- The virtual window of a core's own TCM. -/
def tcmWin : Nat := 0xFFFFFFFE0000

/-- The addresses at which a core's own TCM lies: on both cores of a pair. -/
def W.ownTcm (w : W) (c : CoreId) (off : Nat) : List Nat :=
  match c with
  | .crn p => (w.tcmCores p).map fun q => tcmAddr q off
  | .flo _ => []

/-- Note the old value of TCM word `wi` for a retry (R257). -/
def W.undoNote (w : W) (c : CoreId) (wi : Nat) : W :=
  match c with
  | .crn p => w.modCore c fun x => { x with undo := (wi, w.word (tcmAddr p (wi * 8) / 8)) :: x.undo }
  | .flo _ => w

/-- Store bytes in a core's own TCM with the tags of the words they touch, noting the old words (R257). -/
def W.tcmStore (w : W) (c : CoreId) (off : Nat) (bs : List Byte) (tag : Tag) : W :=
  if bs.isEmpty then w
  else
    let wis := upto (off / 8) ((off + bs.length - 1) / 8 + 1 - off / 8)
    let w := wis.foldl (fun (w : W) (wi : Nat) => w.undoNote c wi) w
    let w := match c with | .crn p => (linesOf off bs.length).foldl (fun (w : W) (l : Nat) => w.breakResv (some c) (some p) l) w | .flo _ => w
    (w.ownTcm c off).foldl (fun (w : W) (a : Nat) => (w.putBytes a bs).tagRange a bs.length tag) w

/-! ### Stores to the mesh (R223, R257, R276, R286, R302) -/

/-- The stale copy of a line that a core's stores reach: in its D-L1, or in its L2 (R276). `true`: the D-L1. -/
def W.staleLine (w : W) (c : CoreId) (line : Nat) : Option (Bool × List Byte × List Tag) :=
  let x := w.core c
  let l1 := if x.dl1En then (l1Find x.dl1 (l1Set c false line) line).bind L1Line.stale else none
  match l1 with
  | some s => some (true, s)
  | none =>
    if !w.l2En (coreL2 c) then none
    else match (w.l2Way (coreL2 c) line).bind fun k => (Tab.find? w.dev.coh.l2 (l2Key (coreL2 c) line k)).bind CLine.stale with
      | some s => some (false, s)
      | none => none

/-- Replace a stale copy, written. -/
def W.setStale (w : W) (c : CoreId) (line : Nat) (l1 : Bool) (s : List Byte × List Tag) : W :=
  if l1 then
    w.modCore c fun x => match l1Way x.dl1 (l1Set c false line) line with
      | some k => { x with dl1 := Tab.modify x.dl1 (l1Set c false line * 4 + k) fun e => { e with stale := some s, dirty := true } }
      | none => x
  else match w.l2Way (coreL2 c) line with
    | some k => w.modCoh fun q => { q with l2 := Tab.modify q.l2 (l2Key (coreL2 c) line k) fun e => { e with stale := some s, st := .M } }
    | none => w

/-- Bytes `bs` at offset `off` of a line's content, with their words' tags. -/
def overlay (s : List Byte × List Tag) (off : Nat) (bs : List Byte) (tags : List (Nat × Tag)) : List Byte × List Tag :=
  ((s.1.take off) ++ bs ++ s.1.drop (off + bs.length),
   s.2.mapIdx fun i t => match tags.find? fun p => decide (p.1 % 8 = i) with | some p => p.2 | none => t)

/-- A write of READY into a kernel's KSTATE by the Cirque firmware clears the entry's FAULTS (R143, R153). -/
def W.readyWrite (w : W) (h : HeldStore) : W :=
  let base := w.base F.FLO_KTBASE_BASE
  let d := (h.addr - base) % 128
  if h.world = 0 ∧ base ≤ h.addr ∧ h.addr - base < 4096 * 128 ∧ d ≤ 0x12 ∧ h.data.getD (0x12 - d) 0 = 1 then w.putBytes (h.addr - d + 0x14) (zeros 4) else w

/-- One store reaches the mesh: a TCM alias, a stale copy, or the line through the protocol (R223, R276, R288). -/
def W.meshStore (w : W) (c : CoreId) (h : HeldStore) : W :=
  let put (w : W) (a : Nat) : W := h.tags.foldl (fun (w : W) (p : Nat × Tag) => w.putTag (p.1 - h.addr / 8 + a / 8) p.2) (w.putBytes a h.data)
  match w.pkind h.addr with
  | .tcm p off =>
    let w := (linesOf off h.data.length).foldl (fun (w : W) (l : Nat) => w.breakResv (some c) (some p) l) w
    let w := w.undoDrop p off h.data.length
    (w.tcmCores p).foldl (fun (w : W) (q : Nat) => put w (tcmAddr q off)) w
  | _ =>
    let line := lineOf h.addr
    if h.nc then (((w.wrHome line false).breakResv (some c) none line) |> fun w => put w h.addr).readyWrite h
    else
      match w.staleLine c line with
      | some (l1, s) => w.setStale c line l1 (overlay s (h.addr % 64) h.data h.tags)
      | none => (put (((w.coreTouch c (w.coreWho c h.world) h.pc h.addr true h.train)).breakResv (some c) none line) h.addr).readyWrite h

/-- The lines of the output buffer: stores to one line share an entry (R257, R301). -/
def Core.outLines (x : Core) : List Nat := (x.out.map fun h => lineOf h.addr).eraseDups

/-- The pair that a physical core belongs to as lead, or as trailer beside it. -/
def W.pairOf (w : W) (p : Nat) : Option Nat :=
  if !w.dev.mode.strapPair then none
  else (List.range (w.crnLogs / 2)).find? fun k =>
    let st := w.get F.CRN_PAIRSTAT_STATE k
    decide (st ≠ 3) && (decide (w.get F.CRN_PAIRSTAT_LEAD k = p) || (decide (st ≠ 1) && decide (w.get F.CRN_PAIRSTAT_TRAIL k = p)))

/-- Release the output buffer, oldest first, and empty the undo log (R257). -/
def W.release (w : W) (c : CoreId) : W :=
  let l := (w.core c).out
  (l.foldl (fun (w : W) (h : HeldStore) => w.meshStore c h) (w.modCore c fun x => { x with out := [] })).modCore c fun x => { x with undo := [] }

/-- The state that a checkpoint copies (R256). -/
def Core.snap (x : Core) : Ckpt := ⟨x.pc, x.g, x.psw, x.fpsw, x.cworld, x.cstk⟩

/-- A checkpoint: held outputs go, and the state is copied (R256, R257). In a pair it is confirmed at once (R340). A Floe core takes none. -/
def W.checkpoint (w : W) (c : CoreId) : W :=
  match c with
  | .flo _ => w
  | .crn p =>
    let w := (w.release c).modCore c fun x => { x with since := 0, triggers := 0, ckpt := x.snap }
    match w.pairOf p with
    | some k => if w.dev.mode.pairRetry.contains k then w.modeSt fun m => { m with pairRetry := m.pairRetry.filter (· ≠ k) } else w
    | none => w

/-- Hold a store in the output buffer, or send it at once from a Floe core (R257). -/
def W.holdStore (w : W) (c : CoreId) (h : HeldStore) : W :=
  match c with
  | .flo _ => w.meshStore c h
  | .crn _ => w.modCore c fun x => { x with out := x.out ++ [h] }

/-- The changes of memory that a held store stands for, for the core's own loads. -/
def HeldStore.writes (h : HeldStore) : List MemWrite :=
  (h.tags.map fun p => .tag p.1 p.2) ++ h.data.mapIdx fun i b => .byte (h.addr + i) b

/-- A line's stale content as changes of memory. -/
def staleWrites (line : Nat) (s : List Byte × List Tag) : List MemWrite :=
  (s.2.mapIdx fun i t => .tag (line * 8 + i) t) ++ s.1.mapIdx fun i b => .byte (line * 64 + i) b

/-- What a core's load sees of a line: its own held stores first, then a stale copy for NORMAL memory (R257, R276, R304). -/
def W.view (w : W) (c : CoreId) (line : Nat) (nc : Bool) : W :=
  let held := ((w.core c).out.filter fun h => lineOf h.addr = line).reverse.flatMap HeldStore.writes
  let st := if nc then [] else match w.staleLine c line with | some (_, s) => staleWrites line s | none => []
  { w with ws := held ++ st ++ w.ws }

/-! ### Leaving service (R244, R250, R260, R342 to R345) -/

/-- A Cornice core stops and is not used again: its state is lost. -/
def W.coreGone (w : W) (p : Nat) : W := (w.setCore (.crn p) {}).unitOut (coreSrc (.crn p))

/-- The lowest spare Cornice core that passed self-test (R344). -/
def W.crnSpare (w : W) : Option Nat := w.crnSpares.find? fun p => (w.unitOf (coreSrc (.crn p))).spare

/-- A spare enters service. -/
def W.useSpare (w : W) (p : Nat) : W := w.setUnit (coreSrc (.crn p)) { svc := true }

/-- CORE.SPARE: a spare joined (0) or none is left (1) (R343, R345). -/
def W.spareNote (w : W) (p sub : Nat) : W := w.report { cls := 0x15, level := 0, src := coreSrc (.crn p), sub := sub }

/-- What the loss of a core's work starts: a Cirque restart for bulk services, and the kernel interrupt with the world (R185, R342, R344). -/
def W.workLost (w : W) (x : Core) (always : Bool) : W :=
  let w := if always || x.cworld ≠ 0 then w.irq (.kernel 0 x.cworld) else w
  if x.active && x.cworld = 0 then w.cirqueRestart else w

/-- Logical index `l` goes to a spare, or is retired (R344, R345). -/
def W.replaceAt (w : W) (l p : Nat) : W :=
  match w.crnSpare with
  | some q => (w.useSpare q).set F.CRN_MAP_PHYS q l
  | none => (w.set F.CRN_MAP_VALID 0 l).spareNote p 1

/-- Both cores of pair `k` leave service; two spares form a new pair, with no state carried on (R342). -/
def W.pairStop (w : W) (k : Nat) : W :=
  let a := w.get F.CRN_PAIRSTAT_LEAD k
  let b := w.get F.CRN_PAIRSTAT_TRAIL k
  let x := w.core (.crn a)
  let solo := decide (w.get F.CRN_PAIRSTAT_STATE k = 1)
  let w := w.coreGone a
  let w := if solo then w else w.coreGone b
  let sp := w.crnSpares.filter fun p => (w.unitOf (coreSrc (.crn p))).spare
  let w := w.modeSt fun m => { m with pairRetry := m.pairRetry.filter (· ≠ k), soloAt := Tab.del m.soloAt k }
  let w := match sp with
    | p :: q :: _ => (((((w.useSpare p).useSpare q).set F.CRN_MAP_PHYS p (2 * k)).set F.CRN_MAP_PHYS q (2 * k + 1)).set F.CRN_MAP_VALID 1 (2 * k + 1)).setPair k 0 p q
    | _ => (((w.set F.CRN_MAP_VALID 0 (2 * k)).set F.CRN_MAP_VALID 0 (2 * k + 1)).set F.CRN_PAIRSTAT_STATE 3 k).spareNote a 1
  w.workLost x false

/-- Core `p` of pair `k` goes on alone (R342): as the lead it keeps its state; a trailer takes over the lead's, whose equal it is. -/
def W.pairSolo (w : W) (k p : Nat) : W :=
  let a := w.get F.CRN_PAIRSTAT_LEAD k
  let b := w.get F.CRN_PAIRSTAT_TRAIL k
  let w := if p = a then w.coreGone b
    else
      let x := w.core (.crn a)
      (w.setCore (.crn p) { x with il1 := [], dl1 := [], tlb := [], hcache := [], pf := [] }).coreGone a
  let w := (((w.set F.CRN_MAP_PHYS p (2 * k)).set F.CRN_MAP_VALID 0 (2 * k + 1)).set F.CRN_PAIRSTAT_STATE 1 k).set F.CRN_PAIRSTAT_LEAD p k
  w.modeSt fun m => { m with soloAt := Tab.put m.soloAt k w.now, pairRetry := m.pairRetry.filter (· ≠ k) }

/-- A retry: held outputs go, the undo log is applied newest first, and the checkpoint is restored (R259). -/
def W.restore (w : W) (c : CoreId) : W :=
  let x := w.core c
  let w := x.undo.foldl (fun (w : W) (u : Nat × TWord) => (w.ownTcm c (u.1 * 8)).foldl (fun (w : W) (a : Nat) => w.putWord (a / 8) u.2) w) w
  w.modCore c fun x => { x with
    out := [], undo := [], since := 0, waiting := false, doze := false, pc := x.ckpt.pc, g := x.ckpt.g, psw := x.ckpt.psw, fpsw := x.ckpt.fpsw
    cworld := x.ckpt.cworld, cstk := x.ckpt.cstk }

/-- A Cornice core leaves service after a level 2 record (R344): alone, or out of a pair, whose other core goes on; `both`: the fault is one
that both cores of the pair have. -/
def W.crnOut (w : W) (p : Nat) (both : Bool) : W :=
  match w.pairOf p with
  | some k =>
    if both || decide (w.get F.CRN_PAIRSTAT_STATE k ≠ 0) then w.pairStop k
    else
      let a := w.get F.CRN_PAIRSTAT_LEAD k
      let b := w.get F.CRN_PAIRSTAT_TRAIL k
      let w := w.restore (.crn a)
      w.pairSolo k (if p = a then b else a)
  | none =>
    let x := w.core (.crn p)
    let l := if w.dev.mode.strapPair then none
      else (List.range w.crnLogs).find? fun l => w.flag F.CRN_MAP_VALID l && decide (w.get F.CRN_MAP_PHYS l = p)
    let w := w.coreGone p
    match l with
    | some l => (w.replaceAt l p).workLost x true
    | none => w

/-- An instruction retry of a Cornice core, or, at the third trigger since the checkpoint, its end (R258 to R260). -/
def W.retry (w : W) (p : Nat) : W :=
  let c := CoreId.crn p
  let x := w.core c
  if 2 ≤ x.triggers then (w.report { cls := 0x10, level := 2, src := coreSrc c, world := x.cworld }).crnOut p false
  else
    let w := (w.bump F.CRN_RETRYCNT_COUNT 1 p).event .crn p 0x031 1 x.cworld
    let w := w.report { cls := 0x10, level := 1, src := coreSrc c, world := x.cworld }
    ((w.restore c).detLoss c 1).modCore c fun y => { y with triggers := x.triggers + 1 }

/-! ### Addresses (R179 to R184, R204, R222, R283, R302) -/

/-- What a refused access leaves for Moraine. -/
inductive Note where
  | none
  /-- An access refused at its target. -/
  | phys (who : Who) (pa : Nat)
  /-- A walk that failed. -/
  | walk (world : Nat) (f : WalkFail)
  deriving DecidableEq, Repr

/-- An exception that an instruction raises (R218). -/
structure Trap where
  /-- Code. -/
  code : Nat
  /-- FADDR (R239). -/
  faddr : Nat := 0
  /-- HALF2 (R231). -/
  half2 : Bool := false
  /-- SVC code. -/
  svc : Nat := 0
  /-- What Moraine is told. -/
  note : Note := .none
  deriving DecidableEq, Repr

/-- Where a piece of an access goes. -/
inductive Spot where
  /-- A physical address; `mt` is its memory type: 0 NORMAL, 1 NORMAL-NC, 2 DEVICE. -/
  | mem (pa mt : Nat)
  /-- The core's own TCM. -/
  | tcm (off : Nat)
  /-- A Névé buffer byte through a window: its chain and offset (R147). -/
  | win (chain : List Nat) (off : Nat)
  deriving DecidableEq, Repr

/-- Carry out a note. -/
def W.note (w : W) (src : Nat) : Note → W
  | .none => w
  | .phys who pa => w.physRefuse who pa
  | .walk world f => w.walkRefuse src world f

/-- A core's translation of a page: cached or walked (R181, R225). -/
def W.tlbGet (w : W) (c : CoreId) (world va : Nat) : W × Except WalkFail TlbEntry :=
  match (w.core c).tlb.find? fun e => decide (e.world = world) && decide (e.vpn = va / 4096) with
  | some e => (w, .ok e)
  | none =>
    let w := (w.coreEvent c 0x023 1 world).detLoss c 0
    match w.walk world va with
    | .error f => (w, .error f)
    | .ok e => (w.modCore c fun x => { x with tlb := (e :: x.tlb).take 2048 }, .ok e)

/-- The strictest memory type of an address and a leaf (R302). -/
def W.accType (w : W) (leaf pa : Nat) : Nat := max leaf (w.mtype pa)

/-- Whether a world may use a part of a core's own TCM (R222). -/
def Core.tcmPartOk (x : Core) (world off n : Nat) : Bool :=
  world = 0 || (decide (off + n ≤ 0x20000 - bits x.tcmctl 4 0 * 4096) && decide (bits x.tcmctl 31 16 = world))

/-- The checks of a part of an access at a physical address, all on one page (R173, R205, R232, R293). `mis` is by how much the whole access is off its
natural alignment, which DEVICE memory refuses; `nodev`: DEVICE is refused. -/
def W.physSpot (w : W) (who : Who) (acc : Acc3) (pa leaf mis : Nat) (nodev : Bool) (va : Nat) : Except Trap Spot :=
  let mt := w.accType leaf pa
  if mt = 2 && !nodev && decide (mis ≠ 0) then .error { code := 5, faddr := va }
  else if !w.physOk who acc pa || (mt = 2 && nodev) then .error { code := 9, faddr := va, note := .phys who pa }
  else .ok (.mem pa mt)

/-- Resolve `n` bytes at a virtual address that lie on one page, for an access that is `mis` bytes off its natural alignment. -/
def W.vaSpot (w : W) (c : CoreId) (world : Nat) (acc : Acc3) (va n mis : Nat) (nodev : Bool) : W × Except Trap Spot :=
  if tcmWin ≤ va && va < 2 ^ 48 then
    if (w.core c).tcmPartOk world (va - tcmWin) n then (w, .ok (.tcm (va - tcmWin))) else (w, .error { code := 9, faddr := va })
  else
    let w := w.detLoss c 0
    match w.tlbGet c world va with
    | (w, .error f) => (w, .error { code := 8, faddr := va, note := .walk world f })
    | (w, .ok e) =>
      if !e.allows acc then (w, .error { code := 8, faddr := va, note := .walk world e.noRight })
      else (w, w.physSpot (w.coreWho c world) acc (e.ppn * 4096 + va % 4096) e.mtype mis nodev va)

/-! ### Fetch (R192, R199, R208, R225) -/

/-- The tag of a code word as a core fetches it: a stale I-L1 line serves its old tag (R276). -/
def W.fetchTag (w : W) (c : CoreId) (pa : Nat) : Tag :=
  let x := w.core c
  let line := lineOf pa
  match (if x.il1En then (l1Find x.il1 (l1Set c true line) line).bind L1Line.stale else none) with
  | some s => s.2.getD (pa / 8 % 8) 0
  | none => (w.rdWord (pa / 8)).tag

/-- A fetch brings its line into the I-L1 and the L2 (R225, R261, R267). -/
def W.fetchTouch (w : W) (c : CoreId) (world pa : Nat) : W :=
  let x := w.core c
  let line := lineOf pa
  let set := l1Set c true line
  let en := match c with | .crn _ => x.il1En | .flo _ => true
  let hit := match l1Find x.il1 set line with | some e => e.stale.isSome || decide (e.world = world) | none => false
  if en && hit then w.setCore c { x with il1 := l1Hit x.il1 set line world false false }
  else if !w.l2En (coreL2 c) then w.rdNC line
  else
    let w := (if en then w.coreEvent c 0x021 1 world else w).l2Own (coreL2 c) world line
    let w := if (w.l2St (coreL2 c) line).isNone then (w.coreEvent c 0x022 1 world).rdS (coreL2 c) world line else w.l2Young (coreL2 c) line
    if !en then w
    else w.modCore c fun x =>
      let t := l1Drop x.il1 set line
      let k := l1Pick t set
      { x with il1 := l1Mark (Tab.put t (set * 4 + k) { line := line, world := world, wgrant := false, used := true }) set k }

/-- The fetch checks at a core's PC (R173, R179, R199, R208, R222): the state after it, or why it fails. -/
def W.fetch (w : W) (c : CoreId) : W × Option Trap :=
  let x := w.core c
  let pc := x.pc.toNat
  match c with
  | .flo n =>
    let inKernel := match w.segOn n with
      | some (_, g) =>
        let b := w.le (w.kte (wordKid g.word)) 8
        decide (b ≤ pc) && decide (pc < b + w.le (w.kte (wordKid g.word) + 8) 4)
      | none => false
    if !inKernel || (w.rdWord (pc / 8)).tag ≠ tCODE then (w, some { code := 1 }) else (w.fetchTouch c x.cworld pc, none)
  | .crn p =>
    if 2 ^ 48 ≤ pc then (w, some { code := 8, faddr := pc })
    else match w.vaSpot c x.cworld .ex pc 4 0 true with
      | (w, .error t) => (w, some t)
      | (w, .ok s) =>
        let tag := match s with
          | .tcm off => (w.word (tcmAddr p off / 8)).tag
          | .mem pa _ => w.fetchTag c pa
          | .win _ _ => tRAW
        if tag ≠ tCODE then (w, some { code := 1 })
        else match s with
          | .mem pa 0 => (w.fetchTouch c x.cworld pa, none)
          | _ => (w, none)

/-- The instruction word at an address of a core's code; a stale I-L1 line serves its old content (R276). -/
def W.fetchWordAt (w : W) (c : CoreId) (pc : Nat) : Nat :=
  let x := w.core c
  match c with
  | .flo _ => w.le pc 4
  | .crn p =>
    if tcmWin ≤ pc && pc < 2 ^ 48 then w.le (tcmAddr p (pc - tcmWin)) 4
    else match w.xlate x.cworld pc .ex with
      | .ok (pa, _) =>
        (match (if x.il1En then (l1Find x.il1 (l1Set c true (lineOf pa)) (lineOf pa)).bind L1Line.stale else none) with
         | some s => leAt s.1 (pa % 64) 4
         | none => w.le pa 4)
      | .error _ => 0

/-- The instruction word at a core's PC, for INFO (R239). -/
def W.fetchWord (w : W) (c : CoreId) : Nat := w.fetchWordAt c (w.core c).pc.toNat

/-! ### Halting (R429, R432 to R434) -/

/-- The world of the TENANT grant in force, if one is (R429, R434). -/
def W.tenantGrant (w : W) : Option Nat :=
  if w.dev.dbg.code.isSome && decide (w.get F.DBG_GRANT_LEVEL = 1) && decide (w.now / 1000000000 < w.get F.DBG_EXPIRE_S) then some (w.get F.DBG_GRANT_WORLD) else none

/-- Change the debug port's state. -/
def W.modDbg (w : W) (f : DbgSt → DbgSt) : W := { w with dev := { w.dev with dbg := f w.dev.dbg } }

/-- The logical indices that halt together with one: both of a pair (R432). -/
def W.haltSet (w : W) (l : Nat) : List Nat := if w.dev.mode.strapPair then [l / 2 * 2, l / 2 * 2 + 1] else [l]

/-- Whether physical core `p` may halt at the boundary where it stands (R434). -/
def W.haltHere (w : W) (p : Nat) : Bool :=
  let x := w.core (.crn p)
  x.active && !x.frozen && !x.halted &&
    (match w.tenantGrant with
     | some wd => decide (w.get F.DBG_GRANT_HALTLIM ≠ 0) && decide (x.cworld = wd)
     | none => true)

/-- Halt logical core `l`, which is physical core `p`: its outputs are released, its reservation ends, a HALT packet is written
(R249, R432, R433). -/
def W.haltNow (w : W) (l p : Nat) : W :=
  let c := CoreId.crn p
  let w := (w.checkpoint c).modCore c fun x => { x with halted := true, resv := none, lrUsed := false }
  let ls := w.haltSet l
  let w := ls.foldl (fun (w : W) (k : Nat) => w.set F.DBG_HALT_HALTED 1 k) w
  let w := (w.trcEmit p (w.core c).cworld 0xB 0 (leBytes 8 w.now)).detLoss c 4
  let tenant := w.tenantGrant.isSome
  w.modDbg fun d => { d with
    want := d.want.keep fun k _ => !ls.contains k
    stepping := d.stepping.filter fun k => !ls.contains k
    tenant := if tenant then Tab.put d.tenant l w.now else d.tenant }

/-- An instruction boundary of a core: a halt that waits for one is taken (R432 to R434). -/
def W.boundary (w : W) (c : CoreId) : W :=
  match c with
  | .flo _ => w
  | .crn p => match w.logCore p with
    | none => w
    | some l =>
      if ((w.haltSet l).any fun k => Tab.has w.dev.dbg.want k || w.dev.dbg.stepping.contains k) && w.haltHere p then w.haltNow l p else w

/-- REQ: halt at the next boundary, which is this one unless a TENANT grant must wait for its world (R432, R434). -/
def W.haltReq (w : W) (l : Nat) : W :=
  match w.physCore l with
  | none => w
  | some p =>
    if !(w.core (.crn p)).active || (w.core (.crn p)).halted || (w.tenantGrant.isSome && w.get F.DBG_GRANT_HALTLIM = 0) then w
    else (w.modDbg fun d => { d with want := Tab.put d.want l 1 }).boundary (.crn p)

/-- RESUME: the core goes on, and the breakpoint at its address does not hit again before the instruction issues (R425, R432). -/
def W.haltEnd (w : W) (l : Nat) : W :=
  match w.physCore l with
  | none => w
  | some p =>
    let c := CoreId.crn p
    if !(w.core c).halted then w
    else
      let w := w.modCore c fun x => { x with halted := false }
      let ls := w.haltSet l
      let w := ls.foldl (fun (w : W) (k : Nat) => w.set F.DBG_HALT_HALTED 0 k) w
      let w := w.trcEmit p (w.core c).cworld 0xB 1 (leBytes 8 w.now)
      let w := w.setTrcSrc p { w.trcSrc p with sync := true }
      w.modDbg fun d => { d with tenant := d.tenant.keep (fun k _ => !ls.contains k), passBp := l :: d.passBp.filter fun k => !ls.contains k }

/-- STEP: one instruction, then a halt again (R433). -/
def W.haltStep (w : W) (l : Nat) : W :=
  match w.physCore l with
  | none => w
  | some p => if (w.core (.crn p)).halted then (w.haltEnd l).modDbg fun d => { d with stepping := l :: d.stepping } else w

/-- Whether the fetch of physical core `p` at its PC meets an enabled breakpoint at which it may halt (R434). -/
def W.bpHit (w : W) (p : Nat) : Option Nat :=
  match w.logCore p with
  | none => none
  | some l =>
    let pc := (w.core (.crn p)).pc.toNat
    if !w.dev.dbg.passBp.contains l && ((List.range 4).any fun k => w.flag F.DBG_BP_EN (l * 4 + k) && decide (w.get F.DBG_BP_PC (l * 4 + k) = pc / 4)) &&
        w.haltHere p then some l else none

/-! ### Exception and interrupt entry (R235 to R245) -/

/-- The trace source of a Cornice core. -/
def crnTrace : CoreId → Nat
  | .crn p => p
  | .flo _ => 255

/-- Whether a frame word range passes the checks of R243; the reason if not. -/
def W.frameCheck (w : W) (c : CoreId) (sp : TWord) : W × Nat × List (Nat × Spot) :=
  let v := sp.val.toNat
  if sp.tag ≠ tINT then (w, 1, [])
  else if v % 32 ≠ 0 then (w, 2, [])
  else if v < 96 || 2 ^ 48 < v then (w, 3, [])
  else
    (List.range 12).foldl (fun (r : W × Nat × List (Nat × Spot)) (i : Nat) =>
      if r.2.1 ≠ 0 then r
      else
        let va := v - 96 + 8 * i
        let x := r.1.core c
        if tcmWin ≤ va && va < 2 ^ 48 && decide (va - tcmWin < 0x20000 - bits x.tcmctl 4 0 * 4096) then (r.1, 3, [])
        else match r.1.vaSpot c 0 .wr va 8 0 true with
          | (w, .ok s) => if (match s with | .mem pa _ => w.unitFailed pa | _ => false) then (w, 5, []) else (w, 0, r.2.2 ++ [(i, s)])
          | (w, .error t) => (w.note (coreSrc c) t.note, if t.code = 8 then 3 else 4, [])) (w, 0, [])

/-- Store one whole word at a resolved place. -/
def W.putSpot (w : W) (c : CoreId) (world pc : Nat) (s : Spot) (x : TWord) : W :=
  match s with
  | .tcm off => w.tcmStore c off (leBytes 8 x.val.toNat) x.tag
  | .mem pa mt => w.meshStore c { addr := pa, data := leBytes 8 x.val.toNat, tags := [(pa / 8, x.tag)], world := world, pc := pc, nc := mt ≠ 0 }
  | .win _ _ => w

/-- Words 0 to 11 of a frame (R239). -/
def Core.frame (x : Core) (ret : Nat) (code : Nat) (t : Trap) (info : Nat) : List TWord :=
  let cause := code + b2n (decide (x.cworld ≠ 0)) * 2 ^ 8 + b2n t.half2 * 2 ^ 9 + t.svc % 1024 * 2 ^ 10
  [int ret, ⟨tINT, x.psw⟩, int cause, int t.faddr] ++ ((upto 1 7).map fun r => x.gr r) ++ [int (x.cworld * 2 ^ 48 + info)]

/-- The handler's address in the vector table of world 0x0000 (R240); none when the entry fails. -/
def W.vector (w : W) (c : CoreId) (code : Nat) : W × Option Word :=
  let va := ((w.core c).vbase.toNat / 512 * 512 + code * 8) % 2 ^ 64
  if 2 ^ 48 ≤ va then (w, none)
  else match w.vaSpot c 0 .rd va 8 0 true with
    | (w, .error t) => (w.note (coreSrc c) t.note, none)
    | (w, .ok s) =>
      let x := match s, c with
        | .tcm off, .crn p => w.word (tcmAddr p off / 8)
        | .mem pa mt, _ => (w.view c (lineOf pa) (mt ≠ 0)).rdWord (pa / 8)
        | _, _ => {}
      (w, if x.tag = tINT then some x.val else none)

/-- Step 6 of R244: CORE.STACK at level 2, and the core leaves service; both cores of a pair have the same state. -/
def W.stackFail (w : W) (p : Nat) (world : Nat) : W :=
  (w.report { cls := 0x11, level := 2, src := coreSrc (.crn p), world := world }).crnOut p true

/-- The last steps of an entry: the world, PSW.IE, the target and the checkpoint (R238, R241, R256). -/
def W.enterAt (w : W) (c : CoreId) (target : Word) : W :=
  let old := (w.core c).cworld
  let w := w.modCore c fun x => { x with cworld := 0, psw := setBits x.psw 0 0 0, pc := target, resv := none, lrUsed := false }
  let src := crnTrace c
  let w := if old = 0 then w else w.trcEmit src 0 6 0 (leBytes 2 0)
  ((w.trcEmit src 0 4 0 (leBytes 8 target.toNat)).checkpoint c).boundary c

/-- Steps 1 to 6 of R244: the double-fault frame at ESTK, or the core's end. -/
def W.emergency (w : W) (p : Nat) (ret code : Nat) (t : Trap) (info reason : Nat) (x0 : Core) : W :=
  let c := CoreId.crn p
  let x := w.core c
  let off := bits x.estk 16 7 * 128
  let sp := x.gr 30
  if x.estat.getLsbD 0 || decide (off + 128 > 0x20000) || decide (off < 0x20000 - bits x.tcmctl 4 0 * 4096) then w.stackFail p x.cworld
  else
    let f := x0.frame ret code t info ++ [sp, int reason, int 0, int 0]
    let w := (f.zip (List.range 16)).foldl (fun (w : W) (q : TWord × Nat) => w.putSpot c 0 ret (.tcm (off + 8 * q.2)) q.1) w
    let w := w.modCore c fun y => ({ y with estat := y.estat ||| 1, undo := [] }).setG 30 (int (tcmWin + off))
    match w.vector c 0x20 with
    | (w, none) => w.stackFail p x.cworld
    | (w, some h) =>
      let w := w.report { cls := 0x11, level := 1, src := coreSrc c, world := x.cworld }
      (w.trcEmit p 0 5 0 (0x20 :: leBytes 8 w.now)).enterAt c h

/-- Exception and interrupt entry on a Cornice core (R238 to R244): `ret` is the PC to save and `info` the instruction word. -/
def W.enter (w : W) (p : Nat) (ret code : Nat) (t : Trap) (info : Nat) : W :=
  let c := CoreId.crn p
  let w := (w.note (coreSrc c) t.note).checkpoint c
  let x0 := w.core c
  let w := if x0.cworld = 0 then w else w.modCore c fun x => ({ x with cstk := x.gr 30 }).setG 30 x.cstk
  match w.frameCheck c ((w.core c).gr 30) with
  | (w, 0, spots) =>
    (match w.vector c code with
     | (w, none) => w.stackFail p x0.cworld
     | (w, some h) =>
       let f := x0.frame ret code t info
       let w := spots.foldl (fun (w : W) (q : Nat × Spot) => w.putSpot c 0 ret q.2 (f.getD q.1 {})) w
       let w := w.modCore c fun x => ({ x with undo := [] }).setG 30 ⟨tINT, (x.gr 30).val - 96⟩
       (w.trcEmit p x0.cworld 5 0 (BitVec.ofNat 8 code :: leBytes 8 w.now)).enterAt c h)
  | (w, reason, _) => w.emergency p ret code t info reason x0

/-- The subcode with which an exception ends a Floe segment (R218); a core without that exception cannot raise it. -/
def floSub (code : Nat) : Nat :=
  match code with
  | 1 => 5 | 2 => 7 | 3 => 1 | 4 => 6 | 6 => 3 | 7 => 2 | 9 => 0xB
  | _ => 5

end Sys2Proof.Machine
end

