-- ==== Sys2Proof/Machine/Cache.lean ====
section
/-! DEFINITION. Cache operations, disabling and enabling, scratch ways, and the home's requests and an L2's snoops as commands of their own
(R262 to R277, R286 to R299). -/

namespace Sys2Proof.Machine

open Sys2Proof

/-! ### Snowpack slices (R264, R271 to R277) -/

/-- The Moraine source of a logical slice. -/
def W.sliceSrc (w : W) (s : Nat) : Nat := source 9 (w.dev.coh.slicePhys.getD s s)

/-- The lines a slice holds, with their keys. -/
def W.sliceLines (w : W) (s : Nat) : List (Nat × CLine) := w.dev.coh.snp.filter fun p => decide (p.1 / 2 ^ 20 = s)

/-- Write back a slice's dirty lines; they stay, clean. -/
def W.sliceClean (w : W) (s : Nat) : W :=
  w.modCoh fun c => { c with snp := Tab.mapVal c.snp fun k e => if k / 2 ^ 20 = s ∧ e.st = .M then { e with st := .S } else e }

/-- Write back and drop the lines of a slice in ways that satisfy `way`. -/
def W.sliceInv (w : W) (s : Nat) (way : Nat → Bool) : W :=
  let l := (w.sliceLines s).filter fun p => way (p.1 % 16)
  let w := l.foldl (fun (w : W) (p : Nat × CLine) => w.uncover p.2) w
  w.modCoh fun c => { c with snp := c.snp.filter fun p => !(decide (p.1 / 2 ^ 20 = s) && way (p.1 % 16)) }

/-- EN falls: lines are cleaned and stay as they stand, with STALE (R274). -/
def W.sliceDisable (w : W) (s : Nat) : W :=
  let w := w.sliceClean s
  let v := w
  let w := w.modCoh fun c => { c with snp := Tab.mapVal c.snp fun k e => if k / 2 ^ 20 = s then { e with stale := some (v.lineImage e.line) } else e }
  (w.set F.SNP_SLICECTL_STALE 1 s).set F.SNP_SLICECTL_EN 0 s

/-- SNP.STALE: a cache is enabled with STALE set (R275). -/
def W.staleNote (w : W) (src : Nat) : W := w.report { cls := 0x2D, level := 0, src := src }

/-- EN rises: with STALE set the old lines serve, where no L2 holds the line (R275, R276). -/
def W.sliceEnable (w : W) (s : Nat) : W :=
  let w := w.set F.SNP_SLICECTL_EN 1 s
  if !w.flag F.SNP_SLICECTL_STALE s then w
  else
    (w.sliceLines s).foldl (fun (w : W) (p : Nat × CLine) =>
      let e := match p.2.stale, w.dirOf p.2.line with
        | some x, none => (w.putLine p.2.line x, { p.2 with stale := some (w.lineImage p.2.line) })
        | _, _ => (w, { p.2 with stale := none })
      e.1.modCoh fun c => { c with snp := Tab.put c.snp p.1 e.2 }) (w.staleNote (w.sliceSrc s))

/-- Every listed byte and tag of a range becomes 0 with tag RAW. -/
def W.zeroRange (w : W) (a n : Nat) : W :=
  let inR (x : Nat) : Bool := decide (a ≤ x) && decide (x < a + n)
  let bs := (w.mem.cells.map Prod.fst ++ w.ws.filterMap fun m => match m with | .byte x _ => some x | .tag _ _ => none).filter inR
  let ts := (w.mem.tags.map Prod.fst ++ w.ws.filterMap fun m => match m with | .tag x _ => some x | .byte _ _ => none).filter fun x => inR (x * 8)
  ts.foldl (fun (w : W) (x : Nat) => w.putTag x 0) (bs.foldl (fun (w : W) (x : Nat) => w.putByte x 0) w)

/-- The address of byte 0 of a slice's scratch (R271). -/
def scratchBase (s : Nat) : Nat := 0x3D0000000000 + s * 0x200000

/-- A write that changes SCRWAYS to `n` (R272, R273): none where R11 refuses it. The content moves at once; BUSY stands until the command
completes. -/
def W.scrWrite (w : W) (s n : Nat) : Option W :=
  let old := w.get F.SNP_SLICECTL_SCRWAYS s
  let pages := (upto (n * 64) ((old - n) * 64)).map fun k => scratchBase s + k * 4096
  if 8 < n then none
  else if n = old then some w
  else if n < old && !(pages.all fun p => match w.ownEntry p with | some e => decide (e.st = 0) | none => false) then none
  else
    let w := (w.set F.SNP_SLICECTL_SCRRDY 0 s).set F.SNP_SLICECTL_BUSY 1 s
    let w := if old < n then w.sliceInv s fun k => decide (16 - n ≤ k) && decide (k < 16 - old) else w
    let w := w.zeroRange (scratchBase s + min n old * 0x40000) ((max n old - min n old) * 0x40000)
    some (w.modCoh fun c => { c with scrNew := Tab.put c.scrNew s n })

/-- The end of an operation or scratch change of a slice (R272, R275, R277); `op`: 2 was INVALL. -/
def W.sliceDone (w : W) (s op : Nat) : W :=
  let w := match Tab.find? w.dev.coh.scrNew s with
    | some n => ((w.set F.SNP_SLICECTL_SCRWAYS n s).set F.SNP_SLICECTL_SCRRDY 1 s).modCoh fun c => { c with scrNew := Tab.del c.scrNew s }
    | none => w
  let w := if op = 2 then w.set F.SNP_SLICECTL_STALE 0 s else w
  w.set F.SNP_SLICECTL_BUSY 0 s

/-- OP of a slice: 1 CLEANALL, 2 INVALL (R277). -/
def W.sliceOp (w : W) (s op : Nat) : W :=
  let w := w.set F.SNP_SLICECTL_BUSY 1 s
  if op = 1 then w.sliceClean s else w.sliceInv s fun _ => true

/-- A slice that leaves service is disabled and keeps its logical index (R264). -/
def W.sliceOut (w : W) (phys : Nat) : W :=
  match (List.range w.dev.coh.slicePhys.length).find? fun s => decide (w.dev.coh.slicePhys.getD s 999 = phys) with
  | some s => if w.flag F.SNP_SLICECTL_EN s then w.sliceDisable s else w
  | none => w

/-! ### Cluster L2s (R262, R274 to R277) -/

/-- The lines an L2 holds, with their keys. -/
def W.l2Lines (w : W) (l2 : Nat) : List (Nat × CLine) := w.dev.coh.l2.filter fun p => decide (p.1 / 2 ^ 20 = l2)

/-- The control register of an L2 by mesh ID: STALE, BUSY and EN with their index. -/
def l2Reg (l2 : Nat) : Fld × Fld × Fld × Nat :=
  if l2 < 16 then (F.CRN_L2CTL_STALE, F.CRN_L2CTL_BUSY, F.CRN_L2CTL_EN, l2) else (F.FLO_L2CTL_STALE, F.FLO_L2CTL_BUSY, F.FLO_L2CTL_EN, l2 - 16)

/-- The Moraine source of an L2. -/
def l2Src (l2 : Nat) : Nat := if l2 < 16 then source 10 l2 else source 11 (l2 - 16)

/-- Write back an L2's dirty lines; they stay, clean, and the home takes the data DIRTY (R274, R288). -/
def W.l2Clean (w : W) (l2 : Nat) : W :=
  (w.l2Lines l2).foldl (fun (w : W) (p : Nat × CLine) =>
    if p.2.st = .M || p.2.st = .O then
      let w := match p.2.stale with | some x => w.putLine p.2.line x | none => w.snpFill p.2.line false .M
      let w := w.modCoh fun c => { c with l2 := Tab.put c.l2 p.1 { p.2 with st := if p.2.st = .M then .E else .S } }
      match w.dirOf p.2.line with
      | some e => if p.2.st = .O && decide (e.owner = some l2) then w.track p.2.line none false (l2 :: e.sharers) else w
      | none => w
    else w) w

/-- Write back and drop every line of an L2, its L1 copies first. -/
def W.l2Inv (w : W) (l2 : Nat) : W :=
  let w := (w.l2Lines l2).foldl (fun (w : W) (p : Nat × CLine) => ((w.dropL1s l2 p.2.line).loseResv l2 p.2.line).evictNotice l2 p.2) w
  w.modCoh fun c => { c with l2 := c.l2.filter fun p => !decide (p.1 / 2 ^ 20 = l2) }

/-- EN falls: the directory forgets the L2, and its lines stay as they stand, with STALE (R274). The L1s that it includes keep nothing. -/
def W.l2Disable (w : W) (l2 : Nat) : W :=
  let w := w.l2Clean l2
  let w := (w.l2Lines l2).foldl (fun (w : W) (p : Nat × CLine) =>
    let w := (w.dropL1s l2 p.2.line).loseResv l2 p.2.line
    match w.dirOf p.2.line with
    | some e => w.track p.2.line (e.owner.filter (· ≠ l2)) (e.owned && decide (e.owner ≠ some l2)) (e.sharers.filter (· ≠ l2))
    | none => w) w
  let v := w
  let w := w.modCoh fun c => { c with l2 := Tab.mapVal c.l2 fun k e => if k / 2 ^ 20 = l2 then { e with stale := some (v.lineImage e.line) } else e }
  let (st, _, en, i) := l2Reg l2
  (w.set st 1 i).set en 0 i

/-- EN rises; with STALE set the old lines serve (R275). -/
def W.l2Enable (w : W) (l2 : Nat) : W :=
  let (st, _, en, i) := l2Reg l2
  let w := w.set en 1 i
  if w.flag st i then w.staleNote (l2Src l2) else w

/-- OP of an L2: 1 CLEANALL, 2 INVALL (R277). -/
def W.l2Op (w : W) (l2 op : Nat) : W :=
  let (_, busy, _, i) := l2Reg l2
  let w := w.set busy 1 i
  if op = 1 then w.l2Clean l2 else w.l2Inv l2

/-- The end of an L2's operation. -/
def W.l2Done (w : W) (l2 op : Nat) : W :=
  let (st, busy, _, i) := l2Reg l2
  (if op = 2 then w.set st 0 i else w).set busy 0 i

/-! ### Cornice L1s (R233, R234, R246, R274 to R277) -/

/-- A cache's lines as they stand at its disable (R274). -/
def W.staled (w : W) (t : Tab L1Line) : Tab L1Line := Tab.mapVal t fun _ e => { e with dirty := false, stale := some (w.lineImage e.line) }

/-- Write back the stale lines of a core's D-L1 that were written (R276, R277). -/
def W.dl1Clean (w : W) (c : CoreId) : W :=
  let w := (w.core c).dl1.foldl (fun (w : W) (p : Nat × L1Line) => w.staleBack p.2) w
  w.modCore c fun x => { x with dl1 := Tab.mapVal x.dl1 fun _ e => { e with dirty := false } }

/-- INVALL of the I-L1 (1), the D-L1 (2) or both (3) (R277). -/
def W.l1Inv (w : W) (p op : Nat) : W :=
  let c := CoreId.crn p
  let w := if nbit op 0 then w.modCore c fun x => { x with il1 := [] } else w
  if nbit op 1 then (w.dl1Clean c).modCore c fun x => { x with dl1 := [] } else w

/-- CRN.L1CMD with an operation (R277). -/
def W.l1Cmd (w : W) (p op : Nat) : W := (w.set F.CRN_L1CMD_BUSY 1 p).l1Inv p op

/-- The end of an L1 operation: STALE goes (R275). -/
def W.l1Done (w : W) (p op : Nat) : W :=
  let w := if nbit op 0 then w.set F.CRN_L1CMD_ISTALE 0 p else w
  let w := if nbit op 1 then w.set F.CRN_L1CMD_DSTALE 0 p else w
  w.set F.CRN_L1CMD_BUSY 0 p

/-- CORECTL takes a value: L1s that it disables become stale, and an enable of a stale one is recorded (R233, R234, R246, R274, R275). A
CORECTL write reaches both cores of a pair. -/
def W.setCorectl (w : W) (p : Nat) (v : Word) : W :=
  let c := CoreId.crn p
  let old := w.core c
  let w := w.modCore c fun x => { x with corectl := v }
  let new := w.core c
  let w := if old.il1En && !new.il1En then (w.modCore c fun x => { x with il1 := w.staled x.il1 }).set F.CRN_L1CMD_ISTALE 1 p else w
  let w := if old.dl1En && !new.dl1En then
      let w := w.dl1Clean c
      (w.modCore c fun x => { x with dl1 := w.staled x.dl1 }).set F.CRN_L1CMD_DSTALE 1 p
    else w
  let stale := !w.flag F.CRN_L1CMD_BUSY p &&
    ((!old.il1En && new.il1En && w.flag F.CRN_L1CMD_ISTALE p) || (!old.dl1En && new.dl1En && w.flag F.CRN_L1CMD_DSTALE p))
  if stale then w.staleNote (coreSrc c) else w

/-! ### Requests at the home (R288, R291, R295) -/

/-- Whether a mesh ID is that of an L2 of the part (R284). -/
def W.l2Id (w : W) (l2 : Nat) : Bool := decide (l2 < w.xm 9 5) || (decide (16 ≤ l2) && decide (l2 < 16 + w.xm 32 16))

/-- RDS: a read miss of an L2, or a prefetch of it (`streaming`), for a world (R288). -/
def execRds (l2 line world : Nat) (streaming : Bool) (s : State) : Host.Outcome State Fault Refusal :=
  lift (fun w => if w.l2Id l2 && w.l2En l2 && (w.l2St l2 line).isNone then w.rdS l2 world line streaming else w) s

/-- RDX: a write miss of an L2 (R288). -/
def execRdx (l2 line world : Nat) (s : State) : Host.Outcome State Fault Refusal :=
  lift (fun w => if w.l2Id l2 && w.l2En l2 && (w.l2St l2 line).isNone then w.rdX l2 world line else w) s

/-- UPG: a write to a line the L2 holds in S or O; without the line it is handled as RdX (R288, R291). -/
def execUpg (l2 line world : Nat) (s : State) : Host.Outcome State Fault Refusal :=
  lift (fun w => if w.l2Id l2 && w.l2En l2 && !decide (w.l2St l2 line = some .M) && !decide (w.l2St l2 line = some .E) then w.upg l2 world line else w) s

/-- WBD: an L2 writes back a line it evicts in M or O (R288, R291). -/
def execWbd (l2 line : Nat) (s : State) : Host.Outcome State Fault Refusal :=
  lift (fun w => if w.l2St l2 line = some .M || w.l2St l2 line = some .O then w.wbD l2 line else w) s

/-- EVC: an L2 gives notice of a line it evicts in S or E (R288, R291). -/
def execEvc (l2 line : Nat) (s : State) : Host.Outcome State Fault Refusal := lift (fun w => w.evc l2 line) s

/-- RDNC: a read by a non-caching agent (R288). -/
def execRdnc (line : Nat) (s : State) : Host.Outcome State Fault Refusal := lift (fun w => w.rdNC line) s

/-- WRL: a non-caching agent, by its owner attribute, writes the whole line (R173, R288). -/
def execWrl (src world line : Nat) (data : List Byte) (s : State) : Host.Outcome State Fault Refusal :=
  lift (fun w =>
    let who : Who := { world := world, src := src, dma := true }
    let bs := (data ++ zeros 64).take 64
    match w.storeAs who (line * 64) bs with
    | some w => w
    | none => w.physRefuse who (line * 64)) s

/-- WRP: a non-caching agent writes part of a line (R173, R288). -/
def execWrp (src world pa : Nat) (data : List Byte) (s : State) : Host.Outcome State Fault Refusal :=
  lift (fun w =>
    let who : Who := { world := world, src := src, dma := true }
    let bs := data.take (64 - pa % 64)
    match w.storeAs who pa bs with
    | some w => w
    | none => w.physRefuse who pa) s

/-- A signed or unsigned choice of two words. -/
def pickWord (signed takeMax : Bool) (a b : Word) : Word :=
  let lt := if signed then a.slt b else a.ult b
  if lt = takeMax then b else a

/-- What an atomic does to a word (R197, R209, R219): the exception code it raises, or the word to store, none where nothing is stored.
`op` is FN of R219: 2 ATSWAP to 11 ATCAS; `tenant`: the executing world is not 0x0000. -/
def atomicOp (op : Nat) (tenant : Bool) (old b d : TWord) : Except Nat (Option TWord) :=
  let store (x : TWord) : Except Nat (Option TWord) :=
    if tenant && (old.tag = tHND || old.tag = tCODE) then .error 4 else .ok (some x)
  if op = 2 then store b
  else if op = 11 then if old.val = d.val then store b else .ok none
  else if old.tag = tPOISON then .error 2
  else if old.tag ≠ tINT then .error 3
  else
    let v := match op with
      | 3 => old.val + b.val
      | 4 => old.val &&& b.val
      | 5 => old.val ||| b.val
      | 6 => old.val ^^^ b.val
      | 7 => pickWord true false old.val b.val
      | 8 => pickWord true true old.val b.val
      | 9 => pickWord false false old.val b.val
      | _ => pickWord false true old.val b.val
    .ok (some ⟨tINT, v⟩)

/-- ATM: a far atomic of a core on a word, in the slice ALU; the old value goes back to the core (R295). `op` is FN of R219. -/
def execAtm (c : CoreId) (op pa btag b dtag d : Nat) (s : State) : Host.Outcome State Fault Refusal :=
  lift (fun w =>
    let x := w.core c
    let who := w.coreWho c x.cworld
    if pa % 8 ≠ 0 || op < 2 || 11 < op then w
    else if !w.physOk who .wr pa || decide (w.mtype pa = 2) then w.physRefuse who pa
    else
      let word (t v : Nat) : TWord := ⟨BitVec.ofNat 4 t, BitVec.ofNat 64 v⟩
      let w := w.wrHome (lineOf pa)
      match atomicOp op (decide (x.cworld ≠ 0)) (w.rdWord (pa / 8)) (word btag b) (word dtag d) with
      | .ok (some v) => w.putWord (pa / 8) v
      | _ => w) s

/-! ### Snoops (R289, R299) -/

/-- The directory after an L2 no longer holds a line. -/
def W.dirForget (w : W) (l2 line : Nat) : W :=
  match w.dirOf line with
  | some e => w.track line (e.owner.filter (· ≠ l2)) (e.owned && decide (e.owner ≠ some l2)) (e.sharers.filter (· ≠ l2))
  | none => w

/-- SNPS: the L2 answers and keeps a shared or owned copy. -/
def execSnps (l2 line : Nat) (s : State) : Host.Outcome State Fault Refusal :=
  lift (fun w =>
    let st := w.l2St l2 line
    let w := w.snoopS l2 line
    match w.dirOf line with
    | none => w
    | some e =>
      if e.owner ≠ some l2 then w
      else if st = some .M || st = some .O then w.track line (some l2) true e.sharers
      else if st = some .E then w.track line none false (l2 :: e.sharers)
      else w) s

/-- The core whose reservation on the line may defer a snoop: it has not deferred one yet (R299). -/
def W.holdsOff (w : W) (l2 line : Nat) : Option CoreId :=
  if w.get F.COH_CTL_LRHOLD = 0 then none else (w.resvCores l2 line).find? fun c => !(w.core c).lrUsed

/-- An invalidating snoop: deferred once for a reserved line, else answered (R289, R299). -/
def W.snoopAway (w : W) (l2 line : Nat) : W :=
  match w.holdsOff l2 line with
  | some c => (w.modCore c fun x => { x with lrUsed := true }).modCoh fun q => { q with deferred := q.deferred ++ [(line, coreKey c)] }
  | none => (w.snoopInv l2 line).dirForget l2 line

/-- SNPI: the L2 gives up the line and supplies it. -/
def execSnpi (l2 line : Nat) (s : State) : Host.Outcome State Fault Refusal := lift (fun w => w.snoopAway l2 line) s

/-- SNPINV: the L2 gives up the line and discards it. -/
def execSnpinv (l2 line : Nat) (s : State) : Host.Outcome State Fault Refusal := lift (fun w => w.snoopAway l2 line) s

/-- SNPRD: the L2 supplies the line and keeps its state. -/
def execSnprd (_l2 _line : Nat) (s : State) : Host.Outcome State Fault Refusal := lift (fun w => w) s

/-- LRHOLD_EXPIRY: a deferred snoop of `line` is answered, and the reservation is lost if it still stands (R299). -/
def execLrholdExpiry (c : CoreId) (line : Nat) (s : State) : Host.Outcome State Fault Refusal :=
  lift (fun w =>
    if w.dev.coh.deferred.contains (line, coreKey c) then
      let w := w.modCoh fun q => { q with deferred := q.deferred.erase (line, coreKey c) }
      (w.snoopInv (coreL2 c) line).dirForget (coreL2 c) line
    else w) s

/-- VICTIM_WRITE_ACK: memory acknowledges the write of a slice's victim, and its entry is freed (R292). -/
def execVictimWriteAck (slice line : Nat) (s : State) : Host.Outcome State Fault Refusal :=
  lift (fun w => w.modCoh fun c => { c with victims := c.victims.erase (slice, line) }) s

end Sys2Proof.Machine
end

