-- ==== Sys2Proof/Machine/Reliab.lean ====
section
/-! DEFINITION. Fault reports, interrupts and retries of Cornice cores, pairs, spares and low power (R235 to R237, R252, R258 to R260, R341 to
R349, R427). -/

namespace Sys2Proof.Machine

open Sys2Proof

/-! ### Fault reports (R347 to R350) -/

/-- Whether R347 gives a class a level. -/
def levelOk (c l : Nat) : Bool :=
  if c = 0x01 then l = 1 || l = 3
  else if c = 0x07 || c = 0x2F then l = 1 || l = 3
  else if c = 0x06 || c = 0x12 || c = 0x16 || c = 0x30 || c = 0x31 then l = 0 || l = 2
  else if c = 0x11 || c = 0x14 || c = 0x10 then l = 1 || l = 2
  else if c = 0x2C || c = 0x35 then l < 3
  else if c = 0x03 || c = 0x05 || c = 0x08 then l = 3
  else if c = 0x04 || c = 0x18 || c = 0x19 || c = 0x1C || c = 0x1D || c = 0x32 || c = 0x33 then l = 2
  else if c = 0x00 || c = 0x02 || c = 0x13 || c = 0x1B || c = 0x20 || c = 0x22 || c = 0x25 || c = 0x26 || c = 0x2A || c = 0x34 || c = 0x36 ||
    c = 0x38 || c = 0x39 then l = 1
  else if c = 0x09 || c = 0x0A || c = 0x15 || c = 0x1A || c = 0x1E || c = 0x21 || c = 0x23 || c = 0x24 || c = 0x27 || c = 0x28 || c = 0x29 ||
    c = 0x2B || c = 0x2D || c = 0x2E || c = 0x37 || c = 0x3A || c = 0x3B || c = 0x3C || c = 0x3D then l = 0
  else false

/-- The level at which a report will be recorded (R350). -/
def W.levelOf (w : W) (c l : Nat) : Nat := if w.flag F.MOR_CLS_PEND c && escalates c && l ≠ 0 then min 3 (l + 1) else l

/-- What leaves service, or stops, with a record of level 2 (R264, R274, R282, R344, R348). -/
def W.contain (w : W) (r : Report) : W :=
  let kind := r.src / 128
  let i := r.src % 128
  if r.cls = 0x19 then w.modChan r.chid fun c => { c with state := 4 }
  else if r.cls = 0x30 || r.cls = 0x31 then w.quarantine (r.detail / 4096 * 4096)
  else if !unitClass r.cls then w
  else if kind = 2 then w.crnOut i (decide (r.cls = 0x11) || decide (r.cls = 0x14))
  else if kind = 6 then w.engineOut i
  else if kind = 9 then w.sliceOut i
  else if kind = 10 then w.l2Disable i
  else if kind = 11 then w.l2Disable (16 + i)
  else w

/-- Tag every word of a line POISON. -/
def W.poisonLine (w : W) (line : Nat) : W := (upto (line * 8) 8).foldl (fun (w : W) (wi : Nat) => w.putTag wi tPOISON) w

/-- Drop a line from a table of L1 lines. -/
def l1Del (t : Tab L1Line) (set line : Nat) : Tab L1Line := match l1Way t set line with | some k => Tab.del t (set * 4 + k) | none => t

/-- The core of a source KIND 2 to 5. -/
def srcCore (src : Nat) : CoreId := if src / 128 = 2 then .crn (src % 128) else .flo ((src / 128 - 3) * 128 + src % 128)

/-- An uncorrectable error in a line of the cache that `src` names (R262): a clean line is invalidated, and its next access fetches it again; a dirty
one (`dirty`) is written back with every word tagged POISON. A line that the cache holds otherwise, or not, is untouched. -/
def W.eccLine (w : W) (src line : Nat) (dirty : Bool) : W :=
  let kind := src / 128
  let i := src % 128
  if 2 ≤ kind && kind ≤ 5 then
    let c := srcCore src
    match l1Find (w.core c).dl1 (l1Set c false line) line with
    | some e =>
      if e.dirty ≠ dirty then w
      else (if dirty then w.poisonLine line else w).modCore c fun x => { x with dl1 := l1Del x.dl1 (l1Set c false line) line }
    | none => if dirty then w else w.modCore c fun x => { x with il1 := l1Del x.il1 (l1Set c true line) line }
  else if kind = 9 then
    match w.snpWay line with
    | some k =>
      let s := w.homeSlice line
      let key := w.snpKey s line k
      (match Tab.find? w.dev.coh.snp key with
       | some e =>
         if w.dev.coh.slicePhys.getD s s ≠ i || decide (e.st = .M) ≠ dirty then w
         else
           -- a copy older than an owner's is no longer the line's content (R287)
           let owned := match w.dirOf line with | some d => d.owner.isSome | none => false
           let w := (if dirty && !owned then w.poisonLine line else w).evictSnp s e
           w.modCoh fun c => { c with snp := Tab.del c.snp key }
       | none => w)
    | none => w
  else if kind = 10 || kind = 11 then
    let l2 := if kind = 10 then i else 16 + i
    match w.l2Way l2 line with
    | some k => (match Tab.find? w.dev.coh.l2 (l2Key l2 line k) with
      | some e =>
        if (decide (e.st = .M) || decide (e.st = .O)) ≠ dirty then w
        else
          let w := (((w.dropL1s l2 line).loseResv l2 line).evictNotice l2 e).l2Put l2 line none
          if dirty then w.poisonLine line else w
      | none => w)
    | none => w
  else w

/-- A report of SNP.ECC: what the error does to its line, by DETAIL, the record, and, at level 2, what leaves service (R262, R348). -/
def W.snpEcc (w : W) (r : Report) : W :=
  let w := (if r.level = 0 then w else w.eccLine r.src (r.detail / 64) (decide (r.level = 2))).report r
  if r.level = 2 then w.contain r else w

/-- FAULT_REPORT: a unit's report is latched, counted, logged and acted on by its level (R349, R350). A Floe core's fault takes the course of
R154. -/
def execFaultReport (cls level src sub world chid detail : Nat) (s : State) : Host.Outcome State Fault Refusal :=
  lift (fun w =>
    if w.cur = mRESET || !levelOk cls level || 4096 ≤ src || 26 * 128 ≤ src then w
    else if cls = 0x26 then
      let n := (src / 128 - 3) * 128 + src % 128
      if 3 ≤ src / 128 && src / 128 ≤ 5 && n < w.xm 288 144 && (w.unitOf src).svc then w.floCoreFault n else w
    else
      let r : Report := { cls := cls, level := level, src := src, sub := sub, world := world, chid := chid, detail := detail }
      let lv := w.levelOf cls level
      if cls = 0x2C then w.snpEcc r
      else
        let w := w.report r
        if lv = 2 then w.contain r else w) s

/-! ### Interrupts (R236, R237, R345) -/

/-- The physical core that a line reaches: a retired index is redirected to the lowest one in service (R236, R345). -/
def W.routed (w : W) (line : Nat) : Option Nat :=
  match w.physCore (w.get F.CRN_IROUTE_CORE line) with
  | some p => some p
  | none => (List.range w.crnLogs).findSome? w.physCore

/-- Whether an interrupt in the list belongs to a line, by line number. -/
def Irq.isLine (n : Nat) : Irq → Bool
  | .channel .. => n = 3
  | .kernel .. => n = 4
  | .load .. => n = 5
  | .line code _ => code = 0x10 + n

/-- Whether a line is pending at its source (R236); the handling of channel, kernel and load interrupts waits during a restart (R186). -/
def W.lineUp (w : W) (n : Nat) : Bool :=
  let listed := w.dev.irqs.any fun i => i.isLine n
  if n = 0 then w.moraineLine
  else if n = 2 then w.flag F.SYS_MODE_CHG
  else if n = 3 || n = 4 || n = 5 then listed && !w.flag F.KPR_RSTCTL_RUN
  else if n = 7 then w.cioLine
  else if n = 9 then w.pmuLine
  else listed

/-- IPEND of a physical core (R236). -/
def W.ipend (w : W) (p : Nat) : Nat :=
  let x := w.core (.crn p)
  (List.range 11).foldl (fun a n =>
    let up := if n = 6 || n = 10 then x.ipend.getLsbD n else decide (w.routed n = some p) && w.lineUp n
    a + b2n up * 2 ^ n) 0

/-- Take the oldest event of a line away, once its interrupt is entered. -/
def takeIrq (n : Nat) : List Irq → List Irq
  | [] => []
  | i :: t => if i.isLine n then t else i :: takeIrq n t

/-- Whether a core executes: started, in service, and neither frozen, halted, napping nor dozing. -/
def Core.runs (x : Core) : Bool := x.active && !x.frozen && !x.halted && !x.waiting

/-- INTERRUPT_ENTRY: the lowest pending enabled line of physical Cornice core `p` is taken while PSW.IE is 1 (R236, R238). -/
def execInterruptEntry (p : Nat) (s : State) : Host.Outcome State Fault Refusal :=
  lift (fun w =>
    let x := w.core (.crn p)
    let m := w.ipend p &&& bits x.iena 15 0
    if !x.runs || !x.psw.getLsbD 0 then w
    else match (List.range 11).find? fun n => nbit m n with
      | none => w
      | some n =>
        let w := { w with dev := { w.dev with irqs := takeIrq n w.dev.irqs } }
        w.enter p x.pc.toNat (0x10 + n) { code := 0x10 + n } 0) s

/-- NDEAD_FIRE: the timebase has reached NDEAD (R237). -/
def execNdeadFire (p : Nat) (s : State) : Host.Outcome State Fault Refusal :=
  lift (fun w =>
    let x := w.core (.crn p)
    if x.ndead = 0 || w.now < x.ndead.toNat then w
    else w.setCore (.crn p) { x with ndead := 0, ipend := x.ipend ||| 64 }) s

/-! ### Retries (R252, R258 to R260, R262) -/

/-- UCODE_WAIT_TIMEOUT: CORE.UCWAIT and an instruction retry (R252). -/
def execUcodeWaitTimeout (p : Nat) (s : State) : Host.Outcome State Fault Refusal :=
  lift (fun w =>
    let x := w.core (.crn p)
    if !x.runs then w else (w.report { cls := 0x13, level := 1, src := coreSrc (.crn p), world := x.cworld }).retry p) s

/-- Invalidate the entry that an uncorrectable error hit (R258): 1 an I-L1 line, 2 a D-L1 line, by line number; 3 a translation, by page
number; 4 a handle-cache entry. A BTB entry and a parity error (0) leave nothing to invalidate here. -/
def W.dropEntry (w : W) (c : CoreId) (kind e : Nat) : W :=
  let ecc (w : W) : W := w.report { cls := 0x2C, level := 1, src := coreSrc c, detail := e * 64 }
  match kind with
  | 1 => ecc (w.modCore c fun x => { x with il1 := l1Del x.il1 (l1Set c true e) e })
  | 2 => ecc (w.modCore c fun x => { x with dl1 := l1Del x.dl1 (l1Set c false e) e })
  | 3 => w.modCore c fun x => { x with tlb := x.tlb.filter fun t => t.vpn ≠ e }
  | 4 => w.modCore c fun x => { x with hcache := x.hcache.filter fun h => h.1 ≠ e }
  | _ => w

/-- Whether a core's D-L1 holds a line dirty. -/
def W.dl1Dirty (w : W) (c : CoreId) (line : Nat) : Bool :=
  match l1Find (w.core c).dl1 (l1Set c false line) line with | some e => e.dirty | none => false

/-- INSTRUCTION_RETRY: a trigger of R258 on physical core `p`. An error in a dirty D-L1 line is none: the line goes back with POISON (R262). -/
def execInstructionRetry (p kind e : Nat) (s : State) : Host.Outcome State Fault Refusal :=
  lift (fun w =>
    let c := CoreId.crn p
    if !(w.core c).runs then w
    else if kind = 2 && w.dl1Dirty c e then w.snpEcc { cls := 0x2C, level := 2, src := coreSrc c, detail := e * 64 }
    else (w.dropEntry c kind e).retry p) s

/-! ### Pairs (R341 to R343) -/

/-- The retry that ends a mismatch: counted and reported, the confirmed checkpoint restored (R259, R342). -/
def W.pairRestore (w : W) (a : Nat) : W :=
  let x := w.core (.crn a)
  let w := (w.bump F.CRN_RETRYCNT_COUNT 1 a).event .crn a 0x031 1 x.cworld
  let w := w.report { cls := 0x10, level := 1, src := coreSrc (.crn a), world := x.cworld }
  ((w.restore (.crn a)).detLoss (.crn a) 1).modCore (.crn a) fun y => { y with frozen := false, triggers := x.triggers + 1 }

/-- PAIR_MISMATCH: subcode 1 DATA, 2 EXTRA, 3 TIMEOUT. Both cores freeze and are tested in Recovery; a repeat after a retry that both passed, a
third trigger and a record of level 2 end the pair (R260, R341, R342). -/
def execPairMismatch (k sub : Nat) (s : State) : Host.Outcome State Fault Refusal :=
  lift (fun w =>
    let a := w.get F.CRN_PAIRSTAT_LEAD k
    let x := w.core (.crn a)
    if !w.dev.mode.strapPair || w.crnLogs / 2 ≤ k || w.get F.CRN_PAIRSTAT_STATE k ≠ 0 || x.frozen || w.cur = mRESET then w
    else
      let l := if w.dev.mode.pairRetry.contains k || 2 ≤ x.triggers then 2 else 1
      let lv := w.levelOf 0x14 l
      let w := w.report { cls := 0x14, level := l, src := coreSrc (.crn a), sub := sub, world := x.cworld }
      if lv = 3 then w
      else if lv = 2 then w.pairStop k
      else
        let w := (w.modCore (.crn a) fun y => { y with frozen := true }).set F.CRN_PAIRSTAT_STATE 2 k
        (w.modeSt fun m => { m with pairTests := m.pairTests ++ [k] }).enterRecovery false) s

/-- PAIR_SELFTEST_DONE: the outcome of R342; `spareOk`: the spare that would replace either core passed too. -/
def execPairSelftestDone (k : Nat) (leadOk trailOk spareOk : Bool) (s : State) : Host.Outcome State Fault Refusal :=
  lift (fun w =>
    if !w.dev.mode.pairTests.contains k then w
    else
      let a := w.get F.CRN_PAIRSTAT_LEAD k
      let b := w.get F.CRN_PAIRSTAT_TRAIL k
      let w := match w.crnSpare with | some q => if spareOk then w else w.unitOut (coreSrc (.crn q)) | none => w
      let w := match leadOk, trailOk with
        | true, true => ((w.pairRestore a).set F.CRN_PAIRSTAT_STATE 0 k).modeSt fun m => { m with pairRetry := k :: m.pairRetry }
        | true, false => (w.pairRestore a).pairSolo k a
        | false, true => (w.pairRestore a).pairSolo k b
        | false, false =>
          let w := if w.flag F.MOR_CLS_PEND 0x14 then w.set F.MOR_CLS_LEVEL (max 2 (w.get F.MOR_CLS_LEVEL 0x14)) 0x14 else w
          w.pairStop k
      (w.modeSt fun m => { m with pairTests := m.pairTests.filter (· ≠ k) }).endRecovery) s

/-- Copy the 128 KiB TCM of a core, with its tags, to another's (R343). -/
def W.tcmCopy (w : W) (p q : Nat) : W :=
  let a := tcmAddr p 0
  let b := tcmAddr q 0
  let w := w.zeroRange b 0x20000
  let cells := w.mem.cells.filter fun x => decide (a ≤ x.1) && decide (x.1 < a + 0x20000)
  let tags := w.mem.tags.filter fun x => decide (a / 8 ≤ x.1) && decide (x.1 < a / 8 + 0x4000)
  tags.foldl (fun (w : W) (x : Nat × Tag) => w.putTag (x.1 - a / 8 + b / 8) (w.tagOf x.1))
    (cells.foldl (fun (w : W) (x : Nat × Byte) => w.putByte (x.1 - a + b) (w.byte x.1)) w)

/-- SPARE_JOIN: at a checkpoint after 10 µs alone a spare joins the resumed core of pair `k`, or none is left (R343). -/
def execSpareJoin (k : Nat) (s : State) : Host.Outcome State Fault Refusal :=
  lift (fun w =>
    match Tab.find? w.dev.mode.soloAt k with
    | none => w
    | some t =>
      let a := w.get F.CRN_PAIRSTAT_LEAD k
      let c := CoreId.crn a
      if w.get F.CRN_PAIRSTAT_STATE k ≠ 1 || w.now < t + 10000 || (w.core c).since ≠ 0 then w
      else
        let w := w.modeSt fun m => { m with soloAt := Tab.del m.soloAt k }
        match w.crnSpare with
        | none => w.spareNote a 1
        | some q =>
          let w := (w.dl1Clean c).modCore c fun x => { x with il1 := [], dl1 := [], tlb := [], hcache := [], pf := [] }
          let w := (w.useSpare q).tcmCopy a q
          let w := ((w.set F.CRN_MAP_VALID 1 (2 * k + 1)).set F.CRN_MAP_PHYS q (2 * k + 1)).setPair k 0 a q
          (w.detLoss c 2).spareNote q 0) s

/-! ### Low power (R427) -/

/-- DOZE_ENTRY: a core that has napped for PWR.LPCTL.DOZE µs, not in deterministic mode, is power-gated. -/
def execDozeEntry (p : Nat) (s : State) : Host.Outcome State Fault Refusal :=
  lift (fun w =>
    let x := w.core (.crn p)
    let d := w.get F.PWR_LPCTL_DOZE
    if !x.waiting || x.doze || d = 0 || w.now < x.napAt + d * 1000 || x.corectl.getLsbD 5 then w
    else (w.setCore (.crn p) { x with doze := true }).trcEmit p x.cworld 8 2 (leBytes 8 w.now)) s

/-- LP_WAKE: a pending interrupt line ends a nap or a doze; after a doze, SYNC follows the exit marker. -/
def execLpWake (p : Nat) (s : State) : Host.Outcome State Fault Refusal :=
  lift (fun w =>
    let x := w.core (.crn p)
    if !x.waiting || w.ipend p = 0 then w
    else
      let w := (w.setCore (.crn p) { x with waiting := false, doze := false }).trcEmit p x.cworld 8 (1 + 2 * b2n x.doze) (leBytes 8 w.now)
      if x.doze then w.setTrcSrc p { w.trcSrc p with sync := true } else w) s

end Sys2Proof.Machine
end

