-- ==== Sys2Proof/Machine/Eth.lean ====
section
/-! DEFINITION. The fabric ports: frames received, the RoCEv2 transport, flow and congestion control, links and queue pair commands
(R393 to R401). -/

namespace Sys2Proof.Machine

open Sys2Proof

/-- Key of a queue pair: fabric port and number. -/
def qpKey (port qpn : Nat) : Nat := port * 2 ^ 24 + qpn

/-- A frame dropped under R396. -/
def W.qpDrop (w : W) : W := w.bump F.ETH_QPDROP_COUNT

/-- Whether an address entry answers and sends: in use, with its segment's gate open (R395). -/
def W.entryOpen (w : W) (p a : Nat) : Bool :=
  decide (a < 4) && w.flag F.ETH_ADDR_W1_EN (p * 4 + a) && w.gateFabric (w.get F.ETH_ADDR_W1_SEG (p * 4 + a))

/-- A byte of a queue pair's context (R397). -/
def Qp.byte (x : Qp) (o : Nat) : Nat := x.ctx.getD o 0

/-- How far packet sequence number `a` lies ahead of `b`. -/
def psnAhead (a b : Nat) : Nat := (a + 2 ^ 24 - b % 2 ^ 24) % 2 ^ 24

/-- Receive buffers of a queue pair that hold a message not yet taken. -/
def W.recvHeld (w : W) (q : Nat) : Nat :=
  (w.dev.ctxq.filter fun p => p.qp = q).length + (w.dev.svc.filter fun x => decide (x.qp = q) && x.work.isSome).length

/-- An ACK with the receive credits (R60). -/
def W.qpAck (w : W) (q psn : Nat) : W :=
  match w.qp q with
  | some x => w.qpSend q (.ack q 0 psn (x.credmax - w.recvHeld q))
  | none => w

/-! ### Requester (R398) -/

/-- An RDMA READ has delivered all its bytes: the segment's FETCH ends (R41). -/
def W.fetchEnd (w : W) (r : RdmaReq) (bs : List Byte) : W :=
  match w.txn r.txn with
  | none => w
  | some t =>
    let w := (w.putChain (t.segOf r.seg).chain bs).modSeg r.txn r.seg fun s => { s with len := bs.length }
    let w := if t.status.isSome || t.st = .done then w else w.fetchData r.txn r.seg bs
    w.endOp r.txn r.seg true

/-- An RDMA WRITE is acknowledged: the segment's DELIVER ends, its bytes count and its buffers are free (R41, R67). -/
def W.deliverEnd (w : W) (r : RdmaReq) : W :=
  match w.txn r.txn with
  | none => w
  | some t =>
    let w := w.freeBufs (t.segOf r.seg).chain
    let w := (w.modSeg r.txn r.seg fun s => { s with chain := [] }).modTxn r.txn fun t => { t with bytes := t.bytes + r.len }
    (w.modChan t.chid fun c => c.stat 3 r.len).endOp r.txn r.seg true

/-- A request has been acknowledged. -/
def W.reqDone (w : W) (r : RdmaReq) : W := if r.kind = 2 then w.deliverEnd r else w

/-- Acknowledge requests from the oldest on: all but RDMA READs up to sequence number `psn`. -/
def W.ackN : Nat → W → Nat → Nat → W
  | 0, w, _, _ => w
  | n + 1, w, q, psn =>
    match (w.qp q).bind fun x => x.unacked.head? with
    | none => w
    | some r =>
      if r.kind = 1 || 2 ^ 23 ≤ psnAhead psn (r.psn + r.n - 1) then w
      else
        let w := w.modQp q fun x => { x with unacked := x.unacked.drop 1, retries := 0, rnr := 0, rnrWait := false }
        W.ackN n (w.reqDone r) q psn

/-- An acknowledgement up to `psn`. -/
def W.acked (w : W) (q psn : Nat) : W :=
  match w.qp q with | some x => W.ackN (x.unacked.length) w q psn | none => w

/-- Resend from the oldest unacknowledged request on. -/
def W.qpResend (w : W) (q : Nat) : W :=
  match w.qp q with
  | none => w
  | some x => match x.unacked with
    | [] => w
    | r :: _ => ((w.modQp q fun x => { x with unacked := x.unacked.map fun r => { r with got := [] } }).event .port (q / 2 ^ 24) 0x205 1 x.world).qpSend q (.resend q r.psn)

/-- One more resend in a row, unless RETRY of them have gone unacknowledged (R398). -/
def W.qpRetry (w : W) (q : Nat) : W :=
  match w.qp q with
  | none => w
  | some x =>
    if x.byte 13 % 8 ≤ x.retries then w.qpLost q
    else (w.modQp q fun x => { x with retries := x.retries + 1 }).qpResend q

/-- A packet of an RDMA READ response: it implicitly acknowledges the requests before its own. -/
def W.readResp (w : W) (q psn : Nat) (bs : List Byte) : W :=
  let w := w.acked q ((psn + 2 ^ 24 - 1) % 2 ^ 24)
  match (w.qp q).bind fun x => x.unacked.head?.map fun r => (x, r) with
  | none => w
  | some (x, r) =>
    if r.kind = 0 then w.acked q psn
    else if r.kind ≠ 1 || psnAhead psn r.psn ≠ r.got.length / (512 * 2 ^ x.byte 15) || r.len < r.got.length + bs.length then w
    else
      let got := r.got ++ bs
      if got.length < r.len then w.modQp q fun x => { x with unacked := { r with got := got } :: x.unacked.drop 1, retries := 0 }
      else (w.modQp q fun x => { x with unacked := x.unacked.drop 1, retries := 0, rnr := 0 }).fetchEnd r got

/-! ### Responder (R59, R60, R396, R397) -/

/-- A message is whole: the dispatcher or the service endpoint takes it (R34, R168). -/
def W.message (w : W) (q : Nat) (x : Qp) (b : List Byte) : W :=
  if x.chid.isSome then w.crpMsg q b else w.send (.toService q b)

/-- A packet of a SEND in sequence. -/
def W.sendIn (w : W) (q : Nat) (x : Qp) (psn : Nat) (first last : Bool) (bs : List Byte) : W :=
  let b := (if first then [] else x.inbox) ++ bs
  if first && x.credmax ≤ w.recvHeld q then w.qpSend q (.ack q 1 psn (x.byte 43 % 32))
  else if 4160 < b.length || (!first && x.inbox.isEmpty) then (w.qpSend q (.ack q 2 psn 1)).qpLost q
  else
    let w := w.modQp q fun x => { x with epsn := (x.epsn + 1) % 2 ^ 24, inbox := if last then [] else b }
    let w := w.qpAck q psn
    if last then w.message q x b else w

/-- A congestion notification to the sender of a frame marked CE, at most one in each 50 µs (R399). -/
def W.congested (w : W) (q : Nat) : W :=
  match w.qp q with
  | none => w
  | some x =>
    match x.cnpAt with
    | some t => if w.now < t + 50000 then w else (w.modQp q fun x => { x with cnpAt := some w.now }).ethSend (q / 2 ^ 24) (w.get F.ETH_PORTCFG_CNPPRIO (q / 2 ^ 24 / 2)) (.eth (q / 2 ^ 24) 3 q)
    | none => (w.modQp q fun x => { x with cnpAt := some w.now }).ethSend (q / 2 ^ 24) (w.get F.ETH_PORTCFG_CNPPRIO (q / 2 ^ 24 / 2)) (.eth (q / 2 ^ 24) 3 q)

/-- A RoCEv2 packet (R396 to R399). -/
def W.roce (w : W) (p addr qpn psn : Nat) (ce : Bool) (op : RoceOp) : W :=
  let q := qpKey p qpn
  match w.qp q with
  | none => w.qpDrop
  | some x =>
    if !x.up then w.qpDrop
    else if !w.worldActive x.world || addr ≠ x.byte 42 % 4 || !w.entryOpen p addr then w
    else
      let w := if ce then w.congested q else w
      match op with
      | .ack => w.acked q psn
      | .readData bs => w.readResp q psn bs
      | .nak c =>
        if c = 0 then (w.acked q ((psn + 2 ^ 24 - 1) % 2 ^ 24)).qpRetry q else w.qpLost q
      | .send f l bs =>
        if psn % 2 ^ 24 = x.epsn then w.sendIn q x psn f l bs
        else if psnAhead psn x.epsn < 2 ^ 23 then w.qpSend q (.ack q 2 x.epsn 0)
        else w.qpAck q ((x.epsn + 2 ^ 24 - 1) % 2 ^ 24)
      | .inbound => (w.qpSend q (.ack q 2 psn 2)).qpLost q

/-- XOFF above 3 MiB and XON below 2 MiB of a priority's bytes in the receive buffer (R399). -/
def W.pfcLevel (w : W) (p prio held : Nat) : W :=
  let w := w.modEth p fun e => { e with rxHeld := Tab.putD 0 e.rxHeld prio held }
  if !nbit (w.get F.ETH_PORTCFG_PFCEN (p / 2)) prio then w
  else if 3145728 < held ∧ !(w.ethPort p).xoff.contains prio then
    (w.modEth p fun e => { e with xoff := prio :: e.xoff }).ethEmit p (.eth p 5 prio)
  else if held < 2097152 ∧ (w.ethPort p).xoff.contains prio then
    (w.modEth p fun e => { e with xoff := e.xoff.filter fun x => x ≠ prio }).ethEmit p (.eth p 6 prio)
  else w

/-- A send timestamp enters the port's FIFO, or is lost while it is full (R400). -/
def W.txStamp (w : W) (p seq : Nat) : W :=
  if (w.ethPort p).txts.length < 16 then w.modEth p fun e => { e with txts := e.txts ++ [(w.now, seq % 65536)] }
  else w.report { cls := 0x34, level := 1, src := source 14 p }

/-- An event message of the Cirque firmware goes out. -/
def W.ptpSend (w : W) (p seq : Nat) : W := (w.ethSend p 0 (.eth p 8 seq)).txStamp p seq

/-- A received frame, `len` bytes long, of priority `prio`, with `held` bytes of that priority in the receive buffer (R396, R399 to R401). -/
def W.ethFrame (w : W) (p prio len held : Nat) (bad : Bool) (f : EthFrame) : W :=
  if !w.portOn p || !(w.ethPort p).up then w
  else
    let w := (w.event .port p 0x200 len 0xFFFF).event .port p 0x202 1 0xFFFF
    let w := w.pfcLevel p (prio % 8) held
    if bad then w.report { cls := 0x34, level := 1, src := source 14 p, sub := 1 }
    else if 9216 < len then w.qpDrop
    else match f with
      | .roce a qpn psn ce op => w.roce p a qpn psn ce op
      | .connection b => w.send (.toFirmware p 5 w.now b)
      | .arp a b => (w.send (.toFirmware p 1 w.now b)).when (w.entryOpen p a) fun w => w.ethSend p 0 (.eth p 7 a)
      | .neighbour a b => (w.send (.toFirmware p 2 w.now b)).when (w.entryOpen p a) fun w => w.ethSend p 0 (.eth p 7 a)
      | .icmp b => w.send (.toFirmware p 3 w.now b)
      | .ptp b ans =>
        let w := w.send (.toFirmware p 4 w.now b)
        match ans with
        | some n => w.ptpSend p n
        | none => w
      | .other => w.qpDrop

/-- ETH_FRAME_RECEIVE. -/
def execEthFrameReceive (port prio len held : Nat) (bad : Bool) (frame : EthFrame) (s : State) : Host.Outcome State Fault Refusal :=
  liftNow (fun w => w.ethFrame port prio len held bad frame) s

/-! ### Flow control, congestion and links (R395, R398, R399, R401) -/

/-- Send what the link and the pauses let go, in order (R399, R401). -/
def W.ethFlush (w : W) (p : Nat) : W :=
  let e := w.ethPort p
  if !e.up then w
  else
    let go := e.queued.filter fun x => !Tab.has e.paused x.1
    go.foldl (fun (w : W) (x : Nat × Out) => w.ethEmit p x.2) (w.modEth p fun e => { e with queued := e.queued.filter fun x => Tab.has e.paused x.1 })

/-- PFC_RECEIVE. -/
def execPfcReceive (port prio : Nat) (pause : Bool) (s : State) : Host.Outcome State Fault Refusal :=
  lift (fun w =>
    if !w.portOn port || !(w.ethPort port).up || !nbit (w.get F.ETH_PORTCFG_PFCEN (port / 2)) (prio % 8) then w
    else if pause then
      w.modEth port fun e => { e with paused := if Tab.has e.paused (prio % 8) then e.paused else Tab.put e.paused (prio % 8) w.now }
    else (w.modEth port fun e => { e with paused := Tab.del e.paused (prio % 8) }).ethFlush port) s

/-- PFC_WATCHDOG. -/
def execPfcWatchdog (port prio : Nat) (s : State) : Host.Outcome State Fault Refusal :=
  lift (fun w =>
    let wd := w.get F.ETH_PORTCFG_PFCWD (port / 2)
    match Tab.find? (w.ethPort port).paused (prio % 8) with
    | some t =>
      if wd = 0 ∨ w.now < t + wd * 1000000 then w
      else
        (w.modEth port fun e => { e with queued := e.queued.filter fun x => x.1 ≠ prio % 8
                                         paused := Tab.put e.paused (prio % 8) w.now }).report { cls := 0x34, level := 1, src := source 14 port, sub := 2 }
    | none => w) s

/-- The rate of a port in bit/s (R394). -/
def W.portRate (w : W) (p : Nat) : Nat := if w.flag F.ETH_PORTCFG_SPLIT (p / 2) then 400000000000 else 800000000000

/-- CNP_RECEIVE. -/
def execCnpReceive (port qpn : Nat) (s : State) : Host.Outcome State Fault Refusal :=
  lift (fun w => match w.qp (qpKey port qpn) with
    | some x => if x.up then w.modQp (qpKey port qpn) fun x => { x with rate := max 1000000000 (x.rate * 3 / 4), rateAt := w.now } else w
    | none => w) s

/-- CNP_RATE_INCREASE. -/
def execCnpRateIncrease (port qpn : Nat) (s : State) : Host.Outcome State Fault Refusal :=
  lift (fun w => match w.qp (qpKey port qpn) with
    | some x =>
      if x.up ∧ x.rateAt + 50000 ≤ w.now ∧ x.rate < w.portRate port then
        w.modQp (qpKey port qpn) fun x => { x with rate := min (w.portRate port) (x.rate + 5000000000), rateAt := w.now }
      else w
    | none => w) s

/-- QP_RETRY_TIMEOUT. -/
def execQpRetryTimeout (port qpn : Nat) (s : State) : Host.Outcome State Fault Refusal :=
  lift (fun w => match w.qp (qpKey port qpn) with
    | some x => if x.up && !x.unacked.isEmpty && !x.rnrWait then w.qpRetry (qpKey port qpn) else w
    | none => w) s

/-- RNR_NAK_RECEIVE: the client has no receive buffer for the request at `psn`. -/
def execRnrNakReceive (port qpn psn : Nat) (s : State) : Host.Outcome State Fault Refusal :=
  lift (fun w =>
    let q := qpKey port qpn
    match w.qp q with
    | some x =>
      if !x.up then w
      else
        let w := w.acked q ((psn + 2 ^ 24 - 1) % 2 ^ 24)
        match w.qp q with
        | some x =>
          if !x.up || x.unacked.isEmpty then w
          else if x.byte 13 / 16 % 8 ≤ x.rnr then w.qpLost q
          else w.modQp q fun x => { x with rnrWait := true }
        | none => w
    | none => w) s

/-- RNR_WAIT_EXPIRY. -/
def execRnrWaitExpiry (port qpn : Nat) (s : State) : Host.Outcome State Fault Refusal :=
  lift (fun w =>
    let q := qpKey port qpn
    match w.qp q with
    | some x => if x.up && x.rnrWait then (w.modQp q fun x => { x with rnrWait := false, rnr := x.rnr + 1 }).qpResend q else w
    | none => w) s

/-- GARP_REPEAT. -/
def execGarpRepeat (port : Nat) (s : State) : Host.Outcome State Fault Refusal :=
  lift (fun w =>
    let due := (w.ethPort port).garp.filter fun x => x.2 + 1000000000 ≤ w.now
    due.foldl (fun (w : W) (x : Nat × Nat) => if w.gateFabric x.1 then w.announce x.1 port else w)
      (w.modEth port fun e => { e with garp := e.garp.filter fun x => w.now < x.2 + 1000000000 })) s

/-- The link of a fabric port goes down (R401). -/
def W.ethDown (w : W) (p : Nat) : W :=
  if (w.ethPort p).up then (w.modEth p fun e => { e with up := false, paused := [], xoff := [] }).report { cls := 0x34, level := 1, src := source 14 p } else w

/-- ETH_LINK_DOWN. -/
def execEthLinkDown (port : Nat) (s : State) : Host.Outcome State Fault Refusal := lift (fun w => w.ethDown port) s

/-- ETH_LINK_UP. -/
def execEthLinkUp (port : Nat) (s : State) : Host.Outcome State Fault Refusal :=
  lift (fun w => if w.portOn port && !(w.ethPort port).up then (w.modEth port fun e => { e with up := true }).ethFlush port else w) s

/-! ### Queue pair commands (R397) -/

/-- Whether a queue pair's context may be loaded: no reserved encoding, CREDMAX in range. -/
def qpCtxOk (b : List Byte) : Bool :=
  decide (leAt b 0 1 ≤ 4) && decide (leAt b 1 1 ≤ 1) && decide (leAt b 7 1 = 0) && decide (leAt b 4 4 < 2 ^ 20) && decide (leAt b 11 1 = 0) &&
    decide (8 ≤ leAt b 12 1) && decide (leAt b 12 1 ≤ 20) && !nbit (leAt b 13 1) 3 && !nbit (leAt b 13 1) 7 && decide (leAt b 14 1 < 64) &&
    decide (1 ≤ leAt b 15 1) && decide (leAt b 15 1 ≤ 3) && decide (leAt b 35 1 = 0) && decide (leAt b 39 1 = 0) &&
    decide (4 ≤ leAt b 40 2) && decide (leAt b 40 2 ≤ 2052) && decide (leAt b 42 1 ≤ 3) && decide (leAt b 43 1 < 32) &&
    (b.drop 44).all (fun x => x.toNat = 0)

/-- QPCMD: the operation on a queue pair, none when it is refused. -/
def W.qpCmd (w : W) (op p qpn : Nat) : Option W :=
  let q := qpKey p qpn
  let lim := if w.flag F.ETH_PORTCFG_SPLIT (p / 2) then 131072 else 262144
  if qpn < 2 || lim ≤ qpn || !w.portOn p then none
  else
    let a := w.base F.ETH_QPBASE_BASE p + qpn * 64
    let old := (w.qp q).getD {}
    match op with
    | 1 =>
      let b := w.bytes a 64
      let st := leAt b 0 1
      if !qpCtxOk b || !w.rangeOk (cirqueWho (source 14 (p / 2))) .rd a 64 then none
      else if st = 4 then
        -- any state to ERROR: the queue pair is lost (R397)
        some (({ w with dev := { w.dev with qps := Tab.put w.dev.qps q old } }).qpLost q)
      else if st = 0 || st ≠ old.state + 1 then none
      else
        let chid := if leAt b 1 1 = 0 then some (leAt b 4 4) else none
        let x := { old with
          state := st, world := if st = 1 then leAt b 2 2 else old.world, chid := if st = 1 then chid else old.chid, ctx := b.map BitVec.toNat,
          credmax := leAt b 40 2, epsn := leAt b 36 3, npsn := leAt b 32 3, rate := w.portRate p, rateAt := w.now }
        some { w with dev := { w.dev with qps := Tab.put w.dev.qps q x } }
    | 2 =>
      let w := if old.state = 4 || (w.qp q).isNone then w else w.qpLost q
      some { w with dev := { w.dev with qps := Tab.del w.dev.qps q } }
    | 3 =>
      if !w.rangeOk (cirqueWho (source 14 (p / 2))) .wr a 64 then none
      else
        let w := w.unitStore a (leBytes 1 old.state)
        some ((w.unitStore (a + 0x20) (leBytes 4 old.npsn)).unitStore (a + 0x24) (leBytes 4 old.epsn))
    | _ => none

end Sys2Proof.Machine
end

