-- ==== Sys2Proof/Machine/Pcie.lean ====
section
/-! DEFINITION. The PCIe ports: links, data windows and inbound requests, MSI-X and PERST (R402 to R408, R447, R459). -/

namespace Sys2Proof.Machine

open Sys2Proof

/-- The links of a port by BIFUR, with their width (R403). -/
def bifurLinks : Nat → List (Nat × Nat)
  | 0 => [(0, 16)]
  | 1 => [(0, 8), (2, 8)]
  | 2 => [(0, 4), (1, 4), (2, 4), (3, 4)]
  | _ => [(0, 8), (2, 4), (3, 4)]

/-- A report under PCI.PORT. -/
def W.pciReport (w : W) (p level sub detail : Nat) : W :=
  w.report { cls := 0x35, level := level, src := source 15 p, sub := sub, detail := detail }

/-- A link of a port reaches L0, `width` lanes wide, or trains without FLIT mode; `capacity` is that of a CXL.mem device (R402, R403, R408). -/
def W.pciLinkUp (w : W) (p link width : Nat) (flit : Bool) (capacity : Nat) : W :=
  let s := w.pciPort p
  match (bifurLinks s.bifur).find? fun l => l.1 = link with
  | none => w
  | some l =>
    if !w.flag F.PCI_PORTCFG_EN p || !s.perst || s.links.contains link then w
    else if !flit then w.pciReport p 1 0 link
    else
      let w := w.modPci p fun s => { s with links := link :: s.links }
      let w := if width < l.2 then w.pciReport p 0 0 link else w
      if link = 0 && s.cxl then
        { w with dev := { w.dev with cxl := Tab.putD 0 w.dev.cxl p (min (4 * 2 ^ 40) (capacity / 2 ^ 30 * 2 ^ 30)) } }
      else w

/-- PCIE_LINK_UP. -/
def execPcieLinkUp (port link width : Nat) (flit : Bool) (capacity : Nat) (s : State) : Host.Outcome State Fault Refusal :=
  lift (fun w => w.pciLinkUp port link width flit capacity) s

/-- A link of a port goes down: the commands of its controllers end, their queues are discarded (R407). -/
def W.pciLinkDown (w : W) (p link : Nat) (ctrls : List Nat) : W :=
  let s := w.pciPort p
  if !s.links.contains link then w
  else
    let w := w.modPci p fun s => { s with links := s.links.filter fun l => l ≠ link, queues := false }
    let w := w.pciReport p (if link = 0 && s.cxl then 2 else 1) 0 link
    (s.tags.filter fun x => ctrls.contains x.2.ctrl).foldl (fun (w : W) (x : Nat × NvmeCmd) =>
      let w := w.nvmeEnd p x.1
      if x.2.aborted then w else w.nvmeFail p x.2 2) w

/-- PCIE_LINK_DOWN: the link of a port, with the controllers behind it. -/
def execPcieLinkDown (port link : Nat) (ctrls : List Nat) (s : State) : Host.Outcome State Fault Refusal :=
  lift (fun w => w.pciLinkDown port link ctrls) s

/-- PERST_RELEASE. -/
def execPerstRelease (port : Nat) (s : State) : Host.Outcome State Fault Refusal :=
  lift (fun w =>
    let p := w.pciPort port
    if w.flag F.PCI_PORTCFG_EN port && !p.perst && decide (p.enAt + 100000000 ≤ w.now) then
      (w.modPci port fun p => { p with perst := true }).send (.pin 4 port 1)
    else w) s

/-- EN of a port changes: rising, it takes BIFUR and CXL; falling, PERST goes low and every link goes down (R403, R459). -/
def W.pciEnChange (w : W) (p : Nat) (on : Bool) : W :=
  if on then
    w.modPci p fun s => { s with bifur := w.get F.PCI_PORTCFG_BIFUR p, cxl := w.flag F.PCI_PORTCFG_CXL p, enAt := w.now, perst := false }
  else
    let s := w.pciPort p
    let w := if s.perst then (w.modPci p fun s => { s with perst := false }).send (.pin 4 p 0) else w
    s.links.foldl (fun (w : W) (l : Nat) => w.pciLinkDown p l (List.range 32)) w

/-! ### Inbound requests (R405, R406) -/

/-- Whether the host's command writes to the device, which then reads the window. -/
def NvmeCmd.out (c : NvmeCmd) : Bool := decide (c.kind ≠ 2)

/-- The buffers that a read of `n` bytes at `off` of a command's window touches. -/
def NvmeCmd.touches (c : NvmeCmd) (off n : Nat) : List Nat :=
  if 0x100000 ≤ off then [] else (c.pages.drop (off / 4096)).take (ceilDiv (off + n) 4096 - off / 4096)

/-- Bytes of a command's window; a HELD buffer shows zeros (R125). -/
def W.winRead (w : W) (t : Nat) (c : NvmeCmd) (off n : Nat) : List Byte :=
  if off < 0x100000 then (((if c.pages.isEmpty then c.data else (c.pages.flatMap w.shownBuf).take c.len) ++ zeros (off + n)).drop off).take n
  else if off < 0x180000 then ((c.mdata ++ zeros (off + n)).drop (off - 0x100000)).take n
  else
    -- PRP list: pages 1, 2, … of the window
    let l := (List.range (c.llen / 8)).flatMap fun k => leBytes 8 (0x4000000000000000 + t * 0x200000 + (k + 1) * 4096)
    (l.drop (off - 0x180000)).take n

/-- Write into the data pages of a command, page by page, with the tag of a poisoned request (R198). -/
def W.winWrite (w : W) (c : NvmeCmd) (off : Nat) (bs : List Byte) (poisoned : Bool) : W :=
  (upto (off / 4096) (ceilDiv (off + bs.length) 4096 - off / 4096)).foldl (fun (w : W) (k : Nat) =>
    match c.pages[k]? with
    | none => w
    | some b =>
      let lo := off - k * 4096
      let part := (bs.drop (k * 4096 - off)).take (4096 - lo)
      let hit := (upto (lo / 8) (ceilDiv (lo + part.length) 8 - lo / 8)).map fun i => b * 512 + i
      let bad := w.dev.neve.bad.filter fun x => !hit.contains x
      (w.pokeBuf b lo part).modNeve fun v => { v with bad := (if poisoned then hit else []) ++ bad }) w

/-- Write into the metadata of a command. -/
def W.mdWrite (w : W) (p t off : Nat) (bs : List Byte) : W :=
  w.modPci p fun s => { s with tags := Tab.modify s.tags t fun c =>
    { c with mdata := (c.mdata ++ zeros (off - c.mdata.length)).take off ++ bs ++ c.mdata.drop (off + bs.length) } }

/-- Whether an inbound request of `n` bytes at `off` of the window is within the command and its direction (R405, R406). -/
def NvmeCmd.admits (c : NvmeCmd) (off n : Nat) (write : Bool) : Bool :=
  if off < 0x100000 then decide (off + n ≤ c.len) && (write != c.out)
  else if off < 0x180000 then decide (off - 0x100000 + n ≤ c.mlen) && (write != c.out)
  else decide (off - 0x180000 + n ≤ c.llen) && !write

/-- A refused request: Unsupported Request (R406). -/
def W.pciUR (w : W) (p addr : Nat) : W := (w.send (.pcie p false [])).pciReport p 1 1 addr

/-- PCIE_INBOUND_REQUEST: a write of `bytes`, or a read of as many bytes. -/
def W.pcieIn (w : W) (p rid addr n : Nat) (write poisoned : Bool) (bs : List Byte) : W :=
  if (w.pciPort p).links.isEmpty then w
  else
    let w := (w.event .port (32 + p) 0x200 (if write then bs.length else 0) 0xFFFF).event .port (32 + p) 0x202 1 0xFFFF
    let n := if write then bs.length else n
    let base := 0x4000000000000000
    if 0x4800000000000000 ≤ addr && addr + n ≤ 0x4800000000000000 + 32 * 4096 && write then w
    else if addr < base || base + 16384 * 0x200000 ≤ addr then w.pciUR p addr
    else
      let t := (addr - base) / 0x200000
      let off := (addr - base) % 0x200000
      match Tab.find? (w.pciPort p).tags t with
      | none => w.pciUR p addr
      | some c =>
        if c.aborted || rid ≠ w.get F.PCI_CTRLMAP_RID (p * 32 + c.ctrl) || !c.admits off n write then w.pciUR p addr
        else if !write then (w.peekNote (source 15 p) 0xFFFF addr (c.touches off n)).send (.pcie p true (w.winRead t c off n))
        else if off < 0x100000 then (w.winWrite c off bs poisoned).send (.pcie p true [])
        else (w.mdWrite p t (off - 0x100000) bs).send (.pcie p true [])

/-- PCIE_INBOUND_REQUEST. -/
def execPcieInboundRequest (port rid addr len : Nat) (write poisoned : Bool) (bytes : List Byte) (s : State) : Host.Outcome State Fault Refusal :=
  lift (fun w => w.pcieIn port rid addr len write poisoned bytes) s

/-- MSIX_WRITE: the scan of the vector's completion queues finds the completions `entries`, tag and status (R405). -/
def execMsixWrite (port ctrl vector : Nat) (entries : List (Nat × Nat)) (s : State) : Host.Outcome State Fault Refusal :=
  lift (fun w =>
    if (w.pciPort port).links.isEmpty || 32 ≤ ctrl || 1024 ≤ vector then w
    else
      let mine := entries.filter fun e => match Tab.find? (w.pciPort port).tags e.1 with | some c => c.ctrl = ctrl | none => false
      mine.foldl (fun (w : W) (e : Nat × Nat) => w.nvmeDone port e.1 e.2) w) s

end Sys2Proof.Machine
end

