-- ==== Sys2Proof/Machine/RegAccess.lean ====
section
/-! DEFINITION. Reads and writes of device registers: access widths, access types, clearing reads, wide registers, refused writes and
what a write starts (R8 to R12, R158, R167, R183, R473 to R478, R484). -/

namespace Sys2Proof.Machine

open Sys2Proof

/-! ### Reads (R8, R10, R477, R478) -/

/-- The bits of a field. -/
def Fld.mask (f : Fld) : Nat := (2 ^ (f.hi + 1 - f.lo) - 1) <<< f.lo

/-- Word 0 of a wide register, with all its words (R478). -/
def wideWords : RegName → List RegName
  | .IDREV_SERNO_W0 => [.IDREV_SERNO_W0, .IDREV_SERNO_W1]
  | .ETH_ADDR_W0 => [.ETH_ADDR_W0, .ETH_ADDR_W1, .ETH_ADDR_W2, .ETH_ADDR_W3]
  | .ETH_TXTS_W0 => [.ETH_TXTS_W0, .ETH_TXTS_W1]
  | _ => []

/-- A later word of a wide register. -/
def laterWord : RegName → Bool
  | .IDREV_SERNO_W1 => true
  | .ETH_ADDR_W1 => true
  | .ETH_ADDR_W2 => true
  | .ETH_ADDR_W3 => true
  | .ETH_TXTS_W1 => true
  | _ => false

/-- Whether a register fills its 8-byte slot (R477). -/
def fullSlot (r : RegName) : Bool := r.is64 || laterWord r || !(wideWords r).isEmpty

/-- The element that an access reaches: the PMU Floe windows go through FLOBANK (R476). -/
def W.regElem (w : W) (r : RegName) (e : Nat) : Nat :=
  if r = .PMU_FLOSEL || r = .PMU_FLOCNT then w.get F.PMU_FLOBANK_B * 72 + e else e

/-- CMP.ENGSTAT of an engine (R112). -/
def W.engStat (w : W) (e : Nat) : Nat :=
  if !(w.unitOf (source 7 e)).svc then 0
  else match Tab.first? w.dev.cmp.jobs fun _ j => decide (j.engine = some e) with
    | none => 2 ^ 28
    | some (_, j) => 2 * 2 ^ 28 + j.prio * 2 ^ 24 + j.issuer * 2 ^ 16 + j.job % 256

/-- A register element as a read finds it: WO fields read 0, and what the HK7 derives is derived (R8). -/
def W.regView (w : W) (r : RegName) (e : Nat) : Nat :=
  let v := (w.reg r e).toNat
  let plain := r.fields.foldl (fun (a : Nat) (f : Fld) => if f.acc = .wo then a - nbits a f.hi f.lo * 2 ^ f.lo else a) v
  let sense := w.flag F.OWN_PINOWN_SENSE e
  match r with
  | .TIM_NOW => w.now
  | .PLK_SEG => plain - nbits plain 5 2 * 4 + w.gates % 16 * 4
  | .WLD_STAT => w.wldStat (w.get F.WLD_SEL_WORLD)
  | .WLD_CNT => w.wldCnt (w.get F.WLD_SEL_WORLD) e
  | .CMP_ENGSTAT => w.engStat e
  | .PCI_PORTCFG => plain - nbits plain 23 16 * 2 ^ 16 + ((List.range 32).filter fun c => w.flag F.PCI_CTRLMAP_VALID (e * 32 + c)).length * 2 ^ 16
  | .ETH_TXTS_W0 => match (w.ethPort e).txts with | t :: _ => t.1 | [] => 0
  | .ETH_TXTS_W1 => match (w.ethPort e).txts with | t :: _ => 2 ^ 63 + t.2 | [] => 0
  | .CIO_STAT => if sense then plain else plain - nbits plain 27 27 * 2 ^ 27
  | .CIO_CAP => if sense then plain else 0
  | .CIO_CAPINFO => if sense then plain else 0
  | _ => plain

/-- What a read of a field clears or restarts (R10). -/
def W.clearField (w : W) (f : Fld) (e : Nat) : W :=
  if f = F.NEVE_ALLOCSTAT_MINFREE then w.set f (w.get F.NEVE_ALLOCSTAT_FREE) e
  else if f = F.CIO_CAP_TS then (if w.flag F.OWN_PINOWN_SENSE e then w.capPop e 1 else w)
  else if f = F.CIO_STAT_LOST then (w.set f 0 e).chRecord e
  else w.set f 0 e

/-- Latch every word of a wide register (R478). -/
def W.latchWide (w : W) (r : RegName) (e : Nat) : W :=
  let l := (wideWords r).foldl (fun (l : Tab Word) (x : RegName) => Tab.put l (regKey x e) (BitVec.ofNat 64 (w.regView x e))) w.dev.latch
  { w with dev := { w.dev with latch := l } }

/-- Read bits `hi:lo` of a register element; through the debug alias nothing changes (R10, R431). -/
def W.regRead (w : W) (r : RegName) (e hi lo : Nat) (alias_ : Bool) : Nat × W :=
  if laterWord r && !alias_ then (nbits (Tab.getD w.dev.latch (regKey r e) 0).toNat hi lo, w)
  else
    let v := nbits (w.regView r e) hi lo
    if alias_ then (v, w)
    else
      let w := if (wideWords r).isEmpty then w else w.latchWide r e
      let w := if r = .ETH_TXTS_W0 then w.modEth e fun x => { x with txts := x.txts.drop 1 } else w
      (v, r.fields.foldl (fun (w : W) (f : Fld) => if f.acc = .rc && decide (lo ≤ f.lo) && decide (f.hi ≤ hi) then w.clearField f e else w) w)

/-! ### Writes: what is refused (R11) -/

/-- Codes of R415 that a unit counter of a kind and index counts. -/
def pmuEvents (r : RegName) (e : Nat) : List Nat :=
  match r with
  | .PMU_CRNSEL => [0x010, 0x011, 0x012, 0x013, 0x014, 0x020, 0x021, 0x022, 0x023, 0x024, 0x030, 0x031, 0x040, 0x041, 0x042]
  | .PMU_FLOSEL => [0x010, 0x011, 0x012, 0x013, 0x014, 0x020, 0x021, 0x022, 0x023, 0x024, 0x030, 0x042]
  | .PMU_ENGSEL =>
    if e / 4 < 68 then [0x100, 0x101, 0x102, 0x103, 0x104] else if e / 4 < 100 then [0x103, 0x180, 0x181, 0x182, 0x183] else [0x180, 0x181, 0x182, 0x183]
  | .PMU_PRTSEL => [0x200, 0x201, 0x202, 0x203, 0x204, 0x205]
  | _ => []

/-- The occupancy events of R415. -/
def pmuOccupancy (ev : Nat) : Bool := [0x040, 0x041, 0x042, 0x101, 0x102, 0x204, 0x300, 0x301].contains ev

/-- Whether a value is a reserved encoding of a field in the register value that the write gives (R11). -/
def W.reservedEnc (w : W) (f : Fld) (e v merged : Nat) : Bool :=
  f.resv.any (fun r => decide (r.1 ≤ v) && decide (v ≤ r.2)) ||
  (if f = F.NEVE_SPILLCTL_LOWWM then decide (w.xm 12032 5888 < v)
   else if f = F.KDF_PURPCTL_PERIOD then e = 0 && v ≠ 0
   else if f = F.OWN_RGNB_SIZE then v = 0 && w.flag F.OWN_RGNA_EN e
   else if f = F.CRN_IROUTE_CORE then decide (w.crnLogs ≤ v)
   else if f = F.CRN_IPI_CORE then decide (w.crnLogs ≤ v)
   else if f = F.PMU_FLOBANK_B then decide (w.xm 32 16 ≤ v)
   else if f = F.PCI_PORTCFG_CXL then v = 1 && (decide (4 ≤ e) || nbits merged 25 24 = 2)
   else if f = F.CHN_AUDCMD_PORT then nbits merged 62 60 = 1 && !w.portOn v
   else if f.lo = 0 && f.hi = 10 && !(pmuEvents f.reg e).isEmpty then !(pmuEvents f.reg e).contains v
   else if f.lo = 61 && f.hi = 62 && !(pmuEvents f.reg e).isEmpty then v = 3 || (v ≠ 0 && !pmuOccupancy (nbits merged 10 0))
   else false)

/-- Whether two address ranges meet. -/
def rangesMeet (a n b m : Nat) : Bool := decide (0 < n) && decide (0 < m) && decide (a < b + m) && decide (b < a + n)

/-- The tag stores and the device register space (R281, R283): start and length. -/
def W.noRegion (w : W) : List (Nat × Nat) :=
  (0x3F0000000000, 0x010000000000) ::
  (let ts (b m : Nat) : Nat × Nat := (b + m * 15 / 16, m / 16)
   [ts 0 w.hbmSize, ts 0x004000000000 w.dramSize] ++ w.dev.cxl.map fun p => ts (0x200000000000 + p.1 * 0x040000000000) p.2)

/-- Whether region `e` with these contents would overlap another, a tag store or the device register space (R175). -/
def W.regionBad (w : W) (e : Nat) (en : Bool) (start size : Nat) : Bool :=
  en && (((List.range 16).any fun i => i ≠ e && w.flag F.OWN_RGNA_EN i &&
      rangesMeet start size (w.base F.OWN_RGNA_START i) (w.get F.OWN_RGNB_SIZE i * 0x200000)) ||
    w.noRegion.any fun x => rangesMeet start size x.1 x.2)

/-- Whether a Floe L2 way mask may not be taken: entry `e` with a world and ways, or the default mask (R158). -/
def W.l2maskBad (w : W) (c j world ways : Nat) : Bool :=
  world ≠ 0xFFFF && (ways = 0 || ways &&& w.get F.FLO_L2DEF_WAYS c ≠ 0 ||
    (List.range 16).any fun i => i ≠ j && w.get F.FLO_L2MASK_WORLD (c * 16 + i) ≠ 0xFFFF &&
      (w.get F.FLO_L2MASK_WORLD (c * 16 + i) = world || w.get F.FLO_L2MASK_WAYS (c * 16 + i) &&& ways ≠ 0))

/-- Whether the pin's output is enabled (R183): its mode drives it. -/
def W.pinOn (w : W) (n : Nat) : Bool := w.flag F.OWN_PINOWN_DRIVE n && decide (2 ≤ w.get F.CIO_CFG_MODE n)

/-- Whether a whole write is refused, judged on the state before it; `new` is the value its RW fields would give and `v` what was
written (R11). -/
def W.writeBad (w : W) (r : RegName) (e v new : Nat) : Bool :=
  let old := (w.reg r e).toNat
  let moved (f : Fld) : Bool := nbits old f.hi f.lo ≠ nbits new f.hi f.lo
  let to_ (f : Fld) : Nat := nbits new f.hi f.lo
  match r with
  | .NEVE_SPILLBASE => moved F.NEVE_SPILLBASE_BASE && !w.dev.neve.slots.isEmpty
  | .NEVE_SPILLSIZE => moved F.NEVE_SPILLSIZE_SLOTS && !w.dev.neve.slots.isEmpty
  | .FLO_HTBASE => moved F.FLO_HTBASE_BASE && w.flag F.FLO_HTCTL_EN
  | .FLO_HTCTL => moved F.FLO_HTCTL_SIZE && w.flag F.FLO_HTCTL_EN
  | .OWN_RGNA => w.regionBad e (nbit new 63) (to_ F.OWN_RGNA_START * 2 ^ 21) (w.get F.OWN_RGNB_SIZE e * 0x200000)
  | .OWN_RGNB => w.regionBad e (w.flag F.OWN_RGNA_EN e) (w.base F.OWN_RGNA_START e) (to_ F.OWN_RGNB_SIZE * 0x200000)
  | .OWN_PINOWN => (moved F.OWN_PINOWN_WORLD || moved F.OWN_PINOWN_DRIVE || moved F.OWN_PINOWN_SENSE) && w.pinOn e
      || !(to_ F.OWN_PINOWN_WORLD = 0 || to_ F.OWN_PINOWN_WORLD = 0xFFFF ||
           (match Tab.find? w.dev.worlds (to_ F.OWN_PINOWN_WORLD) with | some x => nbit x.flags 1 | none => false))
  | .FLO_L2MASK => w.l2maskBad (e / 16) (e % 16) (to_ F.FLO_L2MASK_WORLD) (to_ F.FLO_L2MASK_WAYS)
  | .FLO_L2DEF => (List.range 16).any fun i => w.get F.FLO_L2MASK_WORLD (e * 16 + i) ≠ 0xFFFF && to_ F.FLO_L2DEF_WAYS &&& w.get F.FLO_L2MASK_WAYS (e * 16 + i) ≠ 0
  | .PLK_CHSPLIT => moved F.PLK_CHSPLIT_SPLIT && w.flag F.PLK_STAT_PAIRED
  | .CRN_PAIRCTL => moved F.CRN_PAIRCTL_SLIP && w.cur ≠ mTHAW
  | .TIM_SET => !(w.cur = mTHAW && decide (w.now ≤ v))
  | .SAS_CTL => moved F.SAS_CTL_PHASE && w.flag F.SAS_CTL_EN e
  | .SAS_SLOT => (moved F.SAS_SLOT_PIN || moved F.SAS_SLOT_UID) && w.get F.SAS_SLOT_STATE e ≠ 0
  | .SAS_TCMB => nbit new 31 && (match w.physCore (to_ F.SAS_TCMB_CORE) with
      | some p => decide (to_ F.SAS_TCMB_OFF * 2048 < 0x20000 - bits (w.core (.crn p)).tcmctl 4 0 * 4096)
      | none => true)
  | .SAS_CMDQ => decide (64 ≤ (w.bus e).cmdq.length)
  | .CIO_CFG => decide (2 ≤ to_ F.CIO_CFG_MODE) && decide (to_ F.CIO_CFG_MODE ≤ 4) && moved F.CIO_CFG_MODE && !w.flag F.OWN_PINOWN_DRIVE e
  | .CIO_BIND => nbit new 31 && (match w.physCore (to_ F.CIO_BIND_CORE) with
      | some p => !(w.core (.crn p)).tcmPartOk (w.get F.OWN_PINOWN_WORLD e) (to_ F.CIO_BIND_OFF * 64) 64
      | none => true)
  | .ETH_PORTCFG => moved F.ETH_PORTCFG_SPLIT && nbit old 31
  | .PCI_PORTCFG => (moved F.PCI_PORTCFG_BIFUR || moved F.PCI_PORTCFG_CXL) && nbit old 31
  | .CHN_IFCTL => to_ F.CHN_IFCTL_SEL = 0 || decide (w.get F.CHN_IFCTL_MAX < to_ F.CHN_IFCTL_SEL)
  | .DBG_HALT => nbit v 30 && nbit v 29
  | .DBG_GRANT => to_ F.DBG_GRANT_LEVEL = 2 && w.flag F.DBG_STAT_LOCK && w.cur ≠ mTHAW
  | .TRC_RINGTAIL => to_ F.TRC_RINGTAIL_OFF % 64 ≠ 0 || decide (2 ^ w.get F.TRC_RINGCTL_SIZE * 4096 ≤ to_ F.TRC_RINGTAIL_OFF)
  | .BOOT_CTL => w.cur = mTHAW && w.flag F.SYS_MODE_FATAL
  | .SNP_SLICECTL => nbits v 11 8 ≠ w.get F.SNP_SLICECTL_SCRWAYS e && (w.flag F.SNP_SLICECTL_BUSY e || (w.scrWrite e (nbits v 11 8)).isNone)
  | _ => false

/-- Whether a write of `v` is ignored because the register's command or operation is in progress (R484); of CHN.AUDCMD a write with SNAP (R56). -/
def W.writeIgnored (w : W) (r : RegName) (e v : Nat) : Bool :=
  match r with
  | .CHN_AUDCMD => nbit v 63 && w.flag F.CHN_AUDSTAT_BUSY
  | .CHN_CTXCMD => w.flag F.CHN_CTXCMD_BUSY
  | .KDF_CMD => w.flag F.KDF_CMD_BUSY
  | .KDF_RKCMD => w.flag F.KDF_RKCMD_BUSY
  | .WLD_CMD => w.flag F.WLD_CMD_BUSY
  | .WLD_LOADCMD => w.flag F.WLD_LOADCMD_BUSY
  | .OWN_CMD => w.flag F.OWN_CMD_BUSY
  | .PMU_CMD => w.flag F.PMU_CMD_BUSY
  | .PLK_CMD => w.flag F.PLK_CMD_BUSY
  | .ETH_QPCMD => w.flag F.ETH_QPCMD_BUSY
  | .FLO_XCHG => w.flag F.FLO_XCHG_BUSY
  | .KPR_EXTEND => w.flag F.KPR_EXTEND_BUSY
  | .KPR_KCMD => w.flag F.KPR_KCMD_BUSY
  | .CRN_UCLOAD => w.flag F.CRN_UCLOAD_BUSY
  | .CHN_UCLOAD => w.flag F.CHN_UCLOAD_BUSY
  | .CRN_L2CTL => w.flag F.CRN_L2CTL_BUSY e
  | .FLO_L2CTL => w.flag F.FLO_L2CTL_BUSY e
  | .CRN_L1CMD => w.flag F.CRN_L1CMD_BUSY e
  | .SNP_SLICECTL => w.flag F.SNP_SLICECTL_BUSY e
  | _ => false

/-! ### Commands (R484) -/

/-- Mark a command register as running an operation. -/
def W.cmdBusy (w : W) (r : RegName) (e op : Nat) : W := { w with dev := { w.dev with busy := Tab.put w.dev.busy (regKey r e) op } }

/-- A command register runs nothing any more. -/
def W.cmdIdle (w : W) (r : RegName) (e : Nat) : W := { w with dev := { w.dev with busy := Tab.del w.dev.busy (regKey r e) } }

/-- BUSY and ERR of a command register whose operations run as R484 describes. -/
def cmdFields : RegName → Option (Fld × Fld)
  | .CHN_CTXCMD => some (F.CHN_CTXCMD_BUSY, F.CHN_CTXCMD_ERR)
  | .KDF_CMD => some (F.KDF_CMD_BUSY, F.KDF_CMD_ERR)
  | .WLD_CMD => some (F.WLD_CMD_BUSY, F.WLD_CMD_ERR)
  | .OWN_CMD => some (F.OWN_CMD_BUSY, F.OWN_CMD_ERR)
  | .PLK_CMD => some (F.PLK_CMD_BUSY, F.PLK_CMD_ERR)
  | .ETH_QPCMD => some (F.ETH_QPCMD_BUSY, F.ETH_QPCMD_ERR)
  | _ => none

/-- The stores into some pages that Cornice cores hold have passed their owner check: they finish under the old entries, before a command on these
pages commits (R177, R257). -/
def W.drainPages (w : W) (a n : Nat) : W :=
  let inside (h : HeldStore) : Bool := decide (a ≤ h.addr) && decide (h.addr < a + n * 4096)
  (List.range (w.xm 36 20)).foldl (fun (w : W) (p : Nat) => if (w.core (.crn p)).out.any inside then w.checkpoint (.crn p) else w) w

/-- The change a command makes, none when the object's state does not permit it (R32, R137, R165, R176, R318, R328, R335, R397). -/
def W.cmdDo (w : W) (r : RegName) (op : Nat) : Option W :=
  match r with
  | .CHN_CTXCMD =>
    let c := w.get F.CHN_CTXCMD_CHID
    (match op with
     | 1 => w.ctxOpen c
     | 2 => w.ctxQuiesce c
     | 3 => w.ctxAbort c
     | 4 => w.ctxClose c
     | 5 => w.ctxWriteback c
     | _ => none)
  | .KDF_CMD =>
    let wd := w.get F.KDF_CMD_WORLD
    (match op with
     | 1 => w.kdfActivate wd (w.get F.KDF_CMD_EPOCH)
     | 2 => w.kdfRoll wd (w.get F.KDF_CMD_PURP)
     | 3 => w.kdfRetire wd (w.get F.KDF_CMD_PURP) (w.get F.KDF_CMD_EPOCH)
     | 4 => some (w.kdfRevoke wd)
     | 5 => some (w.kdfFlush wd)
     | _ => none)
  | .WLD_CMD => w.wldOp op (w.get F.WLD_CMD_SLOT) (w.get F.WLD_CMD_WORLD)
  | .OWN_CMD =>
    let a := w.base F.OWN_CMDADDR_ADDR
    let n := w.get F.OWN_CMD_COUNT
    (w.drainPages a n).ownOp op (w.get F.OWN_CMD_RIGHTS) (w.get F.OWN_CMD_KSEL) (w.get F.OWN_CMD_WORLD) a n
  | .PLK_CMD => (match op with
     | 1 => w.plkForce
     | 2 => w.plkReturn
     | 3 => w.plkRetrain
     | _ => none)
  | .ETH_QPCMD => w.qpCmd op (w.get F.ETH_QPCMD_PORT) (w.get F.ETH_QPCMD_QPN)
  | _ => none

/-- The checks of a command that the HK7's own state decides (R484 step 1). -/
def W.cmdMay (w : W) (r : RegName) (op : Nat) : Bool :=
  match r with
  | .CHN_CTXCMD => (match w.chan (w.get F.CHN_CTXCMD_CHID) with
    | none => true
    | some c => if op = 1 then c.state = 0 else (w.cmdDo r op).isSome)
  | .KDF_CMD =>
    let wd := w.get F.KDF_CMD_WORLD
    wd ≠ 0 && wd ≠ 0xFFFF && (op ≠ 2 || w.get F.KDF_CMD_PURP = 1 || w.get F.KDF_CMD_PURP = 2) && (op ≠ 3 || w.get F.KDF_CMD_PURP = 1)
  | .WLD_CMD =>
    let wd := w.get F.WLD_CMD_WORLD
    wd ≠ 0 && wd ≠ 0xFFFF &&
      (if op = 1 then !Tab.has w.dev.worlds wd && (w.worldAt (w.get F.WLD_CMD_SLOT)).isNone
       else if op = 6 then (match Tab.find? w.dev.worlds wd with | some x => x.state = 1 || x.state = 2 | none => false)
       else (w.cmdDo r op).isSome)
  | .OWN_CMD =>
    w.get F.OWN_CMD_COUNT ≠ 0 && (op ≠ 1 || w.get F.OWN_CMD_WORLD ≠ 0xFFFF) &&
      (cmdPages (w.base F.OWN_CMDADDR_ADDR) (w.get F.OWN_CMD_COUNT)).all fun p => (w.region p).isSome
  | .PLK_CMD => (w.cmdDo r op).isSome
  | .ETH_QPCMD =>
    if op = 1 then
      let p := w.get F.ETH_QPCMD_PORT
      let q := w.get F.ETH_QPCMD_QPN
      w.portOn p && decide (2 ≤ q) && decide (q < if w.flag F.ETH_PORTCFG_SPLIT (p / 2) then 131072 else 262144)
    else (w.cmdDo r op).isSome
  | _ => true

/-- The commands that wait while a Cirque restart runs (R186). -/
def waitsRestart (r : RegName) : Bool := r = .CHN_CTXCMD || r = .OWN_CMD || r = .WLD_CMD || r = .KDF_CMD || r = .FLO_XCHG

/-- Whether a command is a revocation, which takes effect when it is taken (R139, R165). -/
def revokes (r : RegName) (op : Nat) : Bool := (r = .KDF_CMD || r = .WLD_CMD) && decide (op = 4)

/-- How `W.cmdBusy` marks a revocation whose effect has been taken and whose sweep is still to end. -/
def revokeTaken : Nat := 16

/-- Take a command: a revocation takes effect in this cycle, the others where BUSY clears (R139, R165, R177, R484). -/
def W.cmdTake (w : W) (r : RegName) (busy err : Fld) (op : Nat) : W :=
  if revokes r op then
    match w.cmdDo r op with
    | some w' => (w'.set busy 1).cmdBusy r 0 revokeTaken
    | none => ((w.cmdIdle r 0).set err 1).set busy 0
  else (w.set busy 1).cmdBusy r 0 op

/-- A write with OP nonzero: ERR at once, or BUSY; during a Cirque restart a command waits with its effect (R139, R165, R186, R484). -/
def W.cmdStart (w : W) (r : RegName) (busy err : Fld) (op : Nat) : W :=
  if !w.cmdMay r op then w.set err 1
  else if waitsRestart r && w.flag F.KPR_RSTCTL_RUN then (w.set busy 1).cmdBusy r 0 op
  else w.cmdTake r busy err op

/-- The world of a revocation in progress. -/
def W.revoking (w : W) (r : RegName) : Nat := if r = .KDF_CMD then w.get F.KDF_CMD_WORLD else w.get F.WLD_CMD_WORLD

/-- Whether a CHN.CTXCMD operation must read the channel's block, and may not (R29, R32). -/
def W.ctxUnread (w : W) (op c : Nat) : Bool :=
  decide (1 ≤ op) && decide (op ≤ 4) && (decide (op = 1) || (w.chan c).isNone) && (w.ctxRead c).isNone

/-- The end of a command: its change is made if the object still permits it, and BUSY clears; a revocation ends with its sweep (R139, R484), and a
context command whose block could not be read is reported (R29). -/
def W.cmdEnd (w : W) (r : RegName) (e : Nat) : W :=
  match Tab.find? w.dev.busy (regKey r e) with
  | none => w
  | some b =>
    if waitsRestart r && w.flag F.KPR_RSTCTL_RUN then w
    else match cmdFields r with
      | some (busy, err) =>
        if b = revokeTaken then (if w.dev.cip.sweep.contains (w.revoking r) then w else (w.cmdIdle r e).set busy 0)
        else if revokes r b then w.cmdTake r busy err b
        else
          (match (if r = .CHN_CTXCMD && w.ctxUnread b (w.get F.CHN_CTXCMD_CHID) then none else w.cmdDo r b) with
           | some w' => (w'.cmdIdle r e).set busy 0
           | none =>
             let w := if r = .CHN_CTXCMD && w.ctxUnread b (w.get F.CHN_CTXCMD_CHID) then w.ctxBad (w.get F.CHN_CTXCMD_CHID) else w
             ((w.cmdIdle r e).set err 1).set busy 0)
      | none =>
        match r with
        | .PMU_CMD => w.pmuFinish b
        | .KPR_KCMD => ((w.keeperChange false).cmdIdle r e).set F.KPR_KCMD_BUSY 0
        | .KPR_EXTEND => ((w.extend (b / 2 ^ 384) (b % 2 ^ 384)).cmdIdle r e).set F.KPR_EXTEND_BUSY 0
        | .CRN_UCLOAD =>
          let (w, ok) := w.ucLoad true (w.get F.CRN_UCLOAD_ADDR * 16)
          ((w.cmdIdle r e).when (!ok) fun w => w.set F.CRN_UCLOAD_ERR 1).set F.CRN_UCLOAD_BUSY 0
        | .CHN_UCLOAD =>
          let (w, ok) := w.ucLoad false (w.get F.CHN_UCLOAD_ADDR * 16)
          ((w.cmdIdle r e).when (!ok) fun w => w.set F.CHN_UCLOAD_ERR 1).set F.CHN_UCLOAD_BUSY 0
        | .CRN_L2CTL => (w.cmdIdle r e).l2Done e b
        | .FLO_L2CTL => (w.cmdIdle r e).l2Done (16 + e) b
        | .CRN_L1CMD => (w.cmdIdle r e).l1Done e b
        | .SNP_SLICECTL => (w.cmdIdle r e).sliceDone e b
        | _ => w

/-! ### What a write starts -/

/-- Whether a trace source is enabled, whatever its world (R424). -/
def W.trcEn (w : W) (src : Nat) : Bool :=
  w.flag F.TRC_CTL_EN && (src = 192 ||
    (if src < 32 then nbit (w.get F.TRC_SRCEN0_CORE) src
     else if src < 36 then nbit (w.get F.TRC_SRCEN1_CORE) (src - 32)
     else if src < 128 then nbit (w.get F.TRC_SRCEN2_ENG) (src - 64)
     else nbit (w.get F.TRC_SRCEN3_ENG) (src - 128)))

/-- The world that a trace source runs now, for WFILT: none is 0xFFFF (R424). -/
def W.trcWorld (w : W) (src : Nat) : Nat :=
  if src < 36 then (w.core (.crn src)).cworld
  else match Tab.first? w.dev.txns fun _ t => decide (t.engine = some (src - 64)) && decide (t.wait = .none) with
    | some p => p.2.world
    | none => 0xFFFF

/-- A source that becomes enabled emits SYNC, at once or, where WFILT leaves out what it runs, before its next packet (R424, R425). -/
def W.trcEnabled (w old : W) : W :=
  (List.range 193).foldl (fun (w : W) (s : Nat) =>
    if !old.trcEn s && w.trcEn s then
      let w := w.setTrcSrc s { w.trcSrc s with sync := true }
      if w.trcOn s (w.trcWorld s) then w.trcSync s else w
    else w) w

/-- Write back and invalidate the lines of some ways of a Floe L2 (R158). -/
def W.l2InvWays (w : W) (l2 ways : Nat) : W :=
  (w.l2Lines l2).foldl (fun (w : W) (p : Nat × CLine) =>
    match w.l2Way l2 p.2.line with
    | some k =>
      if nbit ways k then
        (((w.dropL1s l2 p.2.line).loseResv l2 p.2.line).evictNotice l2 p.2).modCoh fun c => { c with l2 := Tab.del c.l2 p.1 }
      else w
    | none => w) w

/-- A cache's EN and OP as a write gives them (R274, R275, R277). -/
def W.l2Write (w old : W) (l2 e : Nat) (r : RegName) (en : Fld) (op : Nat) : W :=
  let on := w.flag en e
  let w := if on = old.flag en e then w
    else if on then w.l2Enable l2
    else (w.set en 1 e).l2Disable l2
  if op = 1 || op = 2 then (w.l2Op l2 op).cmdBusy r e op else w

/-- SLICECTL: EN, OP, then SCRWAYS (R271 to R277). -/
def W.sliceWrite (w old : W) (e v : Nat) : W :=
  let on := w.flag F.SNP_SLICECTL_EN e
  let w := if on = old.flag F.SNP_SLICECTL_EN e then w
    else if on then w.sliceEnable e
    else (w.set F.SNP_SLICECTL_EN 1 e).sliceDisable e
  let op := nbits v 29 28
  let w := if op = 1 || op = 2 then (w.sliceOp e op).cmdBusy .SNP_SLICECTL e op else w
  let n := w.get F.SNP_SLICECTL_SCRWAYS e
  let was := old.get F.SNP_SLICECTL_SCRWAYS e
  if n = was then w
  else match (w.set F.SNP_SLICECTL_SCRWAYS was e).scrWrite e n with
    | some w => w.cmdBusy .SNP_SLICECTL e (if op = 2 then 2 else 3)
    | none => w

/-- A grant is written: any session closes (R429). -/
def W.grantWrite (w : W) (code : Nat) : W :=
  let w := if w.flag F.DBG_STAT_SESSION then (w.set F.DBG_STAT_SESSION 0).report { cls := 0x0A, level := 0, src := source 23 1 } else w
  w.modDbg fun d => { d with code := some code }

/-- CHN.AUDCMD SNAP (R56): the latch tick lies 256 ns ahead. -/
def W.auditSnap (w : W) : W := (w.set F.CHN_AUDSTAT_BUSY 1).cmdBusy .CHN_AUDCMD 0 (w.now + 256)

/-- CIO.CFG is written: a pin that enters COMPARE mode starts at OUTVAL (R380). -/
def W.cfgWrite (w old : W) (n : Nat) : W :=
  let lv := w.flag F.CIO_CFG_OUTVAL n
  let w := if w.get F.CIO_CFG_MODE n = 3 && old.get F.CIO_CFG_MODE n ≠ 3 then w.modCh n fun c => { c with level := lv } else w
  (w.chRecord n).pinShow n

/-- What follows a write of a register element: `v` is what was written where the mask allows, `old` the state before (R484). -/
def W.written (w old : W) (src world : Nat) (r : RegName) (e v : Nat) : W :=
  let wo (f : Fld) : Nat := let x := nbits v f.hi f.lo; if f.resv.any (fun q => decide (q.1 ≤ x) && decide (x ≤ q.2)) then 0 else x
  match r with
  | .SYS_MODEREQ => w.modeReq (wo F.SYS_MODEREQ_TARGET)
  | .BOOT_CTL => if nbit v 31 then w.bootGo else w
  | .KPR_RSTCTL =>
    let w := if nbit v 31 then w.cirqueRestart else w
    if nbit v 30 then w.restartDone else w
  | .KPR_KCMD => if nbit v 29 then w.kcmdHandover else w
  | .KPR_EXTEND => if nbit v 29 then w.measExtend src else w
  | .MOR_CLS =>
    let w := w.set F.MOR_SUMMARY_PEND w.summary
    if old.grave && !w.grave then w.holdAnew else w
  | .DBG_GRANT => w.grantWrite (nbits v 31 0)
  | .DBG_HALT => if nbit v 30 then w.haltReq e else if nbit v 29 then w.haltEnd e else if nbit v 28 then w.haltStep e else w
  | .TRC_CTL => w.trcEnabled old
  | .TRC_SRCEN0 => w.trcEnabled old
  | .TRC_SRCEN1 => w.trcEnabled old
  | .TRC_SRCEN2 => w.trcEnabled old
  | .TRC_SRCEN3 => w.trcEnabled old
  | .KPR_KCTL => (w.set F.KPR_KSTAT_CLAIMA (w.kprClaim 0 (w.claimOf 0))).set F.KPR_KSTAT_CLAIMB (w.kprClaim 1 (w.claimOf 1))
  | .TIM_SET => (match w.timSet v with | .ok w => w | .error w => w)
  | .TIM_CTL => w.timCtlWritten
  | .TIM_OFFSET => if nbit v 63 then w.ptpSample else w
  | .SAS_CMDQ => (match w.cmdqWrite e v with | .ok w => w | .error w => w)
  | .PLK_CTL => (w.set F.PLK_CLAIM_OWN (w.get F.PLK_CTL_RANK * 4096 + w.get F.PLK_CLAIM_OWN % 4096)).linkFollow
  | .KDF_RKCMD => if nbit v 29 then w.rkGo world else w
  | .WLD_LOADCMD => w.loadCmd (nbits v 45 6 * 64)
  | .OWN_PINOWN => w.chReset e
  | .PMU_CMD => if wo F.PMU_CMD_OP ≠ 0 then w.pmuStart (wo F.PMU_CMD_OP) else w
  | .CIO_CFG => w.cfgWrite old e
  | .CIO_STAT => w.chRecord e
  | .CIO_PWM =>
    let p := (w.get F.CIO_PWM_PERIOD e, w.get F.CIO_PWM_HIGH e)
    w.modCh e fun c => { c with pwmNext := some p }
  | .CIO_BIND => w.chRecord e
  | .CIO_LOOP =>
    let op := nbits v 57 56
    if op = 1 || op = 2 then w.loopStart e op else if op = 3 then w.loopGo e else w
  | .CHN_AUDCMD => if nbit v 63 then w.auditSnap else w
  | .CHN_UCLOAD => if nbit v 61 then (w.set F.CHN_UCLOAD_BUSY 1).cmdBusy r 0 1 else w
  | .CRN_UCLOAD => if nbit v 61 then (w.set F.CRN_UCLOAD_BUSY 1).cmdBusy r 0 1 else w
  | .CMP_SAVEBASE => { w with dev := { w.dev with cmp := { w.dev.cmp with saveSet := true } } }
  | .FLO_XCHG => if nbit v 28 then w.xchgGo else w
  | .FLO_L2MASK =>
    let was := old.get F.FLO_L2MASK_WAYS e
    let same := old.get F.FLO_L2MASK_WORLD e = w.get F.FLO_L2MASK_WORLD e
    let keep := if same then w.get F.FLO_L2MASK_WAYS e else 0
    if old.get F.FLO_L2MASK_WORLD e = 0xFFFF then w else w.l2InvWays (16 + e / 16) (was - (was &&& keep))
  | .FLO_L2DEF =>
    let was := old.get F.FLO_L2DEF_WAYS e
    w.l2InvWays (16 + e) (was - (was &&& w.get F.FLO_L2DEF_WAYS e))
  | .FLO_L2CTL => w.l2Write old (16 + e) e r F.FLO_L2CTL_EN (nbits v 29 28)
  | .CRN_L2CTL => w.l2Write old e e r F.CRN_L2CTL_EN (nbits v 29 28)
  | .CRN_L1CMD => if nbits v 25 24 = 0 then w else (w.l1Cmd e (nbits v 25 24)).cmdBusy r e (nbits v 25 24)
  | .CRN_IPI => if decide (w.crnLogs ≤ nbits v 4 0) then w
      else (match w.physCore (nbits v 4 0) with
        | some p => w.modCore (.crn p) fun x => { x with ipend := x.ipend ||| 1024 }
        | none => w)
  | .SNP_CTL => w.modCoh fun c => { c with lfsr := [] }
  | .SNP_SLICECTL => w.sliceWrite old e v
  | .ETH_PORTCFG => if old.flag F.ETH_PORTCFG_EN e && !w.flag F.ETH_PORTCFG_EN e then (w.ethDown (2 * e)).ethDown (2 * e + 1) else w
  | .PCI_PORTCFG =>
    if old.flag F.PCI_PORTCFG_EN e = w.flag F.PCI_PORTCFG_EN e then w else (w.pciEnChange e (w.flag F.PCI_PORTCFG_EN e)).nvmeRun
  | .PCI_CTRLMAP =>
    if w.flag F.PCI_CTRLMAP_VALID e && !(w.pciPort (e / 32)).links.isEmpty then
      -- the controller is there: it gets the Host Identifier, and the port takes commands (R404, R407)
      ((w.send (.hostId (e / 32) (e % 32) (w.serno % 2 ^ 64 * 2 ^ 64))).modPci (e / 32) fun p => { p with queues := true }).nvmeRun
    else w
  | _ => match cmdFields r with
    | some (busy, err) =>
      let op := match r.fields.find? fun f => f.acc = .wo with | some f => wo f | none => 0
      if op = 0 then w else w.cmdStart r busy err op
    | none => w

/-- The bits of a register element that the order code makes RSV: trace sources and counter units that an HK7-M lacks (R2, R8, R414, R424). -/
def W.codeRsv (w : W) (r : RegName) (e : Nat) : Nat :=
  let lacks (b : Bool) : Nat := if b then 0 else 2 ^ 64 - 1
  match r with
  | .TRC_SRCEN0 => w.xm 0 0xFFF00000
  | .TRC_SRCEN1 => w.xm 0 0xF
  | .TRC_SRCEN2 => w.xm 0 0xFFFFFFF000000000
  | .TRC_SRCEN3 => w.xm 0 0xF
  | .PMU_ENGSEL => lacks (w.pmuEng (e / 4))
  | .PMU_ENGCNT => lacks (w.pmuEng (e / 4))
  | .PMU_PRTSEL => lacks (w.pmuPort (e / 4))
  | .PMU_PRTCNT => lacks (w.pmuPort (e / 4))
  | _ => 0

/-- Merge a write into a register element, field by field (R8, R11): the state, and whether a field received a reserved encoding. -/
def W.merge (w : W) (r : RegName) (e v mask : Nat) : W × Bool :=
  let old := (w.reg r e).toNat
  let mask := mask - (mask &&& w.codeRsv r e)
  let full := v % 2 ^ 64 &&& mask
  let merged := (old - (old &&& mask)) + full
  r.fields.foldl (fun (a : W × Bool) (f : Fld) =>
    if Fld.mask f &&& mask = 0 then a
    else
      let x := nbits merged f.hi f.lo
      match f.acc with
      | .rw => if a.1.reservedEnc f e x merged then (a.1, true) else (a.1.set f x e, a.2)
      | .w1c => (a.1.set f (nbits old f.hi f.lo - (nbits old f.hi f.lo &&& nbits full f.hi f.lo)) e, a.2)
      | .w1s => (a.1.set f (nbits old f.hi f.lo ||| nbits full f.hi f.lo) e, a.2)
      | .wo =>
        if r = .KPR_EXTDATA || r = .KDF_RKDATA then (a.1.set f x e, a.2)
        else (a.1, a.2 || a.1.reservedEnc f e (nbits full f.hi f.lo) merged)
      | _ => a) (w, false)

/-- Key of a staged word of ETH.ADDR (R478, "Ethernet"): words 1 to 3 wait for word 0. -/
def stageKey (r : RegName) (e : Nat) : Nat := regKey r e + 2 ^ 40

/-- Stage words 1 to 3 of an ETH.ADDR entry, or commit the entry with word 0. -/
def W.addrWrite (w : W) (r : RegName) (e v mask : Nat) : W :=
  let cur (x : RegName) : Nat := (Tab.getD w.dev.latch (stageKey x e) (w.reg x e)).toNat
  if r ≠ .ETH_ADDR_W0 then
    let c := cur r
    { w with dev := { w.dev with latch := Tab.put w.dev.latch (stageKey r e) (BitVec.ofNat 64 ((c - (c &&& mask)) + (v &&& mask))) } }
  else
    let later := [RegName.ETH_ADDR_W1, .ETH_ADDR_W2, .ETH_ADDR_W3]
    let w := (later.foldl (fun (w : W) (x : RegName) => (w.merge x e (cur x) (2 ^ 64 - 1)).1) w)
    let w := { w with dev := { w.dev with latch := later.foldl (fun l x => Tab.del l (stageKey x e)) w.dev.latch } }
    (w.merge r e v mask).1

/-- The register element with the values that a write gives its RW fields: one that receives a reserved encoding keeps its value (R11). -/
def W.rwNew (w : W) (r : RegName) (e v mask : Nat) : Nat :=
  let old := (w.reg r e).toNat
  let m := (old - (old &&& mask)) + (v &&& mask)
  r.fields.foldl (fun (a : Nat) (f : Fld) =>
    if f.acc = .rw && !w.reservedEnc f e (nbits m f.hi f.lo) m then a - nbits a f.hi f.lo * 2 ^ f.lo + nbits m f.hi f.lo * 2 ^ f.lo else a) old

/-- Write bits of a register element (R11, R484); `off` names it in a refusal. -/
def W.regWrite (w : W) (src world off : Nat) (r : RegName) (e v mask : Nat) : W :=
  let rwNew := w.rwNew r e v mask
  let v := v &&& mask
  if r = .ETH_ADDR_W0 || r = .ETH_ADDR_W1 || r = .ETH_ADDR_W2 || r = .ETH_ADDR_W3 then w.addrWrite r e v mask
  else if w.writeIgnored r e v && !(r = .SNP_SLICECTL && w.writeBad r e v rwNew) then w
  else if w.writeBad r e v rwNew then
    let w := if r = .SAS_CMDQ then w.set F.SAS_STAT_QFULL 1 e else w
    w.regRefuse src world off
  else
    let (w', bad) := w.merge r e v mask
    let w' := if bad then w'.regRefuse src world off else w'
    w'.written w src world r e v

/-! ### Accesses by address (R167, R183, R477) -/

/-- How an access of `n` bytes at an offset meets the register map: refused, absent, nothing (the upper half of a 32-bit slot), or bits `hi:lo`
of a register element. -/
inductive DevSpot where
  | refused | absent | upper
  | bits (r : RegName) (e hi lo : Nat)
  deriving DecidableEq, Repr

/-- Resolve an access (R475 to R477). -/
def W.devSpot (w : W) (off n : Nat) (write : Bool) : DevSpot :=
  if n < 4 || off % n ≠ 0 then .refused
  else match regAt w.isM off with
    | none => .absent
    | some (r, e, ex) =>
      if !ex then .absent
      else
        let e := w.regElem r e
        if n = 8 then .bits r e 63 0
        else if !fullSlot r then (if off % 8 = 0 then .bits r e 31 0 else .upper)
        else if write && (r.fields.any fun f => f.acc = .wo) then .refused
        else if off % 8 = 0 then .bits r e 31 0 else .bits r e 63 32

/-- A register read by world 0x0000 or the owner of a pin's page: value, whether it was refused or absent, and the state. -/
def W.devRead (w : W) (who : Who) (off n : Nat) (alias_ : Bool) : Nat × Bool × W :=
  if !w.physOk who .rd (devBase + off) then (0, true, w.physRefuse who (devBase + off))
  else match w.devSpot off n false with
    | .refused => (0, true, w.regRefuse who.src who.world off)
    | .absent => (0, true, w.regRefuse who.src who.world off)
    | .upper => (0, false, w)
    | .bits r e hi lo =>
      let (v, w) := w.regRead r e hi lo alias_
      (v, false, w)

/-- A register write: whether it was refused or absent, and the state. -/
def W.devWrite (w : W) (who : Who) (off n v : Nat) : Bool × W :=
  if !w.physOk who .wr (devBase + off) then (true, w.physRefuse who (devBase + off))
  else match w.devSpot off n true with
    | .refused => (true, w.regRefuse who.src who.world off)
    | .absent => (true, w.regRefuse who.src who.world off)
    | .upper => (false, w)
    | .bits r e hi lo => (false, w.regWrite who.src who.world off r e (v % 2 ^ (8 * n) * 2 ^ lo) ((2 ^ (hi + 1 - lo) - 1) * 2 ^ lo))

end Sys2Proof.Machine
end

