-- ==== Sys2Proof/Machine/Commands.lean ====
section
/-! DEFINITION. The register commands: one meaning for each operation that a register access starts (R10, R11, R32, R56, R137, R160, R165,
R176, R183, R185, R236, R254, R277, R318, R351, R360, R376, R390, R397, R423, R429, R432, R443, R452, R478, R484). -/

namespace Sys2Proof.Machine

open Sys2Proof

/-- The offset of a register element in the device register space (R473, R474). -/
def regOff (r : RegName) (e : Nat) : Nat :=
  match regItems.find? fun it => it.words.contains r with
  | none => 0
  | some it => it.base + e / it.nX * it.stride + it.off + e % it.nX * it.size + 8 * (it.words.findIdx (· = r))

/-- A field's value at its place in the register. -/
def fv (f : Fld) (v : Nat) : Nat := v % 2 ^ (f.hi + 1 - f.lo) * 2 ^ f.lo

/-- A write of a register by an agent of world 0x0000 with Moraine source `src`, at the width of the register; no agent acts in Reset. -/
def W.fwWrite (w : W) (src : Nat) (r : RegName) (e v : Nat) : W :=
  if w.cur = mRESET then w else (w.devWrite { world := 0, src := src } (regOff r e) (if fullSlot r then 8 else 4) v).2

/-- A read of a register by an agent; the value is the answer. -/
def W.fwRead (w : W) (src world off n : Nat) : W :=
  if w.cur = mRESET then w
  else
    let (v, bad, w) := w.devRead { world := world, src := src } off n false
    w.send (.regRead (!bad) v)

/-! ### Any register -/

/-- REGISTER_WRITE: a write of `n` bytes at an offset, by an agent of a world. -/
def execRegisterWrite (src world off n v : Nat) (s : State) : Host.Outcome State Fault Refusal :=
  liftNow (fun w => if w.cur = mRESET then w else (w.devWrite { world := world, src := src } off n v).2) s

/-- CLEARING_READ: a read of register element `i` that clears its RC fields (R10). -/
def execClearingRead (src world : Nat) (reg : RegName) (i : Nat) (s : State) : Host.Outcome State Fault Refusal :=
  lift (fun w => w.fwRead src world (regOff reg i) (if fullSlot reg then 8 else 4)) s

/-- WIDE_REGISTER_LATCH: a read of word 0 of a wide register (R478). -/
def execWideRegisterLatch (src : Nat) (reg : RegName) (i : Nat) (s : State) : Host.Outcome State Fault Refusal :=
  lift (fun w => if (wideWords reg).isEmpty then w else w.fwRead src 0 (regOff reg i) 8) s

/-- COMMAND_COMPLETE: the command of register element `i` ends (R484). -/
def execCommandComplete (reg : RegName) (i : Nat) (s : State) : Host.Outcome State Fault Refusal := lift (fun w => w.cmdEnd reg i) s

/-- CAP_READ: the capture at the head of pin channel `n` is read and popped (R381). -/
def execCapRead (src world n : Nat) (s : State) : Host.Outcome State Fault Refusal := lift (fun w => w.fwRead src world (regOff .CIO_CAP n) 8) s

/-- TXTS_READ: word 0 of ETH.TXTS pops the port's timestamp FIFO (R400, R478). -/
def execTxtsRead (src port : Nat) (s : State) : Host.Outcome State Fault Refusal := lift (fun w => w.fwRead src 0 (regOff .ETH_TXTS_W0 port) 8) s

/-- ADDR_WORD0_WRITE: word 0 commits the address entry (R478). -/
def execAddrWord0Write (src port entry mac : Nat) (s : State) : Host.Outcome State Fault Refusal :=
  lift (fun w => w.fwWrite src .ETH_ADDR_W0 (port * 4 + entry) (fv F.ETH_ADDR_W0_MAC mac)) s

/-! ### Modes, boot and keepers -/

/-- BOOT_GO: BOOT.CTL.GO. -/
def execBootGo (src : Nat) (first : Bool) (pwait : Nat) (s : State) : Host.Outcome State Fault Refusal :=
  lift (fun w => w.fwWrite src .BOOT_CTL 0 (fv F.BOOT_CTL_GO 1 + fv F.BOOT_CTL_FIRST (b2n first) + fv F.BOOT_CTL_PWAIT pwait)) s

/-- ROOT_KEY_BURN: KDF.RKCMD.GO. -/
def execRootKeyBurn (src : Nat) (s : State) : Host.Outcome State Fault Refusal := lift (fun w => w.fwWrite src .KDF_RKCMD 0 (fv F.KDF_RKCMD_GO 1)) s

/-- A SYS.MODEREQ write with a target mode. -/
def W.modeWrite (w : W) (src target : Nat) : W := w.fwWrite src .SYS_MODEREQ 0 (fv F.SYS_MODEREQ_TARGET target)

/-- MODEREQ_STANDBY. -/
def execModereqStandby (src : Nat) (s : State) : Host.Outcome State Fault Refusal := lift (fun w => w.modeWrite src mSTANDBY) s

/-- MODEREQ_RECOVERY. -/
def execModereqRecovery (src : Nat) (s : State) : Host.Outcome State Fault Refusal := lift (fun w => w.modeWrite src mRECOVERY) s

/-- MODEREQ_MAINT. -/
def execModereqMaint (src : Nat) (s : State) : Host.Outcome State Fault Refusal := lift (fun w => w.modeWrite src mMAINT) s

/-- MODEREQ_RETURN: the mode of origin is requested. -/
def execModereqReturn (src target : Nat) (s : State) : Host.Outcome State Fault Refusal := lift (fun w => w.modeWrite src target) s

/-- RESTART_GO: KPR.RSTCTL.GO. -/
def execRestartGo (src limit : Nat) (s : State) : Host.Outcome State Fault Refusal :=
  lift (fun w => w.fwWrite src .KPR_RSTCTL 0 (fv F.KPR_RSTCTL_GO 1 + fv F.KPR_RSTCTL_LIMIT limit)) s

/-- RESTART_DONE: KPR.RSTCTL.DONE. -/
def execRestartDone (src limit : Nat) (s : State) : Host.Outcome State Fault Refusal :=
  lift (fun w => w.fwWrite src .KPR_RSTCTL 0 (fv F.KPR_RSTCTL_DONE 1 + fv F.KPR_RSTCTL_LIMIT limit)) s

/-- MEAS_EXTEND: KPR.EXTEND.GO. -/
def execMeasExtend (src index : Nat) (s : State) : Host.Outcome State Fault Refusal :=
  lift (fun w => w.fwWrite src .KPR_EXTEND 0 (fv F.KPR_EXTEND_GO 1 + fv F.KPR_EXTEND_INDEX index)) s

/-- KCMD_HANDOVER: KPR.KCMD.HANDOVER. -/
def execKcmdHandover (src : Nat) (s : State) : Host.Outcome State Fault Refusal := lift (fun w => w.fwWrite src .KPR_KCMD 0 (fv F.KPR_KCMD_HANDOVER 1)) s

/-- MORAINE_ACK: a 1 to PEND of a class (R351). -/
def execMoraineAck (src cls : Nat) (s : State) : Host.Outcome State Fault Refusal := lift (fun w => w.fwWrite src .MOR_CLS cls (fv F.MOR_CLS_PEND 1)) s

/-! ### Channels -/

/-- A CHN.CTXCMD write. -/
def W.ctxWrite (w : W) (src op chid : Nat) : W := w.fwWrite src .CHN_CTXCMD 0 (fv F.CHN_CTXCMD_OP op + fv F.CHN_CTXCMD_CHID chid)

/-- CTX_OPEN. -/
def execCtxOpen (src chid : Nat) (s : State) : Host.Outcome State Fault Refusal := lift (fun w => w.ctxWrite src 1 chid) s

/-- CTX_QUIESCE. -/
def execCtxQuiesce (src chid : Nat) (s : State) : Host.Outcome State Fault Refusal := lift (fun w => w.ctxWrite src 2 chid) s

/-- CTX_ABORT. -/
def execCtxAbort (src chid : Nat) (s : State) : Host.Outcome State Fault Refusal := lift (fun w => w.ctxWrite src 3 chid) s

/-- CTX_CLOSE. -/
def execCtxClose (src chid : Nat) (s : State) : Host.Outcome State Fault Refusal := lift (fun w => w.ctxWrite src 4 chid) s

/-- CTX_WRITEBACK. -/
def execCtxWriteback (src chid : Nat) (s : State) : Host.Outcome State Fault Refusal := lift (fun w => w.ctxWrite src 5 chid) s

/-- AUDIT_SNAP: CHN.AUDCMD.SNAP. -/
def execAuditSnap (src scope port index : Nat) (s : State) : Host.Outcome State Fault Refusal :=
  lift (fun w => w.fwWrite src .CHN_AUDCMD 0
    (fv F.CHN_AUDCMD_SNAP 1 + fv F.CHN_AUDCMD_SCOPE scope + fv F.CHN_AUDCMD_PORT port + fv F.CHN_AUDCMD_INDEX index)) s

/-- The books of the snapshot's scope (R55, R56): the AUDV words, and whether each book balances. -/
def W.auditBooks (w : W) : List Nat × List Bool :=
  let i := w.get F.CHN_AUDCMD_INDEX
  match w.get F.CHN_AUDCMD_SCOPE with
  | 0 =>
    let held := w.neveTotal - w.neveFree
    let slots := 65536
    let used := w.get F.CHN_JSTAT_INUSE
    ([w.neveTotal, w.neveFree, held, 0, slots, slots - used, used],
     [decide (w.neveFree + held = w.neveTotal), decide (slots - used + used = slots)])
  | 1 =>
    let q := qpKey (w.get F.CHN_AUDCMD_PORT) i
    (match w.qp q with
     | some x =>
       let out := w.recvHeld q
       ([x.credmax, x.credmax - out, out], [decide (x.credmax - out + out = x.credmax)])
     | none => ([], [true]))
  | 2 => (match w.chanAny i with
     | some c => ([c.subcred, c.avail, c.inflight], [decide (c.avail + c.inflight = c.subcred)])
     | none => ([], [true]))
  | 3 => (match Tab.find? w.dev.worlds i with
     | some r => ([r.filled, r.tokens, r.refilled, r.spent, r.capped, r.depth], [decide (r.tokens + r.spent + r.capped = r.filled + r.refilled)])
     | none => ([], [true]))
  | 4 =>
    let init := [128, 1024, 256, 64].getD i 0
    let avail := if i < 4 then w.dev.plk.credits.getD i 0 else 0
    ([init, avail, init - avail], [decide (avail + (init - avail) = init)])
  | _ =>
    if 4 ≤ i then ([], [true])
    else
      let n (st : Nat) : Nat := ((List.range 60).filter fun k => w.get F.SAS_SLOT_STATE (i * 60 + k) = st).length
      ([60, n 1, n 0, n 2], [decide (n 1 + n 0 + n 2 = 60)])

/-- AUDIT_LATCH: the books are latched at tick T; one that does not balance is reported (R56, R57). -/
def execAuditLatch (s : State) : Host.Outcome State Fault Refusal :=
  lift (fun w =>
    match Tab.find? w.dev.busy (regKey .CHN_AUDCMD 0) with
    | none => w
    | some t =>
      if w.now < t then w
      else
        let (vs, ok) := w.auditBooks
        let w := (w.cmdIdle .CHN_AUDCMD 0).set F.CHN_AUDTS_T t
        let w := (List.range 8).foldl (fun (w : W) (i : Nat) => w.set F.CHN_AUDV_V (vs.getD i 0) i) w
        let w := ((w.set F.CHN_AUDSTAT_BUSY 0).set F.CHN_AUDSTAT_DONE 1).set F.CHN_AUDSTAT_IMBAL (b2n (!ok.getD 0 true) + 2 * b2n (!ok.getD 1 true))
        (ok.filter fun b => !b).foldl (fun (w : W) (_ : Bool) => w.report { cls := 0x1B, level := 1, src := source 21 0 }) w) s

/-! ### Keys, kernels, worlds and owners -/

/-- A KDF.CMD write. -/
def W.kdfWrite (w : W) (src op world purp epoch : Nat) : W :=
  w.fwWrite src .KDF_CMD 0 (fv F.KDF_CMD_OP op + fv F.KDF_CMD_PURP purp + fv F.KDF_CMD_EPOCH epoch + fv F.KDF_CMD_WORLD world)

/-- KDF_ACTIVATE. -/
def execKdfActivate (src world purp epoch : Nat) (s : State) : Host.Outcome State Fault Refusal := lift (fun w => w.kdfWrite src 1 world purp epoch) s

/-- KDF_ROLL. -/
def execKdfRoll (src world purp epoch : Nat) (s : State) : Host.Outcome State Fault Refusal := lift (fun w => w.kdfWrite src 2 world purp epoch) s

/-- KDF_RETIRE. -/
def execKdfRetire (src world purp epoch : Nat) (s : State) : Host.Outcome State Fault Refusal := lift (fun w => w.kdfWrite src 3 world purp epoch) s

/-- KDF_REVOKE. -/
def execKdfRevoke (src world purp epoch : Nat) (s : State) : Host.Outcome State Fault Refusal := lift (fun w => w.kdfWrite src 4 world purp epoch) s

/-- KDF_FLUSH. -/
def execKdfFlush (src world purp epoch : Nat) (s : State) : Host.Outcome State Fault Refusal := lift (fun w => w.kdfWrite src 5 world purp epoch) s

/-- KERNEL_EXCHANGE: FLO.XCHG.GO. -/
def execKernelExchange (src att chid : Nat) (s : State) : Host.Outcome State Fault Refusal :=
  lift (fun w => w.fwWrite src .FLO_XCHG 0 (fv F.FLO_XCHG_GO 1 + fv F.FLO_XCHG_ATT att + fv F.FLO_XCHG_CHID chid)) s

/-- L2MASK_WRITE: entry `entry` of a Floe cluster's way masks. -/
def execL2maskWrite (src cluster entry world ways : Nat) (s : State) : Host.Outcome State Fault Refusal :=
  lift (fun w => w.fwWrite src .FLO_L2MASK (cluster * 16 + entry) (fv F.FLO_L2MASK_WORLD world + fv F.FLO_L2MASK_WAYS ways)) s

/-- A WLD.CMD write. -/
def W.wldWrite (w : W) (src op slot world : Nat) : W :=
  w.fwWrite src .WLD_CMD 0 (fv F.WLD_CMD_OP op + fv F.WLD_CMD_SLOT slot + fv F.WLD_CMD_WORLD world)

/-- WLD_ACTIVATE. -/
def execWldActivate (src slot world : Nat) (s : State) : Host.Outcome State Fault Refusal := lift (fun w => w.wldWrite src 1 slot world) s

/-- WLD_SUSPEND. -/
def execWldSuspend (src slot world : Nat) (s : State) : Host.Outcome State Fault Refusal := lift (fun w => w.wldWrite src 2 slot world) s

/-- WLD_RESUME. -/
def execWldResume (src slot world : Nat) (s : State) : Host.Outcome State Fault Refusal := lift (fun w => w.wldWrite src 3 slot world) s

/-- WLD_REVOKE. -/
def execWldRevoke (src slot world : Nat) (s : State) : Host.Outcome State Fault Refusal := lift (fun w => w.wldWrite src 4 slot world) s

/-- WLD_DEACTIVATE. -/
def execWldDeactivate (src slot world : Nat) (s : State) : Host.Outcome State Fault Refusal := lift (fun w => w.wldWrite src 5 slot world) s

/-- WLD_RELOAD. -/
def execWldReload (src slot world : Nat) (s : State) : Host.Outcome State Fault Refusal := lift (fun w => w.wldWrite src 6 slot world) s

/-- An OWN.CMD write; OWN.CMDADDR names the first page. -/
def W.ownWrite (w : W) (src op rights ksel world count : Nat) : W :=
  w.fwWrite src .OWN_CMD 0
    (fv F.OWN_CMD_OP op + fv F.OWN_CMD_RIGHTS rights + fv F.OWN_CMD_KSEL ksel + fv F.OWN_CMD_WORLD world + fv F.OWN_CMD_COUNT count)

/-- OWN_ASSIGN. -/
def execOwnAssign (src rights ksel world count : Nat) (s : State) : Host.Outcome State Fault Refusal := lift (fun w => w.ownWrite src 1 rights ksel world count) s

/-- OWN_SETRIGHTS. -/
def execOwnSetrights (src rights ksel world count : Nat) (s : State) : Host.Outcome State Fault Refusal := lift (fun w => w.ownWrite src 2 rights ksel world count) s

/-- OWN_SHARE. -/
def execOwnShare (src rights ksel world count : Nat) (s : State) : Host.Outcome State Fault Refusal := lift (fun w => w.ownWrite src 3 rights ksel world count) s

/-- OWN_UNSHARE. -/
def execOwnUnshare (src rights ksel world count : Nat) (s : State) : Host.Outcome State Fault Refusal := lift (fun w => w.ownWrite src 4 rights ksel world count) s

/-- OWN_RELEASE. -/
def execOwnRelease (src rights ksel world count : Nat) (s : State) : Host.Outcome State Fault Refusal := lift (fun w => w.ownWrite src 5 rights ksel world count) s

/-- OWN_SCRUB. -/
def execOwnScrub (src rights ksel world count : Nat) (s : State) : Host.Outcome State Fault Refusal := lift (fun w => w.ownWrite src 6 rights ksel world count) s

/-- OWN_ENABLE: OWN.CTL.EN. -/
def execOwnEnable (src : Nat) (s : State) : Host.Outcome State Fault Refusal := lift (fun w => w.fwWrite src .OWN_CTL 0 (fv F.OWN_CTL_EN 1)) s

/-- PINOWN_WRITE. -/
def execPinownWrite (src pin world : Nat) (drive sense : Bool) (s : State) : Host.Outcome State Fault Refusal :=
  lift (fun w => w.fwWrite src .OWN_PINOWN pin (fv F.OWN_PINOWN_WORLD world + fv F.OWN_PINOWN_DRIVE (b2n drive) + fv F.OWN_PINOWN_SENSE (b2n sense))) s

/-! ### Cores and caches -/

/-- IPI: CRN.IPI. -/
def execIpi (src core : Nat) (s : State) : Host.Outcome State Fault Refusal := lift (fun w => w.fwWrite src .CRN_IPI 0 (fv F.CRN_IPI_CORE core)) s

/-- UCODE_LOAD: CRN.UCLOAD.GO. -/
def execUcodeLoad (src addr : Nat) (s : State) : Host.Outcome State Fault Refusal :=
  lift (fun w => w.fwWrite src .CRN_UCLOAD 0 (fv F.CRN_UCLOAD_GO 1 + fv F.CRN_UCLOAD_ADDR (addr / 16))) s

/-- A write of a cache's control register: EN, and OP; a slice keeps its SCRWAYS. -/
def W.cacheWrite (w : W) (src : Nat) (cache : CacheId) (en : Option Bool) (op : Nat) : W :=
  match cache with
  | .slice i => w.fwWrite src .SNP_SLICECTL i (fv F.SNP_SLICECTL_EN (b2n (en.getD (w.flag F.SNP_SLICECTL_EN i))) + fv F.SNP_SLICECTL_OP op +
      fv F.SNP_SLICECTL_SCRWAYS (w.get F.SNP_SLICECTL_SCRWAYS i))
  | .crnL2 i => w.fwWrite src .CRN_L2CTL i (fv F.CRN_L2CTL_EN (b2n (en.getD (w.flag F.CRN_L2CTL_EN i))) + fv F.CRN_L2CTL_OP op)
  | .floL2 i => w.fwWrite src .FLO_L2CTL i (fv F.FLO_L2CTL_EN (b2n (en.getD (w.flag F.FLO_L2CTL_EN i))) + fv F.FLO_L2CTL_OP op)

/-- CACHE_CLEANALL. -/
def execCacheCleanall (src : Nat) (cache : CacheId) (s : State) : Host.Outcome State Fault Refusal := lift (fun w => w.cacheWrite src cache none 1) s

/-- CACHE_INVALL. -/
def execCacheInvall (src : Nat) (cache : CacheId) (s : State) : Host.Outcome State Fault Refusal := lift (fun w => w.cacheWrite src cache none 2) s

/-- CACHE_DISABLE. -/
def execCacheDisable (src : Nat) (cache : CacheId) (s : State) : Host.Outcome State Fault Refusal := lift (fun w => w.cacheWrite src cache (some false) 0) s

/-- CACHE_ENABLE. -/
def execCacheEnable (src : Nat) (cache : CacheId) (s : State) : Host.Outcome State Fault Refusal := lift (fun w => w.cacheWrite src cache (some true) 0) s

/-- L1_INVALL_I. -/
def execL1InvallI (src core : Nat) (s : State) : Host.Outcome State Fault Refusal := lift (fun w => w.fwWrite src .CRN_L1CMD core (fv F.CRN_L1CMD_OP 1)) s

/-- L1_INVALL_D. -/
def execL1InvallD (src core : Nat) (s : State) : Host.Outcome State Fault Refusal := lift (fun w => w.fwWrite src .CRN_L1CMD core (fv F.CRN_L1CMD_OP 2)) s

/-- L1_INVALL_BOTH. -/
def execL1InvallBoth (src core : Nat) (s : State) : Host.Outcome State Fault Refusal := lift (fun w => w.fwWrite src .CRN_L1CMD core (fv F.CRN_L1CMD_OP 3)) s

/-- SCRWAYS_CHANGE. -/
def execScrwaysChange (src slice ways : Nat) (s : State) : Host.Outcome State Fault Refusal :=
  lift (fun w => w.fwWrite src .SNP_SLICECTL slice (fv F.SNP_SLICECTL_SCRWAYS ways + fv F.SNP_SLICECTL_EN (w.get F.SNP_SLICECTL_EN slice))) s

/-! ### Partner link, time, buses, pins and ports -/

/-- PLK_FORCE. -/
def execPlkForce (src : Nat) (s : State) : Host.Outcome State Fault Refusal := lift (fun w => w.fwWrite src .PLK_CMD 0 (fv F.PLK_CMD_OP 1)) s

/-- PLK_RETURN. -/
def execPlkReturn (src : Nat) (s : State) : Host.Outcome State Fault Refusal := lift (fun w => w.fwWrite src .PLK_CMD 0 (fv F.PLK_CMD_OP 2)) s

/-- PLK_RETRAIN. -/
def execPlkRetrain (src : Nat) (s : State) : Host.Outcome State Fault Refusal := lift (fun w => w.fwWrite src .PLK_CMD 0 (fv F.PLK_CMD_OP 3)) s

/-- TIM_SET. -/
def execTimSet (src ns : Nat) (s : State) : Host.Outcome State Fault Refusal := liftNow (fun w => w.fwWrite src .TIM_SET 0 (fv F.TIM_SET_NS ns)) s

/-- PTP_SAMPLE: TIM.OFFSET.GO; `error` is the two's complement of the phase error. -/
def execPtpSample (src interval error : Nat) (s : State) : Host.Outcome State Fault Refusal :=
  lift (fun w => w.fwWrite src .TIM_OFFSET 0 (fv F.TIM_OFFSET_GO 1 + fv F.TIM_OFFSET_INTERVAL interval + fv F.TIM_OFFSET_ERROR error)) s

/-- CMDQ_WRITE. -/
def execCmdqWrite (src bus slot code index value : Nat) (s : State) : Host.Outcome State Fault Refusal :=
  lift (fun w => w.fwWrite src .SAS_CMDQ bus
    (fv F.SAS_CMDQ_SLOT slot + fv F.SAS_CMDQ_CODE code + fv F.SAS_CMDQ_INDEX index + fv F.SAS_CMDQ_VALUE value)) s

/-- A CIO.LOOP write. -/
def W.loopWrite (w : W) (src op l limit hsoff : Nat) : W :=
  w.fwWrite src .CIO_LOOP l (fv F.CIO_LOOP_OP op + fv F.CIO_LOOP_LIMIT limit + fv F.CIO_LOOP_HSOFF (hsoff / 16))

/-- LOOP_EXCHANGE. -/
def execLoopExchange (src l limit hsoff : Nat) (s : State) : Host.Outcome State Fault Refusal := lift (fun w => w.loopWrite src 1 l limit hsoff) s

/-- LOOP_HOLD. -/
def execLoopHold (src l limit hsoff : Nat) (s : State) : Host.Outcome State Fault Refusal := lift (fun w => w.loopWrite src 2 l limit hsoff) s

/-- LOOP_GO. -/
def execLoopGo (src l limit hsoff : Nat) (s : State) : Host.Outcome State Fault Refusal := lift (fun w => w.loopWrite src 3 l limit hsoff) s

/-- An ETH.QPCMD write. -/
def W.qpWrite (w : W) (src op port qpn : Nat) : W :=
  w.fwWrite src .ETH_QPCMD 0 (fv F.ETH_QPCMD_OP op + fv F.ETH_QPCMD_PORT port + fv F.ETH_QPCMD_QPN qpn)

/-- QP_LOAD. -/
def execQpLoad (src port qpn : Nat) (s : State) : Host.Outcome State Fault Refusal := lift (fun w => w.qpWrite src 1 port qpn) s

/-- QP_RESET. -/
def execQpReset (src port qpn : Nat) (s : State) : Host.Outcome State Fault Refusal := lift (fun w => w.qpWrite src 2 port qpn) s

/-- QP_STORE. -/
def execQpStore (src port qpn : Nat) (s : State) : Host.Outcome State Fault Refusal := lift (fun w => w.qpWrite src 3 port qpn) s

/-- PCI_PORT_ENABLE: PCI.PORTCFG.EN with BIFUR and CXL (R403). -/
def execPciPortEnable (src port bifur : Nat) (cxl : Bool) (s : State) : Host.Outcome State Fault Refusal :=
  lift (fun w => w.fwWrite src .PCI_PORTCFG port (fv F.PCI_PORTCFG_EN 1 + fv F.PCI_PORTCFG_CXL (b2n cxl) + fv F.PCI_PORTCFG_BIFUR bifur)) s

/-! ### Counters and debug -/

/-- A PMU.CMD write. -/
def W.pmuWrite (w : W) (src op kind index slot : Nat) : W :=
  w.fwWrite src .PMU_CMD 0 (fv F.PMU_CMD_OP op + fv F.PMU_CMD_KIND kind + fv F.PMU_CMD_INDEX index + fv F.PMU_CMD_SLOT slot)

/-- PMU_LOAD. -/
def execPmuLoad (src slot : Nat) (s : State) : Host.Outcome State Fault Refusal := lift (fun w => w.pmuWrite src 1 0 0 slot) s

/-- PMU_RELEASE. -/
def execPmuRelease (src slot : Nat) (s : State) : Host.Outcome State Fault Refusal := lift (fun w => w.pmuWrite src 2 0 0 slot) s

/-- SNAPW. -/
def execSnapw (src slot : Nat) (s : State) : Host.Outcome State Fault Refusal := lift (fun w => w.pmuWrite src 3 0 0 slot) s

/-- SNAPU. -/
def execSnapu (src kind index : Nat) (s : State) : Host.Outcome State Fault Refusal := lift (fun w => w.pmuWrite src 4 kind index 0) s

/-- DBG_GRANT_WRITE. -/
def execDbgGrantWrite (src level haltlim world code : Nat) (s : State) : Host.Outcome State Fault Refusal :=
  lift (fun w => w.fwWrite src .DBG_GRANT 0
    (fv F.DBG_GRANT_LEVEL level + fv F.DBG_GRANT_HALTLIM haltlim + fv F.DBG_GRANT_WORLD world + fv F.DBG_GRANT_CODE code)) s

/-- DBG_HALT_REQ. -/
def execDbgHaltReq (src l : Nat) (s : State) : Host.Outcome State Fault Refusal := lift (fun w => w.fwWrite src .DBG_HALT l (fv F.DBG_HALT_REQ 1)) s

/-- DBG_RESUME. -/
def execDbgResume (src l : Nat) (s : State) : Host.Outcome State Fault Refusal := lift (fun w => w.fwWrite src .DBG_HALT l (fv F.DBG_HALT_RESUME 1)) s

/-- DBG_STEP. -/
def execDbgStep (src l : Nat) (s : State) : Host.Outcome State Fault Refusal := lift (fun w => w.fwWrite src .DBG_HALT l (fv F.DBG_HALT_STEP 1)) s

end Sys2Proof.Machine
end

