-- ==== Sys2Proof/Machine/Debug.lean ====
section
/-! DEFINITION. System registers, and the debug port (R191, R222, R233, R236, R237, R244, R428 to R434). -/

namespace Sys2Proof.Machine

open Sys2Proof

/-! ### System registers (R191, R233) -/

/-- A system register; none for an unlisted number. -/
def W.sysReg (w : W) (c : CoreId) (n : Nat) : Option TWord :=
  let x := w.core c
  match c, n with
  | _, 0 => some ⟨tINT, x.psw⟩
  | _, 1 => some ⟨tINT, x.fpsw⟩
  | .crn _, 2 => some (int x.cworld)
  | .crn _, 3 => some x.cstk
  | .crn _, 4 => some ⟨tINT, x.vbase⟩
  | .crn _, 5 => some ⟨tINT, x.estk⟩
  | .crn _, 6 => some ⟨tINT, x.estat⟩
  | .crn p, 7 => some (int (w.ipend p))
  | .crn _, 8 => some ⟨tINT, x.iena⟩
  | .crn _, 9 => some ⟨tINT, x.ndead⟩
  | .crn _, 10 => some ⟨tINT, x.corectl⟩
  | .crn _, 11 => some ⟨tINT, x.detstat⟩
  | .crn _, 12 => some ⟨tINT, x.tcmctl⟩
  | .crn p, 13 => some (int (p * 256 + (w.logCore p).getD 0))
  | _, _ => none

/-- The bits of `v` that `m` names. -/
def keepBits (v : Word) (m : Nat) : Word := v &&& BitVec.ofNat 64 m

/-- A write-1-to-clear of the bits of `m`. -/
def clearBits (old v : Word) (m : Nat) : Word := old &&& ~~~(keepBits v m)

/-- A reserved encoding written to a field of a system register: the field keeps its value (R11). -/
def W.sysRefuse (w : W) (c : CoreId) (world : Nat) : W := w.report { cls := 0x09, level := 0, src := coreSrc c, world := world }

/-- Write a system register: reserved bits stay 0, read-only registers keep their value; PSW.IE takes writes of world 0x0000 on Cornice only
(R191). -/
def W.setSysReg (w : W) (c : CoreId) (world n : Nat) (v : TWord) : W :=
  let x := v.val
  let on (f : Core → Core) : W := w.modCore c f
  match n with
  | 0 =>
    let ie := match c with | .crn _ => decide (world = 0) | .flo _ => false
    on fun r => { r with psw := keepBits x 0xF0000000 ||| (if ie then keepBits x 1 else keepBits r.psw 1) }
  | 1 =>
    let bad := decide (4 < bits x 10 8)
    let w := on fun r => { r with fpsw := keepBits x 0x1F ||| keepBits (if bad then r.fpsw else x) 0x700 }
    if bad then w.sysRefuse c world else w
  | 3 => on fun r => { r with cstk := v }
  | 4 => on fun r => { r with vbase := keepBits x (2 ^ 64 - 512) }
  | 5 => on fun r => { r with estk := keepBits x 0x1FF80 }
  | 6 => on fun r => { r with estat := clearBits r.estat x 1 }
  | 7 => on fun r => { r with ipend := clearBits r.ipend x 0x440 }
  | 8 => on fun r => { r with iena := keepBits x 0xFFFF }
  | 9 => on fun r => { r with ndead := x }
  | 10 => (match c with | .crn p => w.setCorectl p (keepBits x 0x3E) | .flo _ => w)
  | 11 => on fun r => { r with detstat := clearBits r.detstat x 0x8000001F }
  | 12 =>
    let bad := decide (bits x 4 0 = 0)
    let w := on fun r => { r with tcmctl := keepBits x 0xFFFF0000 ||| keepBits (if bad then r.tcmctl else x) 0x1F }
    if bad then w.sysRefuse c world else w
  | _ => w

/-! ### Authorisation (R429) -/

/-- A record of class DBG.ACCESS. -/
def W.dbgNote (w : W) (world addr : Nat) : W := w.report { cls := 0x0A, level := 0, src := source 23 1, world := world, detail := addr }

/-- Whether a grant is in force. -/
def W.grantOn (w : W) : Bool := w.dev.dbg.code.isSome && decide (w.secs < w.get F.DBG_EXPIRE_S)

/-- The level at which the port acts: 0 STATUS without a session. -/
def W.dbgLevel (w : W) : Nat := if w.flag F.DBG_STAT_SESSION && w.grantOn then w.get F.DBG_GRANT_LEVEL else 0

/-- Select a JTAG instruction of the debug port. -/
def W.dbgIr (w : W) (i : Nat) : W := { w with dev := { w.dev with mgmt := { w.dev.mgmt with jtag := i } } }

/-- DBGAUTH: a session code is shifted in. -/
def execDbgauth (code : Nat) (s : State) : Host.Outcome State Fault Refusal :=
  lift (fun w =>
    let w := w.dbgIr 6
    if w.grantOn && w.dev.dbg.code = some (code % 2 ^ 32) then
      (if w.flag F.DBG_STAT_SESSION then w else (w.set F.DBG_STAT_SESSION 1).dbgNote 0 0)
    else ((w.set F.DBG_STAT_LOCKOUT 1).dbgNote 0 0).modDbg fun d => { d with lockAt := w.now }) s

/-- DBG_LOCKOUT_EXPIRY: 1 s after the last wrong code. -/
def execDbgLockoutExpiry (s : State) : Host.Outcome State Fault Refusal :=
  lift (fun w => if w.flag F.DBG_STAT_LOCKOUT && decide (w.dev.dbg.lockAt + 1000000000 ≤ w.now) then w.set F.DBG_STAT_LOCKOUT 0 else w) s

/-- DBG_GRANT_EXPIRY: the grant ends, and with it the session. -/
def execDbgGrantExpiry (s : State) : Host.Outcome State Fault Refusal :=
  lift (fun w =>
    if w.dev.dbg.code.isSome && decide (w.get F.DBG_EXPIRE_S ≤ w.secs) then
      let w := if w.flag F.DBG_STAT_SESSION then (w.set F.DBG_STAT_SESSION 0).dbgNote 0 0 else w
      w.modDbg fun d => { d with code := none }
    else w) s

/-! ### Accesses (R430, R431) -/

/-- The result of a DBGACC request. -/
def W.dbgDone (w : W) (refused : Bool) (tag data : Nat) : W :=
  w.modDbg fun d => { d with result := (true, refused, if refused then 0 else tag, if refused then 0 else data) }

/-- A refused DBGACC access is reported. -/
def W.dbgRefuse (w : W) (world addr : Nat) : W := (w.dbgNote world addr).dbgDone true 0 0

/-- A DBGACC scan: the capture is the result of the previous request. -/
def W.dbgScan (w : W) : W :=
  let r := w.dev.dbg.result
  (w.dbgIr 7).send (.jtag (b2n r.1 * 2 ^ 115 + b2n r.2.1 * 2 ^ 114 + r.2.2.1 % 16 * 2 ^ 64 + r.2.2.2 % 2 ^ 64))

/-- Who the port acts as: the grant's world under TENANT, else world 0x0000. -/
def W.dbgWho (w : W) : Who := { world := if w.dbgLevel = 1 then w.get F.DBG_GRANT_WORLD else 0, src := source 23 1 }

/-- Device registers that an access may reach below FULL: the STATUS reads, and under TENANT the halt and breakpoint registers and its world's
snapshot (R429). -/
def W.dbgReg (w : W) (r : RegName) (write : Bool) : Bool :=
  match r with
  | .DBG_STAT => !write
  | .IDREV_IDREV => !write
  | .IDREV_SERNO_W0 => !write
  | .IDREV_SERNO_W1 => !write
  | .SYS_MODE => !write
  | .SYS_READY => !write
  | .MOR_SUMMARY => !write
  | .DBG_HALT => w.dbgLevel = 1
  | .DBG_BP => w.dbgLevel = 1
  | .PMU_SNAPTS => !write && w.dbgLevel = 1 && decide (w.dev.dbg.snapWorld = some (w.get F.DBG_GRANT_WORLD))
  | .PMU_SNAPV => !write && w.dbgLevel = 1 && decide (w.dev.dbg.snapWorld = some (w.get F.DBG_GRANT_WORLD))
  | _ => false

/-- Whether SPACE 0 is open at an address. -/
def W.dbgPhys (w : W) (pa : Nat) (write : Bool) : Bool :=
  w.dbgLevel = 2 || (match w.pkind pa with
    | .dev off => (match regAt w.isM off with | some (r, _, _) => w.dbgReg r write | none => false)
    | _ => false)

/-- A read of `n` bytes at a physical address as `who`, without side effect. -/
def W.dbgLoad (w : W) (who : Who) (pa n : Nat) : W :=
  match w.pkind pa with
  | .dev off =>
    let (v, bad, w) := w.devRead who off n true
    if bad then w.dbgRefuse who.world pa else w.dbgDone false 0 v
  | _ =>
    match (pagesOf pa n).find? fun a => !w.physOk who .rd (max a pa) with
    | some a => (w.physRefuse who (max a pa)).dbgRefuse who.world pa
    | none =>
      let bs := (List.range n).map fun i => (w.rdWord ((pa + i) / 8)).val.toNat / 2 ^ (8 * ((pa + i) % 8)) % 256
      (w.unitTouch pa n).dbgDone false (w.rdWord (pa / 8)).tag.toNat (bs.reverse.foldl (fun a b => a * 256 + b) 0)

/-- A write of a TCM by its alias (R223): both cores of a pair. -/
def W.aliasWrite (w : W) (p off : Nat) (bs : List Byte) (tag : Tag) : W :=
  let w := (linesOf off bs.length).foldl (fun (w : W) (l : Nat) => w.breakResv none (some p) l) w
  (w.tcmCores p).foldl (fun (w : W) (q : Nat) => (w.putBytes (tcmAddr q off) bs).tagRange (tcmAddr q off) bs.length tag) (w.undoDrop p off bs.length)

/-- A write of `n` bytes at a physical address as `who`; only a whole word takes a tag other than RAW (R196). -/
def W.dbgStore (w : W) (who : Who) (pa n v tag : Nat) : W :=
  match w.pkind pa with
  | .dev off =>
    let (bad, w) := w.devWrite who off n v
    if bad then w.dbgRefuse who.world pa else w.dbgDone false 0 0
  | k =>
    match (pagesOf pa n).find? fun a => !w.physOk who .wr (max a pa) with
    | some a => (w.physRefuse who (max a pa)).dbgRefuse who.world pa
    | none =>
      let bs := leBytes n v
      let t : Tag := if n = 8 && pa % 8 = 0 then BitVec.ofNat 4 tag else tRAW
      let w := match k with
        | .tcm p off => w.aliasWrite p off bs t
        | _ => (w.unitStore pa bs).tagRange pa n t
      w.dbgDone false 0 0

/-- The physical address of a virtual address of the TENANT world. -/
def W.dbgXlate (w : W) (va : Nat) (acc : Acc3) : Except WalkFail Nat :=
  match w.xlate w.dbgWho.world va acc with
  | .ok (pa, _) => .ok pa
  | .error f => .error f

/-- Whether SPACE 2 is open for a core and register: the core is halted, and TENANT sees its own world's code only (R434). -/
def W.dbgCore (w : W) (l r : Nat) : Option CoreId :=
  match w.physCore l with
  | none => none
  | some p =>
    let x := w.core (.crn p)
    if x.halted && (w.dbgLevel = 2 || (w.dbgLevel = 1 && decide (x.cworld = w.get F.DBG_GRANT_WORLD) && decide (r ≤ 32 || r = 64 || r = 65))) then
      some (.crn p) else none

/-- A core register as SPACE 2 numbers them. -/
def W.dbgCoreReg (w : W) (c : CoreId) (r : Nat) : Option TWord :=
  if r < 32 then some (w.gr c r) else if r = 32 then some ⟨tINT, (w.core c).pc⟩ else if 64 ≤ r then w.sysReg c (r - 64) else none

/-- Bytes `a` to `a + n` of the trace buffer, oldest first. -/
def W.dbgTrace (w : W) (a n : Nat) : Nat := leAt ((w.dev.trc.buf.flatten.drop a).take n) 0 n

/-- Bytes that SIZE names (R193). -/
def dbgSize (size : Nat) : Nat := 2 ^ (size % 4)

/-- Whether the session and the lockout allow any access in a space. -/
def W.dbgOpen (w : W) (space addr : Nat) (write : Bool) : Bool :=
  !w.flag F.DBG_STAT_LOCKOUT &&
  (match space % 4 with
   | 0 => w.dbgPhys addr write
   | 1 => w.dbgLevel = 1
   | 2 => decide (1 ≤ w.dbgLevel)
   | _ => w.dbgLevel = 2 && !write)

/-- A DBGACC read. -/
def W.dbgRead (w : W) (space size addr : Nat) : W :=
  let n := dbgSize size
  let addr := addr % 2 ^ 46
  let who := w.dbgWho
  if !w.dbgOpen space addr false then w.dbgRefuse who.world addr
  else match space % 4 with
    | 0 => w.dbgLoad { who with world := 0 } addr n
    | 1 =>
      (match w.dbgXlate addr .rd, w.dbgXlate (addr + n - 1) .rd with
       | .ok pa, .ok _ => if addr % 4096 + n ≤ 4096 then w.dbgLoad who pa n else w.dbgRefuse who.world addr
       | .error f, _ => (w.walkRefuse who.src who.world f).dbgRefuse who.world addr
       | _, .error f => (w.walkRefuse who.src who.world f).dbgRefuse who.world addr)
    | 2 =>
      (match (w.dbgCore (addr / 2 ^ 36) (addr % 1024)).bind fun c => w.dbgCoreReg c (addr % 1024) with
       | some x => w.dbgDone false x.tag.toNat (x.val.toNat % 2 ^ (8 * n))
       | none => w.dbgRefuse who.world addr)
    | _ => w.dbgDone false 0 (w.dbgTrace addr n)

/-- A DBGACC write. -/
def W.dbgWrite (w : W) (space size addr data tag : Nat) : W :=
  let n := dbgSize size
  let addr := addr % 2 ^ 46
  let tag := tag % 16
  let v := data % 2 ^ (8 * n)
  let who := w.dbgWho
  if !w.dbgOpen space addr true || (w.dbgLevel = 1 && decide (6 ≤ tag)) then w.dbgRefuse who.world addr
  else match space % 4 with
    | 0 => w.dbgStore { who with world := 0 } addr n v tag
    | 1 =>
      (match w.dbgXlate addr .wr, w.dbgXlate (addr + n - 1) .wr with
       | .ok pa, .ok _ => if addr % 4096 + n ≤ 4096 then w.dbgStore who pa n v tag else w.dbgRefuse who.world addr
       | .error f, _ => (w.walkRefuse who.src who.world f).dbgRefuse who.world addr
       | _, .error f => (w.walkRefuse who.src who.world f).dbgRefuse who.world addr)
    | 2 =>
      let r := addr % 1024
      (match w.dbgCore (addr / 2 ^ 36) r with
       | none => w.dbgRefuse who.world addr
       | some c =>
         if (w.dbgCoreReg c r).isNone then w.dbgRefuse who.world addr
         else
           let x : TWord := ⟨BitVec.ofNat 4 tag, BitVec.ofNat 64 v⟩
           let w := if r < 32 then w.setG c r x
             else if r = 32 then w.modCore c fun y => { y with pc := x.val }
             else w.setSysReg c who.world (r - 64) x
           (w.checkpoint c).dbgDone false 0 0)
    | _ => w.dbgRefuse who.world addr

/-- DBG_POLL. -/
def execDbgPoll (s : State) : Host.Outcome State Fault Refusal := lift (fun w => w.dbgScan) s

/-- DBG_READ. -/
def execDbgRead (space size addr : Nat) (s : State) : Host.Outcome State Fault Refusal := lift (fun w => w.dbgScan.dbgRead space size addr) s

/-- DBG_WRITE. -/
def execDbgWrite (space size addr data tag : Nat) (s : State) : Host.Outcome State Fault Refusal :=
  liftNow (fun w => w.dbgScan.dbgWrite space size addr data tag) s

/-! ### Halting (R434) -/

/-- BREAKPOINT_HIT: the fetch of physical core `p` meets an enabled breakpoint. -/
def execBreakpointHit (p : Nat) (s : State) : Host.Outcome State Fault Refusal :=
  lift (fun w => if (w.core (.crn p)).runs then (match w.bpHit p with | some l => w.haltNow l p | none => w) else w) s

/-- HALT_LIMIT_EXPIRY: a halt under TENANT has lasted HALTLIM ms. -/
def execHaltLimitExpiry (l : Nat) (s : State) : Host.Outcome State Fault Refusal :=
  lift (fun w =>
    match Tab.find? w.dev.dbg.tenant l with
    | some t =>
      if t + w.get F.DBG_GRANT_HALTLIM * 1000000 ≤ w.now then (w.haltEnd l).set F.DBG_HALT_AUTOREL 1 l else w
    | none => w) s

end Sys2Proof.Machine
end

