-- ==== Sys2Proof/Machine/Float.lean ====
section
/-! DEFINITION. IEEE 754-2019 arithmetic for binary64, binary32, binary16 and bfloat16, exact and rounded once (R211 to R213). -/

namespace Sys2Proof

/-- A binary interchange format: exponent width and stored fraction width (R211). -/
structure FFmt where
  /-- Exponent bits. -/
  ew : Nat
  /-- Stored fraction bits. -/
  mw : Nat
  deriving DecidableEq, Repr

/-- binary64. -/
def FFmt.f64 : FFmt := ⟨11, 52⟩
/-- binary32. -/
def FFmt.f32 : FFmt := ⟨8, 23⟩
/-- binary16. -/
def FFmt.f16 : FFmt := ⟨5, 10⟩
/-- bfloat16: 8 significand bits and emax 127 (R211). -/
def FFmt.bf16 : FFmt := ⟨8, 7⟩

/-- Bits of one lane. -/
def FFmt.width (f : FFmt) : Nat := f.ew + f.mw + 1
/-- The exponent bias. -/
def FFmt.bias (f : FFmt) : Nat := 2 ^ (f.ew - 1) - 1

/-- A floating-point datum read from its bits. -/
inductive FNum where
  /-- NaN; the flag says whether it is signalling. -/
  | nan (signalling : Bool)
  /-- Infinity with its sign (true: negative). -/
  | inf (neg : Bool)
  /-- A finite number ±m × 2^e. -/
  | fin (neg : Bool) (m : Nat) (e : Int)
  deriving DecidableEq, Repr

/-- The sticky exception bits of FPSW, in its bit positions (R191). -/
abbrev FFlags := Nat
/-- Invalid operation. -/
def fNV : FFlags := 16
/-- Division by zero. -/
def fDZ : FFlags := 8
/-- Overflow. -/
def fOF : FFlags := 4
/-- Underflow. -/
def fUF : FFlags := 2
/-- Inexact. -/
def fNX : FFlags := 1

/-- Read one lane. -/
def fDecode (f : FFmt) (b : Nat) : FNum :=
  let frac := b % 2 ^ f.mw
  let ex := (b >>> f.mw) % 2 ^ f.ew
  let neg := b.testBit (f.ew + f.mw)
  if ex = 2 ^ f.ew - 1 then
    if frac = 0 then .inf neg else .nan (!frac.testBit (f.mw - 1))
  else if ex = 0 then .fin neg frac (1 - (f.bias : Int) - (f.mw : Int))
  else .fin neg (frac + 2 ^ f.mw) ((ex : Int) - (f.bias : Int) - (f.mw : Int))

/-- The sign bit of a lane as a number. -/
def fSign (f : FFmt) (neg : Bool) : Nat := if neg then 2 ^ (f.ew + f.mw) else 0

/-- The canonical NaN of a format (R211). -/
def fNaN (f : FFmt) : Nat := (2 ^ f.ew - 1) <<< f.mw + 2 ^ (f.mw - 1)
/-- An infinity. -/
def fInf (f : FFmt) (neg : Bool) : Nat := fSign f neg + (2 ^ f.ew - 1) <<< f.mw
/-- The finite number of greatest magnitude. -/
def fMax (f : FFmt) (neg : Bool) : Nat := fSign f neg + (2 ^ f.ew - 1) <<< f.mw - 1
/-- A zero. -/
def fZero (f : FFmt) (neg : Bool) : Nat := fSign f neg

/-- Bits of a positive number's magnitude. -/
def bitLen (m : Nat) : Nat := if m = 0 then 0 else Nat.log2 m + 1

/-- Whether rounding mode `rm` (R212) rounds the magnitude up, for a kept part that is odd or not,
and a discarded part of `2 * rem` against `half`, with `sticky` telling of lower nonzero bits. -/
def roundsUp (rm : Nat) (neg odd : Bool) (rem half : Nat) (sticky : Bool) : Bool :=
  let inexact := rem != 0 || sticky
  let above := decide (half < rem) || (decide (rem = half) && sticky && decide (half ≠ 0))
  let tie := decide (rem = half) && !sticky && decide (half ≠ 0)
  if rm = 0 then above || (tie && odd)
  else if rm = 1 then false
  else if rm = 2 then inexact && neg
  else if rm = 3 then inexact && !neg
  else above || tie

/-- Round `m × 2^e` (plus a nonzero part below it when `sticky`) to a multiple of `2^q`; the multiple and whether it is inexact. -/
def roundAt (rm : Nat) (neg : Bool) (m : Nat) (e q : Int) (sticky : Bool) : Nat × Bool :=
  if q ≤ e then
    let k := m <<< (e - q).toNat
    -- with a sticky part below the quantum, the discarded part is more than none and less than half
    let up := sticky && ((rm = 2 && neg) || (rm = 3 && !neg))
    (if up then k + 1 else k, sticky)
  else
    let d := (q - e).toNat
    let k := m >>> d
    let rem := m % 2 ^ d
    let up := roundsUp rm neg (k % 2 = 1) rem (2 ^ (d - 1)) sticky
    (if up then k + 1 else k, rem != 0 || sticky)

/-- Round the exact value ±(m + sticky) × 2^e once to format `f`; tininess is detected after rounding (R211). -/
def fRound (f : FFmt) (rm : Nat) (neg : Bool) (m : Nat) (e : Int) (sticky : Bool := false) : Nat × FFlags :=
  if m = 0 && !sticky then (fZero f neg, 0)
  else
    let p : Int := (f.mw : Int) + 1
    let emin : Int := 1 - (f.bias : Int)
    let qn : Int := e + (bitLen m : Int) - p
    let qs : Int := emin - (f.mw : Int)
    let q := max qn qs
    let (k, inexact) := roundAt rm neg m e q sticky
    let (ku, _) := roundAt rm neg m e qn sticky
    let tiny := decide (qn < qs) && !(decide (qn + 1 = qs) && decide (2 ^ (f.mw + 1) ≤ ku))
    let (k, q) := if 2 ^ (f.mw + 1) ≤ k then (k / 2, q + 1) else (k, q)
    if k < 2 ^ f.mw then
      (fSign f neg + k, (if inexact then fNX else 0) + (if tiny && inexact then fUF else 0))
    else
      let ex := q + (f.mw : Int) + (f.bias : Int)
      if (2 ^ f.ew : Int) - 1 ≤ ex then
        let toInf := rm = 0 || rm ≥ 4 || (rm = 2 && neg) || (rm = 3 && !neg)
        (if toInf then fInf f neg else fMax f neg, fOF + fNX)
      else
        (fSign f neg + ex.toNat <<< f.mw + (k - 2 ^ f.mw),
          (if inexact then fNX else 0) + (if tiny && inexact then fUF else 0))

/-- NV when a consumed datum is a signalling NaN (R211). -/
def fSnan : FNum → FFlags
  | .nan true => fNV
  | _ => 0

/-- OR of flag sets. -/
def fOr (a b : FFlags) : FFlags := a ||| b

/-- One term of an exact sum: a product of two data, negated or not. -/
structure FTerm where
  /-- First factor. -/
  a : FNum
  /-- Second factor. -/
  b : FNum
  /-- Whether the product is subtracted. -/
  neg : Bool := false
  deriving DecidableEq, Repr

/-- The datum 1. -/
def fOne : FNum := .fin false 1 0

/-- The exact product of a term, with NV for infinity times zero. -/
def FTerm.value (t : FTerm) : FNum × FFlags :=
  match t.a, t.b with
  | .nan s, y => (.nan false, fOr (if s then fNV else 0) (fSnan y))
  | x, .nan s => (.nan false, fOr (if s then fNV else 0) (fSnan x))
  | .inf s, .inf u => (.inf ((s != u) != t.neg), 0)
  | .inf s, .fin u m _ => if m = 0 then (.nan false, fNV) else (.inf ((s != u) != t.neg), 0)
  | .fin s m _, .inf u => if m = 0 then (.nan false, fNV) else (.inf ((s != u) != t.neg), 0)
  | .fin s m e, .fin u n g => (.fin ((s != u) != t.neg) (m * n) (e + g), 0)

/-- ±m × 2^e as an integer multiple of 2^q, for q ≤ e. -/
def fInt (q : Int) : FNum → Int
  | .fin neg m e => let k : Int := (m : Int) * 2 ^ (e - q).toNat; if neg then -k else k
  | _ => 0

/-- The exact sum of terms, rounded once to `f` (R211, R217). -/
def fSum (f : FFmt) (rm : Nat) (ts : List FTerm) : Nat × FFlags :=
  let vs := ts.map FTerm.value
  let fl := vs.foldl (fun a v => fOr a v.2) 0
  let xs := vs.map Prod.fst
  if xs.any fun x => match x with | .nan _ => true | _ => false then (fNaN f, fl)
  else
    let pinf := xs.any fun x => x = .inf false
    let ninf := xs.any fun x => x = .inf true
    if pinf && ninf then (fNaN f, fOr fl fNV)
    else if pinf then (fInf f false, fl)
    else if ninf then (fInf f true, fl)
    else
      let q := xs.foldl (fun a x => match x with | .fin _ m e => if m = 0 then a else min a e | _ => a) (2 ^ 20 : Int)
      let s := xs.foldl (fun a x => match x with | .fin _ m _ => if m = 0 then a else a + fInt q x | _ => a) (0 : Int)
      let negs := xs.map fun x => match x with | .fin n _ _ => n | .inf n => n | .nan _ => false
      if s = 0 then
        let allZero := xs.all fun x => match x with | .fin _ m _ => m == 0 | _ => false
        let neg := if allZero && negs.all id then true
          else if allZero && negs.all (!·) then false
          else rm = 2
        (fZero f neg, fl)
      else
        let (b, g) := fRound f rm (decide (s < 0)) s.natAbs q
        (b, fOr fl g)

/-- Addition. -/
def fAdd (f : FFmt) (rm a b : Nat) : Nat × FFlags :=
  fSum f rm [⟨fDecode f a, fOne, false⟩, ⟨fDecode f b, fOne, false⟩]
/-- Subtraction. -/
def fSub (f : FFmt) (rm a b : Nat) : Nat × FFlags :=
  fSum f rm [⟨fDecode f a, fOne, false⟩, ⟨fDecode f b, fOne, true⟩]
/-- Multiplication. -/
def fMul (f : FFmt) (rm a b : Nat) : Nat × FFlags :=
  fSum f rm [⟨fDecode f a, fDecode f b, false⟩]
/-- Fused ±(a × b) ± c (R211). -/
def fFma (f : FFmt) (rm : Nat) (negP negC : Bool) (a b c : Nat) : Nat × FFlags :=
  fSum f rm [⟨fDecode f a, fDecode f b, negP⟩, ⟨fDecode f c, fOne, negC⟩]

/-- Division. -/
def fDiv (f : FFmt) (rm a b : Nat) : Nat × FFlags :=
  let x := fDecode f a
  let y := fDecode f b
  match x, y with
  | .nan _, _ => (fNaN f, fOr (fSnan x) (fSnan y))
  | _, .nan _ => (fNaN f, fOr (fSnan x) (fSnan y))
  | .inf _, .inf _ => (fNaN f, fNV)
  | .inf s, .fin u _ _ => (fInf f (s != u), 0)
  | .fin s _ _, .inf u => (fZero f (s != u), 0)
  | .fin s m e, .fin u n g =>
    if n = 0 then
      if m = 0 then (fNaN f, fNV) else (fInf f (s != u), fDZ)
    else if m = 0 then (fZero f (s != u), 0)
    else
      let k := 2 * f.mw + 8
      let num := m <<< k
      fRound f rm (s != u) (num / n) (e - g - (k : Int)) (num % n != 0)

/-- The integer square root of `n`, found bit by bit from bit `k - 1` down, starting at `r`. -/
def isqrtFrom (n : Nat) : Nat → Nat → Nat
  | 0, r => r
  | k + 1, r => let c := r + 2 ^ k; if c * c ≤ n then isqrtFrom n k c else isqrtFrom n k r

/-- The integer square root. -/
def isqrt (n : Nat) : Nat := isqrtFrom n (bitLen n / 2 + 1) 0

/-- Square root. -/
def fSqrt (f : FFmt) (rm a : Nat) : Nat × FFlags :=
  match fDecode f a with
  | .nan s => (fNaN f, if s then fNV else 0)
  | .inf neg => if neg then (fNaN f, fNV) else (fInf f false, 0)
  | .fin neg m e =>
    if m = 0 then (fZero f neg, 0)
    else if neg then (fNaN f, fNV)
    else
      let k : Nat := 2 * f.mw + 8 + (if (e - ((2 * f.mw + 8 : Nat) : Int)) % 2 = 0 then 0 else 1)
      let n := m <<< k
      let r := isqrt n
      fRound f rm false r ((e - (k : Int)) / 2) (r * r != n)

/-- The four outcomes of a comparison (R206). -/
inductive FRel where
  | lt | eq | gt | un
  deriving DecidableEq, Repr

/-- Compare two data. -/
def fRel (x y : FNum) : FRel :=
  match x, y with
  | .nan _, _ => .un
  | _, .nan _ => .un
  | .inf s, .inf u => if s = u then .eq else if s then .lt else .gt
  | .inf s, .fin _ _ _ => if s then .lt else .gt
  | .fin _ _ _, .inf u => if u then .gt else .lt
  | .fin s m e, .fin u n g =>
    let q := min e g
    let a := fInt q (.fin s m e)
    let b := fInt q (.fin u n g)
    if a < b then .lt else if a = b then .eq else .gt

/-- FCMP: NV only for a signalling NaN (R211). -/
def fCmp (f : FFmt) (a b : Nat) : FRel × FFlags :=
  let x := fDecode f a
  let y := fDecode f b
  (fRel x y, fOr (fSnan x) (fSnan y))

/-- Whether `x` comes before `y` for minimum, with −0 below +0 (R212). -/
def fBefore (x y : FNum) : Bool :=
  match fRel x y with
  | .lt => true
  | .eq => (match x, y with | .fin true _ _, .fin false _ _ => true | _, _ => false)
  | _ => false

/-- minimum and maximum (`number` false), minimumNumber and maximumNumber (`number` true) (R212). -/
def fMinMax (f : FFmt) (isMax number : Bool) (a b : Nat) : Nat × FFlags :=
  let x := fDecode f a
  let y := fDecode f b
  let fl := fOr (fSnan x) (fSnan y)
  match x, y with
  | .nan _, .nan _ => (fNaN f, fl)
  | .nan _, _ => (if number then b else fNaN f, fl)
  | _, .nan _ => (if number then a else fNaN f, fl)
  | _, _ =>
    let takeA := if isMax then fBefore y x else fBefore x y
    (if takeA then a else b, fl)

/-- FABS and FNEG: a NaN gives the canonical NaN (R211). -/
def fSignOp (f : FFmt) (negate : Bool) (a : Nat) : Nat × FFlags :=
  match fDecode f a with
  | .nan s => (fNaN f, if s then fNV else 0)
  | _ =>
    let mag := a % 2 ^ (f.ew + f.mw)
    let neg := if negate then !a.testBit (f.ew + f.mw) else false
    (fSign f neg + mag, 0)

/-- Conversion between formats (R213). -/
def fConv (s d : FFmt) (rm a : Nat) : Nat × FFlags :=
  match fDecode s a with
  | .nan sg => (fNaN d, if sg then fNV else 0)
  | .inf neg => (fInf d neg, 0)
  | .fin neg m e => fRound d rm neg m e

/-- Round to an integer: magnitude and whether the value changed. -/
def fIntegral (rm : Nat) (neg : Bool) (m : Nat) (e : Int) : Nat × Bool := roundAt rm neg m e 0 false

/-- FRINT: an integral value in the same format; NX when the value changes (R213). -/
def fRint (f : FFmt) (rm a : Nat) : Nat × FFlags :=
  match fDecode f a with
  | .nan s => (fNaN f, if s then fNV else 0)
  | .inf neg => (fInf f neg, 0)
  | .fin neg m e =>
    if 0 ≤ e then (a, 0)
    else
      let (k, nx) := fIntegral rm neg m e
      let (b, _) := fRound f rm neg k 0
      (b, if nx then fNX else 0)

/-- FCVT.IF: a lane to an integer of `w` bits; NaN gives 0, an out-of-range value saturates, both raise NV (R213). -/
def fToInt (f : FFmt) (rm : Nat) (unsigned : Bool) (w a : Nat) : Nat × FFlags :=
  let lo : Int := if unsigned then 0 else -(2 ^ (w - 1) : Nat)
  let hi : Int := if unsigned then (2 ^ w : Nat) - 1 else (2 ^ (w - 1) : Nat) - 1
  let enc (x : Int) : Nat := (x % (2 ^ w : Nat)).toNat
  match fDecode f a with
  | .nan _ => (0, fNV)
  | .inf neg => (enc (if neg then lo else hi), fNV)
  | .fin neg m e =>
    let (k, nx) := fIntegral rm neg m e
    let x : Int := if neg then -(k : Int) else k
    if x < lo then (enc lo, fNV)
    else if hi < x then (enc hi, fNV)
    else (enc x, if nx then fNX else 0)

/-- FCVT.FI: an integer of `w` bits to a lane (R213). -/
def fOfInt (f : FFmt) (rm : Nat) (unsigned : Bool) (w a : Nat) : Nat × FFlags :=
  let x : Int := if unsigned then ((a % 2 ^ w : Nat) : Int) else sext w a
  fRound f rm (decide (x < 0)) x.natAbs 0

end Sys2Proof
end

