-- ==== Sys2Proof/Machine/Flags.lean ====
section
/-! DEFINITION. Integer results with their flags, and the conditions (R206, R207, R210). -/

namespace Sys2Proof.Machine

open Sys2Proof

/-- The flags of PSW (R191). -/
structure NZCV where
  /-- Negative. -/
  n : Bool
  /-- Zero. -/
  z : Bool
  /-- Carry, or borrow of a subtraction. -/
  c : Bool
  /-- Overflow. -/
  v : Bool
  deriving DecidableEq, Repr

/-- The flags that a PSW holds. -/
def NZCV.of (psw : Word) : NZCV := ⟨psw.getLsbD 31, psw.getLsbD 30, psw.getLsbD 29, psw.getLsbD 28⟩

/-- A PSW with these flags. -/
def NZCV.into (f : NZCV) (psw : Word) : Word := setBits psw 31 28 (b2n f.n * 8 + b2n f.z * 4 + b2n f.c * 2 + b2n f.v)

/-- A result with its flags. -/
abbrev Res := Word × NZCV

/-- ADD, ADC and CMPA: a + b + carry (R206). -/
def addR (a b : Word) (cin : Bool) : Res :=
  let r := a + b + BitVec.ofNat 64 (b2n cin)
  (r, ⟨r.msb, decide (r = 0), decide (2 ^ 64 ≤ a.toNat + b.toNat + b2n cin), a.msb == b.msb && r.msb != a.msb⟩)

/-- SUB, SBC, CMP and CMPI: a - b - borrow; C is 1 when a borrow occurs (R206). -/
def subR (a b : Word) (bin : Bool) : Res :=
  let r := a - b - BitVec.ofNat 64 (b2n bin)
  (r, ⟨r.msb, decide (r = 0), decide (a.toNat < b.toNat + b2n bin), a.msb != b.msb && r.msb != a.msb⟩)

/-- Logic: N and Z from the result, C unchanged, V 0 (R206). -/
def logicR (old : NZCV) (r : Word) : Res := (r, ⟨r.msb, decide (r = 0), old.c, false⟩)

/-- Shift kinds. -/
inductive Shift where
  | sll | srl | sra | ror
  deriving DecidableEq, Repr

/-- A shift or rotate by `s` below 64: C is the last bit shifted out, unchanged for amount 0 (R206, R210). -/
def shiftR (k : Shift) (old : NZCV) (a : Word) (s : Nat) : Res :=
  let r := match k with
    | .sll => a <<< s
    | .srl => a >>> s
    | .sra => a.sshiftRight s
    | .ror => a.rotateRight s
  let out := match k with
    | .sll => a.getLsbD (64 - s)
    | _ => a.getLsbD (s - 1)
  (r, ⟨r.msb, decide (r = 0), if s = 0 then old.c else out, false⟩)

/-- MUL: the low 64 bits; C and V tell whether the unsigned and the signed product fit (R206). -/
def mulR (a b : Word) : Res :=
  let r := a * b
  (r, ⟨r.msb, decide (r = 0), decide (2 ^ 64 ≤ a.toNat * b.toNat), decide (r.toInt ≠ a.toInt * b.toInt)⟩)

/-- MULHS and MULHU: the high 64 bits of the 128-bit product (R210). -/
def mulHigh (signed : Bool) (a b : Word) : Word :=
  if signed then BitVec.ofInt 64 (a.toInt * b.toInt / 2 ^ 64) else BitVec.ofNat 64 (a.toNat * b.toNat / 2 ^ 64)

/-- A division of `n`-bit operands (R210): the quotient truncates toward zero, the remainder takes the sign of the dividend; a zero divisor gives
all ones and the dividend, and MIN / -1 gives MIN and 0. V marks the two edge cases. -/
def divR (signed rem narrow : Bool) (a b : Word) : Res :=
  let n := if narrow then 32 else 64
  let ua := a.toNat % 2 ^ n
  let ub := b.toNat % 2 ^ n
  let sa := sext n ua
  let sb := sext n ub
  let edge := ub = 0 || (signed && decide (sa = -(2 ^ (n - 1) : Nat)) && decide (sb = -1))
  let x : Int :=
    if ub = 0 then (if rem then sa else -1)
    else if signed then (if rem then sa.tmod sb else sa.tdiv sb)
    else ((if rem then ua % ub else ua / ub : Nat) : Int)
  let r := ofInt (sext n (x % 2 ^ n).toNat)
  (r, ⟨r.msb, decide (r = 0), false, edge⟩)

/-- Signed or unsigned minimum or maximum. -/
def minMaxR (signed takeMax : Bool) (a b : Word) : Word :=
  let lt := if signed then a.slt b else a.ult b
  if lt = takeMax then b else a

/-- Leading zeros. -/
def clz (a : Word) : Nat := if a = 0 then 64 else 63 - Nat.log2 a.toNat

/-- Trailing zeros. -/
def ctz (a : Word) : Nat := ((List.range 64).find? fun i => a.getLsbD i).getD 64

/-- Bits in reverse order. -/
def brev64 (a : Word) : Word := BitVec.ofNat 64 (revBits 64 a.toNat)

/-- Bytes in reverse order. -/
def bswap (a : Word) : Word := BitVec.ofNat 64 (ofBE (leBytes 8 a.toNat))

/-- The conditions of R207; 15 is reserved. -/
def condHolds (f : NZCV) : Nat → Bool
  | 0 => true
  | 1 => f.z
  | 2 => !f.z
  | 3 => f.c
  | 4 => !f.c
  | 5 => f.c || f.z
  | 6 => !f.c && !f.z
  | 7 => f.n != f.v
  | 8 => f.n == f.v
  | 9 => f.z || f.n != f.v
  | 10 => !f.z && f.n == f.v
  | 11 => f.n
  | 12 => !f.n
  | 13 => f.v
  | 14 => !f.v
  | _ => false

end Sys2Proof.Machine
end

