-- ==== Sys2Proof/Machine/Operands.lean ====
section
/-! DEFINITION. What surrounds one TSH-3 instruction, and its operand forms: tag checks, addresses through handles and virtual addresses, and
the pieces of an access (R188, R190, R192, R195 to R205, R218, R231, R232, R238, R247, R256, R257, R425, R434). -/

namespace Sys2Proof.Machine

open Sys2Proof

/-- How an instruction ends that raises nothing. -/
inductive Flow where
  /-- On to the next instruction. -/
  | seq
  /-- A taken branch or jump. -/
  | jump (a : Nat)
  /-- A group M instruction stopped at a safe point; its progress is in its registers (R220). -/
  | stay
  /-- The segment has ended (SRET). -/
  | gone
  deriving DecidableEq, Repr

/-- What an instruction does once it is fetched and legal: the state, and the exception it raises or how it ends. -/
abbrev Body := W → W × Except Trap Flow

/-- The instruction goes on to the next one. -/
def done (w : W) : W × Except Trap Flow := (w, .ok .seq)

/-- The instruction raises an exception. -/
def raise (w : W) (t : Trap) : W × Except Trap Flow := (w, .error t)

/-! ### Groups (R188) -/

/-- The groups of TSH-3; `S0` is the part of group S that only world 0x0000 may execute. -/
inductive Group where
  | B | A | S | S0 | M | V | K
  deriving DecidableEq, Repr

/-- Whether a core's profile holds a group, for the acting world. -/
def groupOk (c : CoreId) (world : Nat) (g : Group) : Bool :=
  match c, g with
  | _, .B => true
  | .crn _, .S0 => decide (world = 0)
  | .crn _, .V => false
  | .crn _, .K => false
  | .crn _, _ => true
  | .flo _, .V => true
  | .flo _, .K => true
  | .flo _, _ => false

/-! ### Around an instruction (R190, R218, R238, R256, R425) -/

/-- Count a retired instruction: FIX1, events 0x010 and 0x011, and the world's retired slots (R413, R415, R419). -/
def W.countRetired (w : W) (c : CoreId) (world : Nat) : W :=
  let w := match c with
    | .crn p => w.pmuBump .PMU_CRNFIX (p * 3 + 1) 1
    | .flo n => w.pmuBump .PMU_FLOFIX (n * 3 + 1) 1
  ((w.coreEvent c 0x010 1 world).coreEvent c 0x011 1 world).pmuWorld world fun p =>
    if p.alloc = 2 then { p with cnt := p.cnt.mapIdx fun j k => if j = 0 then (k + 1) % 2 ^ 48 else k } else p

/-- A core that has lost its reservation no longer defers snoops: those it held off are answered (R299). -/
def W.answerHeld (w : W) (c : CoreId) : W :=
  if (w.core c).resv.isSome then w
  else
    let mine := w.dev.coh.deferred.filter fun d => d.2 = coreKey c
    mine.foldl (fun (w : W) (d : Nat × Nat) =>
      ((w.modCoh fun q => { q with deferred := q.deferred.erase d }).snoopInv (coreL2 c) d.1).dirForget (coreL2 c) d.1) w

/-- The instruction raised an exception: entry on a Cornice core, the end of the segment on a Floe core (R218, R238, R152). `next` is the PC of
the next instruction, which SVC and BRK save (R239). -/
def W.trap (w : W) (c : CoreId) (pc next info : Nat) (t : Trap) : W :=
  match c with
  | .crn p => w.enter p (if t.code = 0xA || t.code = 0xB then next else pc) t.code t info
  | .flo n => (w.note (coreSrc c) t.note).floeFault n (floSub t.code)

/-- The checkpoint due at a boundary: the interval, a full output buffer or a full undo log (R256). -/
def W.intervalCkpt (w : W) (c : CoreId) : W :=
  match c with
  | .flo _ => w
  | .crn _ =>
    let x := w.core c
    if w.get F.CRN_CKCTL_INTERVAL ≤ x.since || 16 ≤ x.outLines.length || 16 ≤ x.undo.length then w.checkpoint c else w

/-- An instruction retires: the PC moves, it is counted, and the boundary after it is reached. -/
def W.retire (w : W) (c : CoreId) (world next : Nat) (f : Flow) : W :=
  let go (w : W) (a : Nat) : W :=
    ((((w.modCore c fun x => { x with pc := BitVec.ofNat 64 a, since := x.since + 1 }).countRetired c world).intervalCkpt c).boundary c)
  match f with
  | .seq => go w next
  | .jump a => go w a
  | .stay => w.boundary c
  | .gone => w.countRetired c world

/-- Byte 4 of a long instruction, at which no instruction begins (R192). -/
def W.midLong (w : W) (c : CoreId) (pc : Nat) : Bool := decide (pc % 8 = 4) && decide (nbits (w.fetchWordAt c (pc - 4)) 31 26 = 0x3F)

/-- The instruction that a core finds at its PC, none where the word is ILLEGAL: an all-zero one, another MAJ, a reserved value or a nonzero field marked
0, byte 4 of a long instruction, or a long one at byte 4 (R192 to R195, R219). -/
def W.atPc (w : W) (c : CoreId) : Option Instr :=
  let pc := (w.core c).pc.toNat
  let half := if pc % 8 = 0 then w.fetchWordAt c (pc + 4) else 0
  match decodeTsh c (w.fetchWord c + half * 2 ^ 32) with
  | none => none
  | some i => if w.midLong c pc || (isLong i && decide (pc % 8 ≠ 0)) then none else some i

/-- The enabled breakpoint at which a core halts before its next instruction, if one does: its logical index and its own (R434). -/
def W.stopAt (w : W) (c : CoreId) : Option (Nat × Nat) :=
  match c with | .crn p => (w.bpHit p).map fun l => (l, p) | .flo _ => none

/-- The instruction issues: a breakpoint that a resume passed over hits again from here on. -/
def W.issue (w : W) (c : CoreId) : W :=
  match c with
  | .crn p => (match w.logCore p with | some l => w.modDbg fun d => { d with passBp := d.passBp.filter fun k => k ≠ l } | none => w)
  | .flo _ => w

/-- Whether an instruction may execute where it was fetched: in the profile of the core and its world, and no reserved encoding (R188, R195). -/
def W.legal (w : W) (c : CoreId) (i : Instr) (g : Group) : Bool :=
  decide ((w.core c).pc.toNat % 4 = 0) && groupOk c (w.core c).cworld g && tshOk i

/-- The address of the instruction after the one at a core's PC. -/
def Core.nextPc (x : Core) (i : Instr) : Nat := x.pc.toNat + (if isLong i then 8 else 4)

/-- One instruction of a core: breakpoint, fetch, decoding, legality, and its effect or its exception. The command `i` is an instruction that the core
executes: where the core does not execute, or its code holds another instruction at the PC, nothing happens (assumption 15). -/
def W.run (w : W) (c : CoreId) (i : Instr) (g : Group) (body : Body) : W :=
  let x := w.core c
  if !x.runs then w
  else match w.stopAt c with
    | some (l, p) => w.haltNow l p
    | none =>
      let pc := x.pc.toNat
      let next := x.nextPc i
      let info := (w.issue c).fetchWord c
      let (v, ft) := (w.issue c).fetch c
      match ft with
      | some t => (v.trap c pc next info t).answerHeld c
      | none => match w.atPc c with
        | none => (v.trap c pc next info { code := 1 }).answerHeld c
        | some j =>
          if j ≠ i then w
          else if !v.legal c i g then (v.trap c pc next info { code := 1 }).answerHeld c
          else match body v with
            | (v, .error t) => (v.trap c pc next info t).answerHeld c
            | (v, .ok f) => (v.retire c x.cworld next f).answerHeld c

/-! ### Operand tags (R197, R198) -/

/-- The exception that operands raise: POISON before TAG (R218); `ok` says which tags are accepted. -/
def tagTrap (xs : List (TWord × (Tag → Bool))) : Option Trap :=
  if xs.any fun x => x.1.tag = tPOISON then some { code := 2 }
  else if xs.any fun x => !x.2 x.1.tag then some { code := 3 }
  else none

/-- INT only. -/
def isInt (t : Tag) : Bool := t = tINT

/-- INT or RAW. -/
def isIntRaw (t : Tag) : Bool := t = tINT || t = tRAW

/-- Any tag. -/
def isAny (_ : Tag) : Bool := true

/-- RAW or a numeric tag: the set of RETAG (R197). -/
def isNum (t : Tag) : Bool := decide (t.toNat < 6)

/-- Check operands, then go on. -/
def withTags (xs : List (TWord × (Tag → Bool))) (k : Body) : Body := fun w =>
  match tagTrap xs with
  | some t => raise w t
  | none => k w

/-! ### Pieces of an access (R202, R204, R205, R231, R232) -/

/-- A part of an access that lies on one 64-byte line: where, its first byte within the access, and its length. -/
structure Piece where
  /-- Where it lies. -/
  spot : Spot
  /-- Its first byte within the access. -/
  first : Nat
  /-- Bytes. -/
  n : Nat
  /-- Whether a D-L1 miss of it trains the prefetcher: on a Floe core, only through the WORK handle (R269). -/
  train : Bool
  deriving DecidableEq, Repr

/-- Split `n` bytes at `a` where they cross a 64-byte line: start within the access, and length. -/
def splitLine (a n : Nat) : List (Nat × Nat) :=
  let k := 64 - a % 64
  if n ≤ k then [(0, n)] else [(0, k), (k, n - k)]

/-- A core's entry for a handle index: the loader's window, its handle cache, or the table (R200, R203, R249). -/
def W.hentry (w : W) (c : CoreId) (idx : Nat) : W × HEntry :=
  if isWindow idx then (w, w.hread idx)
  else match List.find? (fun (h : Nat × HEntry) => decide (h.1 = idx)) (w.core c).hcache with
    | some h => (w, h.2)
    | none =>
      let e := w.hread idx
      let w := (w.coreEvent c 0x024 1 (w.core c).cworld).detLoss c 0
      (w.modCore c fun x => { x with hcache := ((idx, e) :: x.hcache).take 32 }, e)

/-- Index and offset of a handle word (R200). -/
def hIndex (v : Word) : Nat := bits v 63 40

/-- Offset of a handle word. -/
def hOffset (v : Word) : Nat := bits v 39 0

/-- A handle word with another offset. -/
def hWith (v : Word) (off : Nat) : Word := setBits v 39 0 (off % 2 ^ 40)

/-- Whether a base is accepted: HND, and on a Cornice core INT (R197). -/
def isBase (c : CoreId) (t : Tag) : Bool :=
  t = tHND || (match c with | .crn _ => t = tINT | .flo _ => false)

/-- The virtual address of an access with an INT base (R204). -/
def vaOf (base : Word) (delta : Int) : Nat := (base + BitVec.ofInt 64 delta).toNat

/-- Resolve pieces in order, the lower first: `one` finds where a piece lies and `chk` checks what lies there. A failure of the upper one sets HALF2
(R231). -/
def resolvePieces (train : Bool) (one : W → Nat → Nat → W × Except Trap Spot) (chk : W → Piece → W × Option Trap) :
    W → Bool → List (Nat × Nat) → W × Except Trap (List Piece)
  | w, _, [] => (w, .ok [])
  | w, upper, (a, n) :: t =>
    match one w a n with
    | (w, .error e) => (w, .error { e with half2 := upper })
    | (w, .ok s) => match chk w ⟨s, a, n, train⟩ with
      | (w, some e) => (w, .error { e with half2 := upper })
      | (w, none) => match resolvePieces train one chk w true t with
        | (w, .error e) => (w, .error e)
        | (w, .ok ps) => (w, .ok (⟨s, a, n, train⟩ :: ps))

/-- Resolve an access of `size` bytes at a base and displacement: every check of R202 to R205, R222 and R173, with the check `chk` of what a piece
meets, and nothing moved. `nodev`: DEVICE memory is refused. -/
def W.resolveWith (w : W) (c : CoreId) (base : TWord) (delta : Int) (size : Nat) (acc : Acc3) (nodev : Bool) (chk : W → Piece → W × Option Trap) :
    W × Except Trap (List Piece) :=
  let world := (w.core c).cworld
  let nodev := nodev || (match c with | .crn _ => false | .flo _ => true)
  if base.tag = tHND then
    let (w, e) := w.hentry c (hIndex base.val)
    match e.access world (hOffset base.val) delta size (acc = .wr) with
    | .error (.rights, o) => (w, .error { code := 6, faddr := o })
    | .error (.bounds, o) => (w, .error { code := 7, faddr := o })
    | .ok p => match e.chain with
      | some ch => (w, .ok [⟨.win ch p, 0, size, false⟩])
      | none =>
        let pa := e.base + p
        let own := match c, w.pkind pa with | .crn q, .tcm p _ => decide (p = q) | _, _ => false
        let w := if own then w else w.detLoss c 0
        let train := match c with | .crn _ => true | .flo n => decide (hIndex base.val = 0xFFF002 + 4 * n)
        resolvePieces train (fun w a n =>
          match w.physSpot (w.coreWho c world) acc (pa + a) 0 (pa % size) nodev 0 with
          | .error t => (w, .error t)
          | .ok s => if w.rangeOk (w.coreWho c world) acc (pa + a) n then (w, .ok s) else (w, .error { code := 9, note := .phys (w.coreWho c world) (pa + a) }))
          chk w false (splitLine pa size)
  else
    let va := vaOf base.val delta
    if 2 ^ 48 ≤ va || 2 ^ 48 < va + size then (w, .error { code := 8, faddr := va })
    else if va < tcmWin && tcmWin < va + size then (w, .error { code := 5, faddr := va })
    else resolvePieces true (fun w a n => w.vaSpot c world acc (va + a) n (va % size) nodev) chk w false (splitLine va size)

/-- Resolve an access with no check of what it meets. -/
def W.resolve (w : W) (c : CoreId) (base : TWord) (delta : Int) (size : Nat) (acc : Acc3) (nodev : Bool) : W × Except Trap (List Piece) :=
  w.resolveWith c base delta size acc nodev fun w _ => (w, none)

/-- The address whose alignment counts, as far as it is known before the checks: a virtual address, or the physical address or window offset
that a valid entry gives. -/
def W.peek (w : W) (c : CoreId) (base : TWord) (delta : Int) : Option Nat :=
  if base.tag = tHND then
    let idx := hIndex base.val
    let e := match List.find? (fun (h : Nat × HEntry) => !isWindow idx && decide (h.1 = idx)) (w.core c).hcache with | some h => h.2 | none => w.hread idx
    if e.valid then some (e.base + e.place (e.wrap (hOffset base.val) delta)) else none
  else some (vaOf base.val delta)

/-- The base register after a post-increment by `inc` (R202, R204). -/
def W.postInc (w : W) (c : CoreId) (r : Nat) (base : TWord) (inc : Int) : W :=
  if base.tag = tHND then
    let (w, e) := w.hentry c (hIndex base.val)
    w.setG c r { base with val := hWith base.val (e.wrap (hOffset base.val) inc) }
  else w.setG c r { base with val := BitVec.ofNat 64 (vaOf base.val inc) }

/-! ### Loads -/

/-- A byte of a window: its Névé buffer and offset in it (R147). -/
def winByte (ch : List Nat) (off : Nat) : Nat × Nat := (ch.getD (off / 4096) 0, off % 4096)

/-- The tag of a window's word: RAW, or POISON where a poisoned payload was written (R149, R196). -/
def W.winTag (w : W) (ch : List Nat) (off : Nat) : Tag :=
  let (b, o) := winByte ch off
  if w.dev.neve.bad.contains (b * 512 + o / 8) && !w.isHeld b then tPOISON else tRAW

/-- Whether a load must wait for a checkpoint: it overlaps held stores, but not all the bytes of its pieces are held (R228, R256). -/
def Core.partHeld (x : Core) (ps : List Piece) : Bool :=
  let held (a : Nat) : Bool := x.out.any fun h => decide (h.addr ≤ a) && decide (a < h.addr + h.data.length)
  let bs := ps.flatMap fun p => match p.spot with | .mem pa _ => (upto pa p.n).map held | _ => []
  bs.any id && !bs.all id

/-- A reserved tag that memory delivers is recorded (R198, assumption 50). -/
def W.tagNote (w : W) (c : CoreId) (pa n : Nat) : W :=
  (upto (pa / 8) ((pa + n - 1) / 8 + 1 - pa / 8)).foldl (fun (w : W) (wi : Nat) =>
    if tReserved (w.tagOf wi) then
      let cls := match w.pkind (wi * 8) with | .hbm => 0x30 | _ => 0x31
      w.report { cls := cls, level := 0, src := (w.memUnit (wi * 8)).getD (coreSrc c), detail := wi * 8 }
    else w) w

/-- Read one piece that is not DEVICE: its bytes and the tags of the words it touches. -/
def W.readPiece (w : W) (c : CoreId) (pc : Nat) (p : Piece) : W × List Byte × List Tag :=
  let words (w : W) (a : Nat) : List Byte × List Tag :=
    (w.bytes a p.n, (upto (a / 8) ((a + p.n - 1) / 8 + 1 - a / 8)).map fun wi => (w.rdWord wi).tag)
  match p.spot with
  | .tcm off => (match c with | .crn q => (w, words w (tcmAddr q off)) | .flo _ => (w, [], []))
  | .win ch off =>
    (w.peekNote (coreSrc c) (w.core c).cworld off ((upto off p.n).map fun o => (winByte ch o).1),
     (upto off p.n).map (fun o => ((w.shownBuf (winByte ch o).1).getD (winByte ch o).2 0)), (upto (off / 8) ((off + p.n - 1) / 8 + 1 - off / 8)).map fun k => w.winTag ch (k * 8))
  | .mem pa mt =>
    let w := match mt with
      | 0 => w.coreTouch c (w.coreWho c (w.core c).cworld) pc pa false p.train
      | 1 => (w.cxlNote pa).rdNC (lineOf pa) false
      | _ => w.cxlNote pa
    let w := w.tagNote c pa p.n
    (w, words (w.view c (lineOf pa) (mt ≠ 0)) pa)

/-- Whether an access reaches the device register space or other DEVICE memory. -/
def isDevice (ps : List Piece) : Bool :=
  ps.any fun p => match p.spot with | .mem _ mt => mt = 2 | _ => false

/-- Read the pieces of an access in order, which hold no store in part. -/
def W.readPieces (w : W) (c : CoreId) (pc : Nat) : List Piece → W × List Byte × List Tag
  | [] => (w, [], [])
  | p :: t =>
    let (w, b, g) := w.readPiece c pc p
    let (w, b', g') := w.readPieces c pc t
    (w, b ++ b', g ++ g')

/-- Read the pieces of an access, after a checkpoint where they overlap held stores in part (R228, R256). -/
def W.readAll (w : W) (c : CoreId) (pc : Nat) (ps : List Piece) : W × List Byte × List Tag :=
  (if (w.core c).partHeld ps then w.checkpoint c else w).readPieces c pc ps

/-- The address within its space whose low bits give the alignment of a piece. -/
def Piece.addr (p : Piece) : Nat := match p.spot with | .mem pa _ => pa | .tcm off => off | .win _ off => off

/-- The tags of the words that a piece of memory or TCM touches, as the core finds them. -/
def W.pieceTags (w : W) (c : CoreId) (p : Piece) : List Tag :=
  let tags (w : W) (a : Nat) : List Tag := (upto (a / 8) ((a + p.n - 1) / 8 + 1 - a / 8)).map fun wi => (w.rdWord wi).tag
  match p.spot with
  | .tcm off => (match c with | .crn q => tags w (tcmAddr q off) | .flo _ => [])
  | .mem pa mt => tags (w.view c (lineOf pa) (mt ≠ 0)) pa
  | .win _ _ => []

/-- The check of a load's piece that is no whole aligned word: no word it touches holds POISON, HND or CODE (R198, R231). A device access has no
tags. -/
def loadChk (c : CoreId) (size : Nat) (w : W) (p : Piece) : W × Option Trap :=
  let dev := match p.spot with | .mem _ mt => decide (mt = 2) | _ => false
  let ts := w.pieceTags c p
  let noted (w : W) : W := match p.spot with | .mem pa _ => w.tagNote c pa p.n | _ => w
  if dev || (size = 8 && p.n = 8 && decide (p.addr % 8 = 0)) then (w, none)
  else if ts.contains tPOISON then (noted w, some { code := 2 })
  else if ts.contains tHND || ts.contains tCODE then (noted w, some { code := 3 })
  else (w, none)

/-- A load of `size` bytes whose pieces are resolved (R198, R309): a whole aligned word keeps its tag, 8 unaligned bytes give RAW, fewer give
INT. -/
def W.loadPieces (w : W) (c : CoreId) (pc size : Nat) (sx : Bool) (ps : List Piece) : W × Except Trap TWord :=
  let narrow (v : Nat) : TWord := ⟨tINT, if sx then ofInt (sext (8 * size) v) else BitVec.ofNat 64 v⟩
  match ps with
  | [⟨.mem pa 2, _, _, _⟩] =>
    let w := w.checkpoint c
    match w.pkind pa with
    | .dev off =>
      let (v, _, w) := w.devRead (w.coreWho c (w.core c).cworld) off size false
      if size = 8 then
        -- the spec gives device registers no tags: the tag is a free value (assumption 51)
        let (t, w) := w.fresh
        (w, .ok ⟨t.setWidth 4, BitVec.ofNat 64 v⟩)
      else (w, .ok (narrow v))
    | _ =>
      let (w, bs, ts) := w.readPiece c pc ⟨.mem pa 2, 0, size, false⟩
      if size < 8 && ts.contains tPOISON then (w, .error { code := 2 })
      else if size < 8 && (ts.contains tHND || ts.contains tCODE) then (w, .error { code := 3 })
      else (w, .ok (if size = 8 then ⟨ts.headD 0, BitVec.ofNat 64 (ofLE bs)⟩ else narrow (ofLE bs)))
  | _ =>
    let (w, bs, ts) := w.readAll c pc ps
    let whole := size = 8 && (match ps with | [p] => decide (p.addr % 8 = 0) | _ => false)
    if whole then (w, .ok ⟨ts.headD 0, BitVec.ofNat 64 (ofLE bs)⟩)
    else if ts.contains tPOISON then (w, .error { code := 2 })
    else if ts.contains tHND || ts.contains tCODE then (w, .error { code := 3 })
    else (w, .ok (if size = 8 then ⟨tRAW, BitVec.ofNat 64 (ofLE bs)⟩ else narrow (ofLE bs)))

/-- A checkpoint after a DEVICE access, atomic or SC, taken once the instruction has retired: the interval is forced to end (R256). -/
def W.ckptAfter (w : W) (c : CoreId) : W := w.modCore c fun x => { x with since := 255 }

/-! ### Stores -/

/-- Whether a store acts for a tenant: any world but 0x0000, and every Floe kernel (R149, R199). -/
def W.tenantStore (w : W) (c : CoreId) : Bool :=
  match c with | .crn _ => (w.core c).cworld ≠ 0 | .flo _ => true

/-- The exception that store data raises by its tag (R149, R197 to R199); `whole`: an aligned 8-byte store. -/
def storeTrap (tenant whole : Bool) (t : Tag) : Option Trap :=
  if t = tPOISON && (tenant || !whole) then some { code := 2 }
  else if (t = tHND || t = tCODE) && !whole then some { code := 3 }
  else if (t = tHND || t = tCODE) && tenant then some { code := 4 }
  else none

/-- Whether a piece would overwrite a word tagged HND or CODE. -/
def W.overwrites (w : W) (c : CoreId) (p : Piece) : Bool :=
  let bad (w : W) (a : Nat) : Bool :=
    (upto (a / 8) ((a + p.n - 1) / 8 + 1 - a / 8)).any fun wi => let t := (w.rdWord wi).tag; t = tHND || t = tCODE
  match p.spot with
  | .mem pa mt => (match w.pkind pa with | .dev _ => false | _ => bad (w.view c (lineOf pa) (mt ≠ 0)) pa)
  | .tcm off => (match c with | .crn q => bad w (tcmAddr q off) | .flo _ => false)
  | .win _ _ => false

/-- The check of a store's piece: a tenant overwrites no word tagged HND or CODE (R199, R231). -/
def storeChk (c : CoreId) (w : W) (p : Piece) : W × Option Trap := (w, if w.tenantStore c && w.overwrites c p then some { code := 4 } else none)

/-- Room for one more line in the output buffer: a checkpoint when it would exceed 16 entries (R256, R257). -/
def W.outRoom (w : W) (c : CoreId) (line : Nat) : W :=
  let ls := (w.core c).outLines
  if ls.contains line || decide (ls.length < 16) then w else w.checkpoint c

/-- Room for `n` more words in the undo log (R256, R257). -/
def W.undoRoom (w : W) (c : CoreId) (n : Nat) : W := if 16 < (w.core c).undo.length + n then w.checkpoint c else w

/-- Note the 64-byte lines of OUT that a kernel wrote (R150). -/
def W.outWritten (w : W) (n off k : Nat) : W :=
  match w.segOn n with
  | some (id, _) => w.modFlo fun f => { f with segs := Tab.modify f.segs id fun g =>
      { g with written := (upto (off / 64) ((off + k - 1) / 64 + 1 - off / 64)).foldl (fun l x => if l.contains x then l else l ++ [x]) g.written } }
  | none => w

/-- Write bytes into a window, a buffer at a time. -/
def W.winStore (w : W) (ch : List Nat) (off : Nat) (bs : List Byte) : W :=
  (upto 0 bs.length).foldl (fun (w : W) (i : Nat) =>
    let (b, o) := winByte ch (off + i)
    w.pokeBuf b o [bs.getD i 0]) w

/-- Store one piece that is not DEVICE: its bytes, and the tag that the words it touches take. -/
def W.storePiece (w : W) (c : CoreId) (pc : Nat) (bs : List Byte) (tag : Tag) (p : Piece) : W :=
  let data := (bs.drop p.first).take p.n
  let tags (a : Nat) : List (Nat × Tag) := (upto (a / 8) ((a + p.n - 1) / 8 + 1 - a / 8)).map fun wi => (wi, tag)
  match p.spot with
  | .tcm off => (w.undoRoom c ((off + p.n - 1) / 8 + 1 - off / 8)).tcmStore c off data tag
  | .win ch off => (match c with | .flo n => (w.winStore ch off data).outWritten n off p.n | .crn _ => w.winStore ch off data)
  | .mem pa mt => (w.outRoom c (lineOf pa)).holdStore c { addr := pa, data := data, tags := tags pa, world := (w.core c).cworld, pc := pc, nc := mt ≠ 0, train := p.train }

/-- A store of `size` bytes of a register whose pieces are resolved (R196, R198, R199, R309). -/
def W.storePieces (w : W) (c : CoreId) (pc size : Nat) (x : TWord) (ps : List Piece) : W × Option Trap :=
  let bs := leBytes size x.val.toNat
  let whole := size = 8 && (match ps with | [p] => decide (p.addr % 8 = 0) | _ => false)
  let tag := if whole then x.tag else tRAW
  if w.tenantStore c && ps.any fun p => w.overwrites c p then (w, some { code := 4 })
  else match ps with
    | [⟨.mem pa 2, _, _, _⟩] =>
      let w := w.checkpoint c
      (match w.pkind pa with
       | .dev off => (w.devWrite (w.coreWho c (w.core c).cworld) off size (ofLE bs)).2
       | _ => w.meshStore c { addr := pa, data := bs, tags := [(pa / 8, tag)], world := (w.core c).cworld, pc := pc, nc := true }, none)
    | _ => (ps.foldl (fun (w : W) (p : Piece) => w.storePiece c pc bs tag p) w, none)

end Sys2Proof.Machine
end

