-- ==== Sys2Proof/Machine/TshInt.lean ====
section
/-! DEFINITION. TSH-3 integer, move, immediate, handle and tag instructions (R194, R197 to R203, R206, R207, R210, R219). -/

namespace Sys2Proof.Machine

open Sys2Proof

/-- Write a result, and the flags of a form that sets them (R206). -/
def W.wr (w : W) (c : CoreId) (rd : Nat) (tag : Tag) (r : Res) (f : Bool) : W :=
  w.modCore c fun x => { (x.setG rd ⟨tag, r.1⟩) with psw := if f then r.2.into x.psw else x.psw }

/-- The flags of a core. -/
def W.flagsOf (w : W) (c : CoreId) : NZCV := NZCV.of (w.core c).psw

/-- A result that sets no flags. -/
def plainR (r : Word) : Res := (r, ⟨false, false, false, false⟩)

/-- Integer arithmetic on two registers: INT operands, INT result (R197). -/
def arith (c : CoreId) (rd ra rb : Nat) (f : Bool) (op : NZCV → Word → Word → Res) : Body := fun w =>
  let a := w.gr c ra
  let b := w.gr c rb
  withTags [(a, isInt), (b, isInt)] (fun w => done (w.wr c rd tINT (op (w.flagsOf c) a.val b.val) f)) w

/-- Integer arithmetic on one register. -/
def arith1 (c : CoreId) (rd ra : Nat) (f : Bool) (op : Word → Res) : Body := fun w =>
  let a := w.gr c ra
  withTags [(a, isInt)] (fun w => done (w.wr c rd tINT (op a.val) f)) w

/-- The result tag of logic and shifts: INT if every register operand is INT, otherwise RAW (R197). -/
def logicTag (xs : List TWord) : Tag := if xs.all fun x => x.tag = tINT then tINT else tRAW

/-- Logic and shifts on two registers: INT or RAW operands (R197). -/
def logic (c : CoreId) (rd ra rb : Nat) (f : Bool) (op : NZCV → Word → Word → Res) : Body := fun w =>
  let a := w.gr c ra
  let b := w.gr c rb
  withTags [(a, isIntRaw), (b, isIntRaw)] (fun w => done (w.wr c rd (logicTag [a, b]) (op (w.flagsOf c) a.val b.val) f)) w

/-- Logic and shifts on one register. -/
def logic1 (c : CoreId) (rd ra : Nat) (f : Bool) (op : NZCV → Word → Res) : Body := fun w =>
  let a := w.gr c ra
  withTags [(a, isIntRaw)] (fun w => done (w.wr c rd (logicTag [a]) (op (w.flagsOf c) a.val) f)) w

/-- A comparison: flags only. -/
def compare (c : CoreId) (ra rb : Nat) (op : Word → Word → Res) : Body := fun w =>
  let a := w.gr c ra
  let b := w.gr c rb
  withTags [(a, isInt), (b, isInt)] (fun w => done (w.modCore c fun x => { x with psw := (op a.val b.val).2.into x.psw })) w

/-- The sign-extended IMM16 (R194). -/
def simm (imm : Nat) : Word := ofInt (sext 16 imm)

/-- The zero-extended IMM16 (R194). -/
def zimm (imm : Nat) : Word := BitVec.ofNat 64 (imm % 2 ^ 16)

/-! ### Register operations -/

/-- ADD: ra + rb. -/
def execAdd (c : CoreId) (rd ra rb : Nat) (f : Bool) (s : State) : Host.Outcome State Fault Refusal :=
  liftNow (fun w => w.run c (.add c rd ra rb f) .B (arith c rd ra rb f fun _ a b => addR a b false)) s

/-- SUB: ra - rb. -/
def execSub (c : CoreId) (rd ra rb : Nat) (f : Bool) (s : State) : Host.Outcome State Fault Refusal :=
  liftNow (fun w => w.run c (.sub c rd ra rb f) .B (arith c rd ra rb f fun _ a b => subR a b false)) s

/-- ADC: ra + rb + C. -/
def execAdc (c : CoreId) (rd ra rb : Nat) (f : Bool) (s : State) : Host.Outcome State Fault Refusal :=
  liftNow (fun w => w.run c (.adc c rd ra rb f) .B (arith c rd ra rb f fun fl a b => addR a b fl.c)) s

/-- SBC: ra - rb - C. -/
def execSbc (c : CoreId) (rd ra rb : Nat) (f : Bool) (s : State) : Host.Outcome State Fault Refusal :=
  liftNow (fun w => w.run c (.sbc c rd ra rb f) .B (arith c rd ra rb f fun fl a b => subR a b fl.c)) s

/-- AND. -/
def execAnd (c : CoreId) (rd ra rb : Nat) (f : Bool) (s : State) : Host.Outcome State Fault Refusal :=
  liftNow (fun w => w.run c (.and c rd ra rb f) .B (logic c rd ra rb f fun fl a b => logicR fl (a &&& b))) s

/-- OR. -/
def execOr (c : CoreId) (rd ra rb : Nat) (f : Bool) (s : State) : Host.Outcome State Fault Refusal :=
  liftNow (fun w => w.run c (.or c rd ra rb f) .B (logic c rd ra rb f fun fl a b => logicR fl (a ||| b))) s

/-- XOR. -/
def execXor (c : CoreId) (rd ra rb : Nat) (f : Bool) (s : State) : Host.Outcome State Fault Refusal :=
  liftNow (fun w => w.run c (.xor c rd ra rb f) .B (logic c rd ra rb f fun fl a b => logicR fl (a ^^^ b))) s

/-- ANDN: ra and not rb. -/
def execAndn (c : CoreId) (rd ra rb : Nat) (f : Bool) (s : State) : Host.Outcome State Fault Refusal :=
  liftNow (fun w => w.run c (.andn c rd ra rb f) .B (logic c rd ra rb f fun fl a b => logicR fl (a &&& ~~~b))) s

/-- SLL: by rb[5:0]. -/
def execSll (c : CoreId) (rd ra rb : Nat) (f : Bool) (s : State) : Host.Outcome State Fault Refusal :=
  liftNow (fun w => w.run c (.sll c rd ra rb f) .B (logic c rd ra rb f fun fl a b => shiftR .sll fl a (b.toNat % 64))) s

/-- SRL: by rb[5:0]. -/
def execSrl (c : CoreId) (rd ra rb : Nat) (f : Bool) (s : State) : Host.Outcome State Fault Refusal :=
  liftNow (fun w => w.run c (.srl c rd ra rb f) .B (logic c rd ra rb f fun fl a b => shiftR .srl fl a (b.toNat % 64))) s

/-- SRA: by rb[5:0]. -/
def execSra (c : CoreId) (rd ra rb : Nat) (f : Bool) (s : State) : Host.Outcome State Fault Refusal :=
  liftNow (fun w => w.run c (.sra c rd ra rb f) .B (logic c rd ra rb f fun fl a b => shiftR .sra fl a (b.toNat % 64))) s

/-- ROR: by rb[5:0]. -/
def execRor (c : CoreId) (rd ra rb : Nat) (f : Bool) (s : State) : Host.Outcome State Fault Refusal :=
  liftNow (fun w => w.run c (.ror c rd ra rb f) .B (logic c rd ra rb f fun fl a b => shiftR .ror fl a (b.toNat % 64))) s

/-- SLLI: by the immediate. -/
def execSlli (c : CoreId) (rd ra sh : Nat) (f : Bool) (s : State) : Host.Outcome State Fault Refusal :=
  liftNow (fun w => w.run c (.slli c rd ra sh f) .B (logic1 c rd ra f fun fl a => shiftR .sll fl a sh)) s

/-- SRLI: by the immediate. -/
def execSrli (c : CoreId) (rd ra sh : Nat) (f : Bool) (s : State) : Host.Outcome State Fault Refusal :=
  liftNow (fun w => w.run c (.srli c rd ra sh f) .B (logic1 c rd ra f fun fl a => shiftR .srl fl a sh)) s

/-- SRAI: by the immediate. -/
def execSrai (c : CoreId) (rd ra sh : Nat) (f : Bool) (s : State) : Host.Outcome State Fault Refusal :=
  liftNow (fun w => w.run c (.srai c rd ra sh f) .B (logic1 c rd ra f fun fl a => shiftR .sra fl a sh)) s

/-- RORI: by the immediate. -/
def execRori (c : CoreId) (rd ra sh : Nat) (f : Bool) (s : State) : Host.Outcome State Fault Refusal :=
  liftNow (fun w => w.run c (.rori c rd ra sh f) .B (logic1 c rd ra f fun fl a => shiftR .ror fl a sh)) s

/-- MUL: the low 64 bits. -/
def execMul (c : CoreId) (rd ra rb : Nat) (f : Bool) (s : State) : Host.Outcome State Fault Refusal :=
  liftNow (fun w => w.run c (.mul c rd ra rb f) .B (arith c rd ra rb f fun _ a b => mulR a b)) s

/-- MULHS. -/
def execMulhs (c : CoreId) (rd ra rb : Nat) (s : State) : Host.Outcome State Fault Refusal :=
  liftNow (fun w => w.run c (.mulhs c rd ra rb) .B (arith c rd ra rb false fun _ a b => plainR (mulHigh true a b))) s

/-- MULHU. -/
def execMulhu (c : CoreId) (rd ra rb : Nat) (s : State) : Host.Outcome State Fault Refusal :=
  liftNow (fun w => w.run c (.mulhu c rd ra rb) .B (arith c rd ra rb false fun _ a b => plainR (mulHigh false a b))) s

/-- DIVS: flags always. -/
def execDivs (c : CoreId) (rd ra rb : Nat) (s : State) : Host.Outcome State Fault Refusal :=
  liftNow (fun w => w.run c (.divs c rd ra rb) .B (arith c rd ra rb true fun _ a b => divR true false false a b)) s

/-- DIVU: flags always. -/
def execDivu (c : CoreId) (rd ra rb : Nat) (s : State) : Host.Outcome State Fault Refusal :=
  liftNow (fun w => w.run c (.divu c rd ra rb) .B (arith c rd ra rb true fun _ a b => divR false false false a b)) s

/-- REMS: flags always. -/
def execRems (c : CoreId) (rd ra rb : Nat) (s : State) : Host.Outcome State Fault Refusal :=
  liftNow (fun w => w.run c (.rems c rd ra rb) .B (arith c rd ra rb true fun _ a b => divR true true false a b)) s

/-- REMU: flags always. -/
def execRemu (c : CoreId) (rd ra rb : Nat) (s : State) : Host.Outcome State Fault Refusal :=
  liftNow (fun w => w.run c (.remu c rd ra rb) .B (arith c rd ra rb true fun _ a b => divR false true false a b)) s

/-- DIVSW: flags always. -/
def execDivsw (c : CoreId) (rd ra rb : Nat) (s : State) : Host.Outcome State Fault Refusal :=
  liftNow (fun w => w.run c (.divsw c rd ra rb) .B (arith c rd ra rb true fun _ a b => divR true false true a b)) s

/-- DIVUW: flags always. -/
def execDivuw (c : CoreId) (rd ra rb : Nat) (s : State) : Host.Outcome State Fault Refusal :=
  liftNow (fun w => w.run c (.divuw c rd ra rb) .B (arith c rd ra rb true fun _ a b => divR false false true a b)) s

/-- REMSW: flags always. -/
def execRemsw (c : CoreId) (rd ra rb : Nat) (s : State) : Host.Outcome State Fault Refusal :=
  liftNow (fun w => w.run c (.remsw c rd ra rb) .B (arith c rd ra rb true fun _ a b => divR true true true a b)) s

/-- REMUW: flags always. -/
def execRemuw (c : CoreId) (rd ra rb : Nat) (s : State) : Host.Outcome State Fault Refusal :=
  liftNow (fun w => w.run c (.remuw c rd ra rb) .B (arith c rd ra rb true fun _ a b => divR false true true a b)) s

/-- CMP: flags of ra - rb. -/
def execCmp (c : CoreId) (ra rb : Nat) (s : State) : Host.Outcome State Fault Refusal :=
  liftNow (fun w => w.run c (.cmp c ra rb) .B (compare c ra rb fun a b => subR a b false)) s

/-- CMPA: flags of ra + rb. -/
def execCmpa (c : CoreId) (ra rb : Nat) (s : State) : Host.Outcome State Fault Refusal :=
  liftNow (fun w => w.run c (.cmpa c ra rb) .B (compare c ra rb fun a b => addR a b false)) s

/-- MINS. -/
def execMins (c : CoreId) (rd ra rb : Nat) (s : State) : Host.Outcome State Fault Refusal :=
  liftNow (fun w => w.run c (.mins c rd ra rb) .B (arith c rd ra rb false fun _ a b => plainR (minMaxR true false a b))) s

/-- MAXS. -/
def execMaxs (c : CoreId) (rd ra rb : Nat) (s : State) : Host.Outcome State Fault Refusal :=
  liftNow (fun w => w.run c (.maxs c rd ra rb) .B (arith c rd ra rb false fun _ a b => plainR (minMaxR true true a b))) s

/-- MINU. -/
def execMinu (c : CoreId) (rd ra rb : Nat) (s : State) : Host.Outcome State Fault Refusal :=
  liftNow (fun w => w.run c (.minu c rd ra rb) .B (arith c rd ra rb false fun _ a b => plainR (minMaxR false false a b))) s

/-- MAXU. -/
def execMaxu (c : CoreId) (rd ra rb : Nat) (s : State) : Host.Outcome State Fault Refusal :=
  liftNow (fun w => w.run c (.maxu c rd ra rb) .B (arith c rd ra rb false fun _ a b => plainR (minMaxR false true a b))) s

/-- MOV: the register with its tag, whatever it is (R198). -/
def execMov (c : CoreId) (rd ra : Nat) (s : State) : Host.Outcome State Fault Refusal :=
  liftNow (fun w => w.run c (.mov c rd ra) .B (fun w => done (w.setG c rd (w.gr c ra)))) s

/-- PICK: ra if the condition holds, else rb, with its tag. -/
def execPick (c : CoreId) (cond rd ra rb : Nat) (s : State) : Host.Outcome State Fault Refusal :=
  liftNow (fun w => w.run c (.pick c cond rd ra rb) .B (fun w => done (w.setG c rd (if condHolds (w.flagsOf c) cond then w.gr c ra else w.gr c rb)))) s

/-- CLZ. -/
def execClz (c : CoreId) (rd ra : Nat) (s : State) : Host.Outcome State Fault Refusal :=
  liftNow (fun w => w.run c (.clz c rd ra) .B (arith1 c rd ra false fun a => plainR (BitVec.ofNat 64 (clz a)))) s

/-- CTZ. -/
def execCtz (c : CoreId) (rd ra : Nat) (s : State) : Host.Outcome State Fault Refusal :=
  liftNow (fun w => w.run c (.ctz c rd ra) .B (arith1 c rd ra false fun a => plainR (BitVec.ofNat 64 (ctz a)))) s

/-- POPC. -/
def execPopc (c : CoreId) (rd ra : Nat) (s : State) : Host.Outcome State Fault Refusal :=
  liftNow (fun w => w.run c (.popc c rd ra) .B (arith1 c rd ra false fun a => plainR (BitVec.ofNat 64 (popcount 64 a.toNat)))) s

/-- BREV64. -/
def execBrev64 (c : CoreId) (rd ra : Nat) (s : State) : Host.Outcome State Fault Refusal :=
  liftNow (fun w => w.run c (.brev64 c rd ra) .B (logic1 c rd ra false fun _ a => plainR (brev64 a))) s

/-- BSWAP. -/
def execBswap (c : CoreId) (rd ra : Nat) (s : State) : Host.Outcome State Fault Refusal :=
  liftNow (fun w => w.run c (.bswap c rd ra) .B (logic1 c rd ra false fun _ a => plainR (bswap a))) s

/-! ### Immediate forms (R194) -/

/-- ADDI: sets no flags. -/
def execAddi (c : CoreId) (rd ra imm : Nat) (s : State) : Host.Outcome State Fault Refusal :=
  liftNow (fun w => w.run c (.addi c rd ra imm) .B (arith1 c rd ra false fun a => plainR (a + simm imm))) s

/-- ANDI: sets no flags. -/
def execAndi (c : CoreId) (rd ra imm : Nat) (s : State) : Host.Outcome State Fault Refusal :=
  liftNow (fun w => w.run c (.andi c rd ra imm) .B (logic1 c rd ra false fun _ a => plainR (a &&& zimm imm))) s

/-- ORI: sets no flags. -/
def execOri (c : CoreId) (rd ra imm : Nat) (s : State) : Host.Outcome State Fault Refusal :=
  liftNow (fun w => w.run c (.ori c rd ra imm) .B (logic1 c rd ra false fun _ a => plainR (a ||| zimm imm))) s

/-- XORI: sets no flags. -/
def execXori (c : CoreId) (rd ra imm : Nat) (s : State) : Host.Outcome State Fault Refusal :=
  liftNow (fun w => w.run c (.xori c rd ra imm) .B (logic1 c rd ra false fun _ a => plainR (a ^^^ zimm imm))) s

/-- CMPI: flags of ra - imm. -/
def execCmpi (c : CoreId) (ra imm : Nat) (s : State) : Host.Outcome State Fault Refusal :=
  liftNow (fun w => w.run c (.cmpi c ra imm) .B (fun w =>
    let a := w.gr c ra
    withTags [(a, isInt)] (fun w => done (w.modCore c fun x => { x with psw := (subR a.val (simm imm) false).2.into x.psw })) w)) s

/-- SETH. -/
def execSeth (c : CoreId) (rd hw imm : Nat) (s : State) : Host.Outcome State Fault Refusal :=
  liftNow (fun w => w.run c (.seth c rd hw imm) .B (fun w => done (w.setG c rd (int ((imm % 2 ^ 16) * 2 ^ (16 * hw)))))) s

/-- INSH: one halfword of rd. -/
def execInsh (c : CoreId) (rd hw imm : Nat) (s : State) : Host.Outcome State Fault Refusal :=
  liftNow (fun w => w.run c (.insh c rd hw imm) .B (fun w =>
    let a := w.gr c rd
    withTags [(a, isInt)] (fun w => done (w.setG c rd ⟨tINT, setBits a.val (16 * hw + 15) (16 * hw) (imm % 2 ^ 16)⟩)) w)) s

/-- LI48. -/
def execLi48 (c : CoreId) (rd imm : Nat) (s : State) : Host.Outcome State Fault Refusal :=
  liftNow (fun w => w.run c (.li48 c rd imm) .B (fun w => done (w.setG c rd ⟨tINT, ofInt (sext 48 imm)⟩))) s

/-- ORH. -/
def execOrh (c : CoreId) (rd imm : Nat) (s : State) : Host.Outcome State Fault Refusal :=
  liftNow (fun w => w.run c (.orh c rd imm) .B (fun w =>
    let a := w.gr c rd
    withTags [(a, isInt)] (fun w => done (w.setG c rd ⟨tINT, a.val ||| BitVec.ofNat 64 ((imm % 2 ^ 16) * 2 ^ 48)⟩)) w)) s

/-! ### Handles (R203) -/

/-- HND only. -/
def isHnd (t : Tag) : Bool := t = tHND

/-- A handle operation: ra is HND, the index stays, the offset changes. -/
def hndOp (c : CoreId) (rd ra : Nat) (xs : List (TWord × (Tag → Bool))) (off : Nat → Nat) : Body := fun w =>
  let a := w.gr c ra
  withTags ((a, isHnd) :: xs) (fun w => done (w.setG c rd ⟨tHND, hWith a.val (off (hOffset a.val))⟩)) w

/-- HADD: offset + rb modulo 2^40; no entry is read. -/
def execHadd (c : CoreId) (rd ra rb : Nat) (s : State) : Host.Outcome State Fault Refusal :=
  liftNow (fun w => w.run c (.hadd c rd ra rb) .B (fun w => hndOp c rd ra [(w.gr c rb, isInt)] (fun o => (o + (w.gr c rb).val.toNat) % 2 ^ 40) w)) s

/-- HADDI. -/
def execHaddi (c : CoreId) (rd ra imm : Nat) (s : State) : Host.Outcome State Fault Refusal :=
  liftNow (fun w => w.run c (.haddi c rd ra imm) .B (hndOp c rd ra [] fun o => (o + (simm imm).toNat) % 2 ^ 40)) s

/-- HSETO: offset := rb[39:0]. -/
def execHseto (c : CoreId) (rd ra rb : Nat) (s : State) : Host.Outcome State Fault Refusal :=
  liftNow (fun w => w.run c (.hseto c rd ra rb) .B (fun w => hndOp c rd ra [(w.gr c rb, isInt)] (fun _ => bits (w.gr c rb).val 39 0) w)) s

/-- HOFF. -/
def execHoff (c : CoreId) (rd ra : Nat) (s : State) : Host.Outcome State Fault Refusal :=
  liftNow (fun w => w.run c (.hoff c rd ra) .B (fun w =>
    let a := w.gr c ra
    withTags [(a, isHnd)] (fun w => done (w.setG c rd (int (hOffset a.val)))) w)) s

/-- HLEN: LENGTH of a valid entry of the acting world. -/
def execHlen (c : CoreId) (rd ra : Nat) (s : State) : Host.Outcome State Fault Refusal :=
  liftNow (fun w => w.run c (.hlen c rd ra) .B (fun w =>
    let a := w.gr c ra
    withTags [(a, isHnd)] (fun w =>
      let (w, e) := w.hentry c (hIndex a.val)
      if !e.valid || e.world ≠ (w.core c).cworld then raise w { code := 6, faddr := hOffset a.val }
      else done (w.setG c rd (int e.len))) w)) s

/-! ### Tags (R197) -/

/-- GTAG: any operand. -/
def execGtag (c : CoreId) (rd ra : Nat) (s : State) : Host.Outcome State Fault Refusal :=
  liftNow (fun w => w.run c (.gtag c rd ra) .B (fun w => done (w.setG c rd (int (w.gr c ra).tag.toNat)))) s

/-- RETAG's tags: the operand's, and the one named, from the same set; a name outside it is a reserved encoding (assumption 52). -/
def retagTo (tag : Nat) (a : TWord) (k : TWord → Body) : Body := fun w =>
  if 6 ≤ tag then raise w { code := 1 } else withTags [(a, isNum)] (k { a with tag := BitVec.ofNat 4 tag }) w

/-- RETAG. -/
def execRetag (c : CoreId) (rd ra tag : Nat) (s : State) : Host.Outcome State Fault Refusal :=
  liftNow (fun w => w.run c (.retag c rd ra tag) .B (fun w => retagTo tag (w.gr c ra) (fun x w => done (w.setG c rd x)) w)) s

end Sys2Proof.Machine
end

