-- ==== Sys2Proof/Machine/TshFloat.lean ====
section
/-! DEFINITION. Scalar floating point, lane by lane (R197, R206, R211 to R213). -/

namespace Sys2Proof.Machine

open Sys2Proof

/-! ### Formats and lanes (R193, R211) -/

/-- The format that FMT names: 1 F64, 2 F32P, 3 F16Q, 4 BF16Q. -/
def fFmt (fmt : Nat) : FFmt := if fmt = 1 then .f64 else if fmt = 2 then .f32 else if fmt = 3 then .f16 else .bf16

/-- The tag that FMT names. -/
def fTag (fmt : Nat) : Tag := BitVec.ofNat 4 (fmt + 1)

/-- Lanes of a word. -/
def fLanes (fmt : Nat) : Nat := 64 / (fFmt fmt).width

/-- Lane `j` of a word, for lanes of `n` bits. -/
def lane (n : Nat) (v : Word) (j : Nat) : Nat := v.toNat / 2 ^ (n * j) % 2 ^ n

/-- A word of lanes of `n` bits, lane 0 in the low bits, and the flags of all. -/
def packLanes (n : Nat) : List (Nat × FFlags) → Nat × FFlags
  | [] => (0, 0)
  | (x, g) :: t =>
    let (r, h) := packLanes n t
    (x % 2 ^ n + 2 ^ n * r, fOr g h)

/-- The word of `packLanes`, tagged. -/
def fWord (tag : Tag) (n : Nat) (xs : List (Nat × FFlags)) : TWord × FFlags := (⟨tag, BitVec.ofNat 64 (packLanes n xs).1⟩, (packLanes n xs).2)

/-- Whether a tag is the one named. -/
def isTag (t u : Tag) : Bool := u = t

/-- The rounding mode: the field, or FPSW.RM for DYN (R212). -/
def W.rmOf (w : W) (c : CoreId) (rm : Nat) : Nat := if rm = 7 then bits (w.core c).fpsw 10 8 else rm

/-- Write a floating-point result and merge its flags. -/
def W.putF (w : W) (c : CoreId) (rd : Nat) (r : TWord × FFlags) : W :=
  (w.setG c rd r.1).modCore c fun x => { x with fpsw := fpswMerge x.fpsw r.2 }

/-- Lane by lane on two words of a format. -/
def lanes2 (fmt : Nat) (op : FFmt → Nat → Nat → Nat × FFlags) (a b : Word) : TWord × FFlags :=
  let f := fFmt fmt
  fWord (fTag fmt) f.width ((List.range (fLanes fmt)).map fun j => op f (lane f.width a j) (lane f.width b j))

/-- Lane by lane on one word of a format. -/
def lanes1 (fmt : Nat) (op : FFmt → Nat → Nat × FFlags) (a : Word) : TWord × FFlags := lanes2 fmt (fun f x _ => op f x) a 0

/-- Lane by lane on three words of a format. -/
def lanes3 (fmt : Nat) (op : FFmt → Nat → Nat → Nat → Nat × FFlags) (a b d : Word) : TWord × FFlags :=
  let f := fFmt fmt
  fWord (fTag fmt) f.width ((List.range (fLanes fmt)).map fun j => op f (lane f.width a j) (lane f.width b j) (lane f.width d j))

/-- A two-operand instruction. -/
def float2 (c : CoreId) (fmt rm rd ra rb : Nat) (op : FFmt → Nat → Nat → Nat → Nat × FFlags) : Body := fun w =>
  let a := w.gr c ra
  let b := w.gr c rb
  withTags [(a, isTag (fTag fmt)), (b, isTag (fTag fmt))] (fun w => done (w.putF c rd (lanes2 fmt (fun f => op f (w.rmOf c rm)) a.val b.val))) w

/-- A one-operand instruction. -/
def float1 (c : CoreId) (fmt rm rd ra : Nat) (op : FFmt → Nat → Nat → Nat × FFlags) : Body := fun w =>
  let a := w.gr c ra
  withTags [(a, isTag (fTag fmt))] (fun w => done (w.putF c rd (lanes1 fmt (fun f => op f (w.rmOf c rm)) a.val))) w

/-- A fused multiply-add, rounded in FPSW.RM (R193, R211). -/
def float3 (c : CoreId) (fmt rd ra rb rc : Nat) (negP negC : Bool) : Body := fun w =>
  let a := w.gr c ra
  let b := w.gr c rb
  let d := w.gr c rc
  withTags [(a, isTag (fTag fmt)), (b, isTag (fTag fmt)), (d, isTag (fTag fmt))]
    (fun w => done (w.putF c rd (lanes3 fmt (fun f => fFma f (w.rmOf c 7) negP negC) a.val b.val d.val))) w

/-- The flags of FCMP (R206). -/
def frelFlags : FRel → NZCV
  | .lt => ⟨true, false, true, false⟩
  | .eq => ⟨false, true, false, false⟩
  | .gt => ⟨false, false, false, false⟩
  | .un => ⟨false, false, false, true⟩

/-- FCVT.FF lane by lane (R213): `sel` is bit 0 of the field RB, which picks lanes when the destination's are wider. -/
def convert (src dst rm : Nat) (a b : Word) (sel : Nat) : TWord × FFlags :=
  let s := fFmt src
  let d := fFmt dst
  let k := fLanes src
  let put (xs : List Nat) : TWord × FFlags := fWord (fTag dst) d.width (xs.map fun x => fConv s d rm x)
  let ls (v : Word) (from_ n : Nat) : List Nat := (upto from_ n).map (lane s.width v)
  if k < fLanes dst then put (ls a 0 k ++ ls b 0 k)
  else put (ls a (sel * fLanes dst % k) (fLanes dst))

/-- Whether FCVT.FF reads rb: two words go into one (R213). -/
def convertsTwo (src dst : Nat) : Bool := decide (fLanes src < fLanes dst)

/-! ### The instructions -/

/-- FADD. -/
def execFadd (c : CoreId) (fmt rm rd ra rb : Nat) (s : State) : Host.Outcome State Fault Refusal :=
  liftNow (fun w => w.run c (.fadd c fmt rm rd ra rb) .B (float2 c fmt rm rd ra rb fAdd)) s

/-- FSUB. -/
def execFsub (c : CoreId) (fmt rm rd ra rb : Nat) (s : State) : Host.Outcome State Fault Refusal :=
  liftNow (fun w => w.run c (.fsub c fmt rm rd ra rb) .B (float2 c fmt rm rd ra rb fSub)) s

/-- FMUL. -/
def execFmul (c : CoreId) (fmt rm rd ra rb : Nat) (s : State) : Host.Outcome State Fault Refusal :=
  liftNow (fun w => w.run c (.fmul c fmt rm rd ra rb) .B (float2 c fmt rm rd ra rb fMul)) s

/-- FDIV. -/
def execFdiv (c : CoreId) (fmt rm rd ra rb : Nat) (s : State) : Host.Outcome State Fault Refusal :=
  liftNow (fun w => w.run c (.fdiv c fmt rm rd ra rb) .B (float2 c fmt rm rd ra rb fDiv)) s

/-- FSQRT. -/
def execFsqrt (c : CoreId) (fmt rm rd ra : Nat) (s : State) : Host.Outcome State Fault Refusal :=
  liftNow (fun w => w.run c (.fsqrt c fmt rm rd ra) .B (float1 c fmt rm rd ra fSqrt)) s

/-- FMIN (R212). -/
def execFmin (c : CoreId) (fmt rd ra rb : Nat) (s : State) : Host.Outcome State Fault Refusal :=
  liftNow (fun w => w.run c (.fmin c fmt rd ra rb) .B (float2 c fmt 0 rd ra rb fun f _ => fMinMax f false false)) s

/-- FMAX (R212). -/
def execFmax (c : CoreId) (fmt rd ra rb : Nat) (s : State) : Host.Outcome State Fault Refusal :=
  liftNow (fun w => w.run c (.fmax c fmt rd ra rb) .B (float2 c fmt 0 rd ra rb fun f _ => fMinMax f true false)) s

/-- FMINN (R212). -/
def execFminn (c : CoreId) (fmt rd ra rb : Nat) (s : State) : Host.Outcome State Fault Refusal :=
  liftNow (fun w => w.run c (.fminn c fmt rd ra rb) .B (float2 c fmt 0 rd ra rb fun f _ => fMinMax f false true)) s

/-- FMAXN (R212). -/
def execFmaxn (c : CoreId) (fmt rd ra rb : Nat) (s : State) : Host.Outcome State Fault Refusal :=
  liftNow (fun w => w.run c (.fmaxn c fmt rd ra rb) .B (float2 c fmt 0 rd ra rb fun f _ => fMinMax f true true)) s

/-- FCMP: lane 0 only. -/
def execFcmp (c : CoreId) (fmt ra rb : Nat) (s : State) : Host.Outcome State Fault Refusal :=
  liftNow (fun w => w.run c (.fcmp c fmt ra rb) .B (fun w =>
    let a := w.gr c ra
    let b := w.gr c rb
    withTags [(a, isTag (fTag fmt)), (b, isTag (fTag fmt))] (fun w =>
      let f := fFmt fmt
      let (r, g) := fCmp f (lane f.width a.val 0) (lane f.width b.val 0)
      done (w.modCore c fun x => { x with psw := (frelFlags r).into x.psw, fpsw := fpswMerge x.fpsw g })) w)) s

/-- FCVT.FI: integers of lane width to FMT. -/
def execFcvtFi (c : CoreId) (fmt rm rd ra : Nat) (uns : Bool) (s : State) : Host.Outcome State Fault Refusal :=
  liftNow (fun w => w.run c (.fcvtFi c fmt rm rd ra uns) .B (fun w =>
    let a := w.gr c ra
    withTags [(a, isInt)] (fun w =>
      done (w.putF c rd (lanes1 fmt (fun f x => fOfInt f (w.rmOf c rm) uns f.width x) a.val))) w)) s

/-- FCVT.IF: each lane to an integer of its width. -/
def execFcvtIf (c : CoreId) (fmt rm rd ra : Nat) (uns : Bool) (s : State) : Host.Outcome State Fault Refusal :=
  liftNow (fun w => w.run c (.fcvtIf c fmt rm rd ra uns) .B (fun w =>
    let a := w.gr c ra
    withTags [(a, isTag (fTag fmt))] (fun w =>
      let r := lanes1 fmt (fun f x => fToInt f (w.rmOf c rm) uns f.width x) a.val
      done (w.putF c rd ({ r.1 with tag := tINT }, r.2))) w)) s

/-- FRINT. -/
def execFrint (c : CoreId) (fmt rm rd ra : Nat) (s : State) : Host.Outcome State Fault Refusal :=
  liftNow (fun w => w.run c (.frint c fmt rm rd ra) .B (float1 c fmt rm rd ra fRint)) s

/-- FABS. -/
def execFabs (c : CoreId) (fmt rd ra : Nat) (s : State) : Host.Outcome State Fault Refusal :=
  liftNow (fun w => w.run c (.fabs c fmt rd ra) .B (float1 c fmt 0 rd ra fun f _ => fSignOp f false)) s

/-- FNEG. -/
def execFneg (c : CoreId) (fmt rd ra : Nat) (s : State) : Host.Outcome State Fault Refusal :=
  liftNow (fun w => w.run c (.fneg c fmt rd ra) .B (float1 c fmt 0 rd ra fun f _ => fSignOp f true)) s

/-- FCVT.FF. -/
def execFcvtFf (c : CoreId) (src dst rm rd ra rb : Nat) (s : State) : Host.Outcome State Fault Refusal :=
  liftNow (fun w => w.run c (.fcvtFf c src dst rm rd ra rb) .B (fun w =>
    let a := w.gr c ra
    let b := w.gr c rb
    let t := isTag (fTag src)
    withTags ((a, t) :: (if convertsTwo src dst then [(b, t)] else [])) (fun w =>
      done (w.putF c rd (convert src dst (w.rmOf c rm) a.val b.val (rb % 2)))) w)) s

/-- FMA: ra × rb + rc. -/
def execFma (c : CoreId) (fmt rd ra rb rc : Nat) (s : State) : Host.Outcome State Fault Refusal :=
  liftNow (fun w => w.run c (.fma c fmt rd ra rb rc) .B (float3 c fmt rd ra rb rc false false)) s

/-- FMS: ra × rb - rc. -/
def execFms (c : CoreId) (fmt rd ra rb rc : Nat) (s : State) : Host.Outcome State Fault Refusal :=
  liftNow (fun w => w.run c (.fms c fmt rd ra rb rc) .B (float3 c fmt rd ra rb rc false true)) s

/-- FNMA: -(ra × rb) + rc (assumption 53). -/
def execFnma (c : CoreId) (fmt rd ra rb rc : Nat) (s : State) : Host.Outcome State Fault Refusal :=
  liftNow (fun w => w.run c (.fnma c fmt rd ra rb rc) .B (float3 c fmt rd ra rb rc true false)) s

/-- FNMS: -(ra × rb) - rc (assumption 53). -/
def execFnms (c : CoreId) (fmt rd ra rb rc : Nat) (s : State) : Host.Outcome State Fault Refusal :=
  liftNow (fun w => w.run c (.fnms c fmt rd ra rb rc) .B (float3 c fmt rd ra rb rc true true)) s

end Sys2Proof.Machine
end

