-- ==== Sys2Proof/Machine/TshMem.lean ====
section
/-! DEFINITION. Loads, stores, LR, SC and the atomics (R197 to R199, R204, R205, R209, R231, R256, R293 to R298). -/

namespace Sys2Proof.Machine

open Sys2Proof

/-! ### Loads and stores (R204) -/

/-- The operand that a MODE adds, with its tag check, the displacement of the access and the increment of the base (R204). In MODE 1 and 3 `d`
names the register RB; otherwise it is DISP11. -/
def W.memForm (w : W) (c : CoreId) (mode size d : Nat) : List (TWord × (Tag → Bool)) × Int × Int :=
  let x := w.gr c d
  match mode with
  | 0 => ([], sext 11 d * (size : Int), 0)
  | 1 => ([(x, isInt)], x.val.toInt * (size : Int), 0)
  | 2 => ([], 0, sext 11 d * (size : Int))
  | _ => ([(x, isInt)], 0, x.val.toInt * (size : Int))

/-- The exception with the smaller code of two (R218). -/
def firstTrap (a b : Option Trap) : Option Trap :=
  match a, b with
  | some x, some y => if y.code < x.code then some y else some x
  | some x, none => some x
  | none, y => y

/-- A checkpoint follows a DEVICE access (R256). -/
def W.afterMem (w : W) (c : CoreId) (ps : List Piece) : W := if isDevice ps then w.ckptAfter c else w

/-- LD. -/
def loadBody (c : CoreId) (mode : Nat) (sx : Bool) (sz rd ra d : Nat) : Body := fun w =>
  let pc := (w.core c).pc.toNat
  let base := w.gr c ra
  let size := 2 ^ sz
  let (xs, delta, inc) := w.memForm c mode size d
  match tagTrap ((base, isBase c) :: xs) with
  | some t => raise w t
  | none => match w.resolveWith c base delta size .rd false (loadChk c size) with
    | (w, .error t) => raise w t
    | (w, .ok ps) => match w.loadPieces c pc size sx ps with
      | (w, .error t) => raise w t
      | (w, .ok v) =>
        let w := w.setG c rd v
        done ((if mode < 2 then w else w.postInc c ra base inc).afterMem c ps)

/-- ST. -/
def storeBody (c : CoreId) (mode sz rs ra d : Nat) : Body := fun w =>
  let pc := (w.core c).pc.toNat
  let base := w.gr c ra
  let x := w.gr c rs
  let size := 2 ^ sz
  let (xs, delta, inc) := w.memForm c mode size d
  let whole := sz = 3 && (match w.peek c base delta with | some a => decide (a % 8 = 0) | none => true)
  match firstTrap (tagTrap ((base, isBase c) :: xs)) (storeTrap (w.tenantStore c) whole x.tag) with
  | some t => raise w t
  | none => match w.resolveWith c base delta size .wr false (storeChk c) with
    | (w, .error t) => raise w t
    | (w, .ok ps) => match w.storePieces c pc size x ps with
      | (w, some t) => raise w t
      | (w, none) => done ((if mode < 2 then w else w.postInc c ra base inc).afterMem c ps)

/-! ### LR, SC and atomics (R209, R293 to R298) -/

/-- ALIGN for an 8-byte access that is not aligned; FADDR is a virtual address (R205, R239). -/
def W.align8 (w : W) (c : CoreId) (base : TWord) : Option Trap :=
  match w.peek c base 0 with
  | some a => if a % 8 = 0 then none else some { code := 5, faddr := if base.tag = tHND then 0 else a }
  | none => none

/-- The line that LR and SC reserve, or the refusal of a type other than NORMAL (R293, R298). -/
def W.resvLine (w : W) (c : CoreId) (base : TWord) (ps : List Piece) : Except Trap LineRef :=
  match ps with
  | [p] => match p.spot with
    | .tcm off => .ok ⟨true, off / 64⟩
    | .mem pa 0 => .ok ⟨false, lineOf pa⟩
    | .mem pa _ => .error { code := 9, faddr := if base.tag = tHND then 0 else base.val.toNat, note := .phys (w.coreWho c (w.core c).cworld) pa }
    | .win _ _ => .error { code := 9 }
  | _ => .error { code := 5 }

/-- LR. -/
def lrBody (c : CoreId) (rd ra : Nat) : Body := fun w =>
  let pc := (w.core c).pc.toNat
  let base := w.gr c ra
  match firstTrap (tagTrap [(base, isBase c)]) (w.align8 c base) with
  | some t => raise w t
  | none => match w.resolve c base 0 8 .rd true with
    | (w, .error t) => raise w t
    | (w, .ok ps) => match w.resvLine c base ps with
      | .error t => raise w t
      | .ok r =>
        let w := (w.modCore c fun x => { x with resv := none, lrUsed := false }).answerHeld c
        match w.loadPieces c pc 8 false ps with
        | (w, .error t) => raise w t
        | (w, .ok v) => done ((w.setG c rd v).modCore c fun x => { x with resv := some r, lrUsed := false })

/-- Store one aligned word at once, not through the output buffer: SC and atomics (R256, R297). -/
def W.storeNow (w : W) (c : CoreId) (pc : Nat) (s : Spot) (x : TWord) : W :=
  match s with
  | .tcm off => (w.undoRoom c 1).tcmStore c off (leBytes 8 x.val.toNat) x.tag
  | .mem pa mt => w.meshStore c { addr := pa, data := leBytes 8 x.val.toNat, tags := [(pa / 8, x.tag)], world := (w.core c).cworld, pc := pc, nc := mt ≠ 0 }
  | .win _ _ => w

/-- SC. -/
def scBody (c : CoreId) (rd ra rb : Nat) : Body := fun w =>
  let pc := (w.core c).pc.toNat
  let base := w.gr c ra
  let x := w.gr c rb
  match firstTrap (firstTrap (tagTrap [(base, isBase c)]) (storeTrap (w.tenantStore c) true x.tag)) (w.align8 c base) with
  | some t => raise w t
  | none => match w.resolve c base 0 8 .wr true with
    | (w, .error t) => raise w t
    | (w, .ok ps) => match w.resvLine c base ps with
      | .error t => raise w t
      | .ok r =>
        let w := w.checkpoint c
        let held := decide ((w.core c).resv = some r)
        if held && w.tenantStore c && ps.any fun p => w.overwrites c p then raise w { code := 4 }
        else
          let w := if held then ps.foldl (fun (w : W) (p : Piece) => w.storeNow c pc p.spot x) w else w
          let w := (w.setG c rd (int (b2n !held))).modCore c fun y => { y with resv := none, lrUsed := false }
          done (w.ckptAfter c)

/-- Whether an atomic to NORMAL memory runs near (R296). -/
def W.runsNear (w : W) (c : CoreId) (line : Nat) : Bool :=
  match w.get F.CRN_ATOMCTL_MODE with
  | 1 => true
  | 2 => false
  | _ =>
    let own := match w.l2St (coreL2 c) line with | some .M => true | some .E => true | _ => false
    own || decide (Tab.getD (w.core c).pred (predIdx line) 0 < 2)

/-- The word an atomic finds and its outcome: `f` is `atomicOp` on its operands. -/
def W.atomicAt (w : W) (c : CoreId) (pc : Nat) (s : Spot) (f : TWord → Except Nat (Option TWord)) : W × Except Trap TWord :=
  let finish (w : W) (s : Spot) (old : TWord) : W × Except Trap TWord :=
    match f old with
    | .error k => (w, .error { code := k })
    | .ok none => (w, .ok old)
    | .ok (some v) => (w.storeNow c pc s v, .ok old)
  match s with
  | .tcm off => (match c with | .crn p => finish w s (w.rdWord (tcmAddr p off / 8)) | .flo _ => (w, .error { code := 1 }))
  | .win _ _ => (w, .error { code := 9 })
  | .mem pa mt =>
    let line := lineOf pa
    let l2 := coreL2 c
    if mt = 0 && w.runsNear c line then
      let had := match w.l2St l2 line with | some .M => true | some .E => true | _ => false
      let snooped := !had && (match w.dirOf line with | some e => e.holders.any fun h => decide (h ≠ l2) | none => false)
      let w := if snooped then w.modCore c fun x => x.predMove line true else w
      let w := (w.coreTouch c (w.coreWho c (w.core c).cworld) pc pa true false).tagNote c pa 8
      let w := if had then w else w.modCore c fun x => { x with near := some (line, w.now) }
      finish w s ((w.view c line false).rdWord (pa / 8))
    else
      let w := if mt = 0 && (w.dirOf line).isNone then w.modCore c fun x => x.predMove line false else w
      let w := ((w.cxlNote pa).wrHome line (decide (mt = 0))).tagNote c pa 8
      finish w (.mem pa (max mt 1)) (w.rdWord (pa / 8))

/-- Resolve the word of an atomic, which reads and writes it: each check is made for both rights before the next one (R202, R218). -/
def W.resolveRW (w : W) (c : CoreId) (base : TWord) : W × Except Trap (List Piece) :=
  match w.resolve c base 0 8 .rd true with
  | (w, .error t) => match w.resolve c base 0 8 .wr true with
    | (w, .error u) => (w, .error (if u.code < t.code then u else t))
    | (w, .ok _) => (w, .error t)
  | (w, .ok _) => w.resolve c base 0 8 .wr true

/-- An atomic: `op` is FN of R219. -/
def atomicBody (c : CoreId) (op rd ra rb : Nat) : Body := fun w =>
  let pc := (w.core c).pc.toNat
  let base := w.gr c ra
  let b := w.gr c rb
  let d := w.gr c rd
  let tenant := w.tenantStore c
  let data := op = 2 || op = 11
  let t1 := tagTrap ((base, isBase c) :: (if data then [] else [(b, isInt)]) ++ (if op = 11 then [(d, isAny)] else []))
  let t2 := if data then storeTrap tenant true b.tag else none
  match firstTrap (firstTrap t1 t2) (w.align8 c base) with
  | some t => raise w t
  | none => match w.resolveRW c base with
    | (w, .error t) => raise w t
    | (w, .ok ps) => match ps with
      | [p] =>
        (match (w.checkpoint c).atomicAt c pc p.spot (fun old => atomicOp op tenant old b d) with
         | (w, .error t) => raise w t
         | (w, .ok old) => done ((w.setG c rd old).ckptAfter c))
      | _ => raise w { code := 5 }

/-! ### The instructions -/

/-- LD. -/
def execLd (c : CoreId) (mode : Nat) (sx : Bool) (sz rd ra d : Nat) (s : State) : Host.Outcome State Fault Refusal :=
  liftNow (fun w => w.run c (.ld c mode sx sz rd ra d) .B (loadBody c mode sx sz rd ra d)) s

/-- ST. -/
def execSt (c : CoreId) (mode sz rd ra d : Nat) (s : State) : Host.Outcome State Fault Refusal :=
  liftNow (fun w => w.run c (.st c mode sz rd ra d) .B (storeBody c mode sz rd ra d)) s

/-- LR. -/
def execLr (c : CoreId) (rd ra : Nat) (s : State) : Host.Outcome State Fault Refusal :=
  liftNow (fun w => w.run c (.lr c rd ra) .A (lrBody c rd ra)) s

/-- SC. -/
def execSc (c : CoreId) (rd ra rb : Nat) (s : State) : Host.Outcome State Fault Refusal :=
  liftNow (fun w => w.run c (.sc c rd ra rb) .A (scBody c rd ra rb)) s

/-- ATSWAP. -/
def execAtswap (c : CoreId) (rd ra rb : Nat) (s : State) : Host.Outcome State Fault Refusal :=
  liftNow (fun w => w.run c (.atswap c rd ra rb) .A (atomicBody c 2 rd ra rb)) s

/-- ATADD. -/
def execAtadd (c : CoreId) (rd ra rb : Nat) (s : State) : Host.Outcome State Fault Refusal :=
  liftNow (fun w => w.run c (.atadd c rd ra rb) .A (atomicBody c 3 rd ra rb)) s

/-- ATAND. -/
def execAtand (c : CoreId) (rd ra rb : Nat) (s : State) : Host.Outcome State Fault Refusal :=
  liftNow (fun w => w.run c (.atand c rd ra rb) .A (atomicBody c 4 rd ra rb)) s

/-- ATOR. -/
def execAtor (c : CoreId) (rd ra rb : Nat) (s : State) : Host.Outcome State Fault Refusal :=
  liftNow (fun w => w.run c (.ator c rd ra rb) .A (atomicBody c 5 rd ra rb)) s

/-- ATXOR. -/
def execAtxor (c : CoreId) (rd ra rb : Nat) (s : State) : Host.Outcome State Fault Refusal :=
  liftNow (fun w => w.run c (.atxor c rd ra rb) .A (atomicBody c 6 rd ra rb)) s

/-- ATMINS. -/
def execAtmins (c : CoreId) (rd ra rb : Nat) (s : State) : Host.Outcome State Fault Refusal :=
  liftNow (fun w => w.run c (.atmins c rd ra rb) .A (atomicBody c 7 rd ra rb)) s

/-- ATMAXS. -/
def execAtmaxs (c : CoreId) (rd ra rb : Nat) (s : State) : Host.Outcome State Fault Refusal :=
  liftNow (fun w => w.run c (.atmaxs c rd ra rb) .A (atomicBody c 8 rd ra rb)) s

/-- ATMINU. -/
def execAtminu (c : CoreId) (rd ra rb : Nat) (s : State) : Host.Outcome State Fault Refusal :=
  liftNow (fun w => w.run c (.atminu c rd ra rb) .A (atomicBody c 9 rd ra rb)) s

/-- ATMAXU. -/
def execAtmaxu (c : CoreId) (rd ra rb : Nat) (s : State) : Host.Outcome State Fault Refusal :=
  liftNow (fun w => w.run c (.atmaxu c rd ra rb) .A (atomicBody c 10 rd ra rb)) s

/-- ATCAS. -/
def execAtcas (c : CoreId) (rd ra rb : Nat) (s : State) : Host.Outcome State Fault Refusal :=
  liftNow (fun w => w.run c (.atcas c rd ra rb) .A (atomicBody c 11 rd ra rb)) s

end Sys2Proof.Machine
end

