-- ==== Sys2Proof/Machine/TshSys.lean ====
section
/-! DEFINITION. Control transfer and system instructions (R150, R181, R203, R207, R208, R218, R233, R242, R274 to R277, R308, R427). -/

namespace Sys2Proof.Machine

open Sys2Proof

/-! ### Control transfer (R207, R208) -/

/-- A branch target: `off` instructions from the branch, modulo 2^64. -/
def branchTo (pc : Nat) (off : Int) : Nat := (BitVec.ofNat 64 pc + ofInt (off * 4)).toNat

/-- End as a branch that is taken or not. -/
def takeIf (w : W) (taken : Bool) (a : Nat) : W × Except Trap Flow := (w, .ok (if taken then .jump a else .seq))

/-- A conditional branch outcome goes to the trace of a Cornice core (R424, R425). -/
def W.branchTrace (w : W) (c : CoreId) (taken : Bool) : W :=
  match c with | .crn p => w.trcBranch p (w.core c).cworld taken | .flo _ => w

/-- BC and BL: `link` sets g31, whether or not the branch is taken (assumption 54). -/
def branchBody (c : CoreId) (link : Bool) (cond off : Nat) : Body := fun w =>
  let pc := (w.core c).pc.toNat
  let taken := condHolds (w.flagsOf c) cond
  let w := if cond = 0 then w else w.branchTrace c taken
  let w := if link then w.setG c 31 (int (pc + 4)) else w
  takeIf w taken (branchTo pc (sext 22 off))

/-- A target packet of a Cornice core (R425). -/
def W.targetTrace (w : W) (c : CoreId) (a : Nat) : W :=
  match c with | .crn p => w.trcEmit p (w.core c).cworld 4 0 (leBytes 8 a) | .flo _ => w

/-- JR, and JALR with a link register. -/
def jumpBody (c : CoreId) (link : Option Nat) (ra : Nat) : Body := fun w =>
  let pc := (w.core c).pc.toNat
  let a := w.gr c ra
  if a.val.toNat % 4 ≠ 0 then raise w { code := 1 }
  else match tagTrap [(a, isInt)] with
    | some t => raise w t
    | none =>
      let w := w.targetTrace c a.val.toNat
      (match link with | some rd => w.setG c rd (int (pc + 4)) | none => w, .ok (.jump a.val.toNat))

/-! ### ERET (R242) -/

/-- Read word `i` of the frame at g30 as world 0x0000. -/
def W.frameWord (w : W) (c : CoreId) (pc : Nat) (sp : TWord) (i : Nat) : W × Except Trap TWord :=
  match w.resolve c sp (8 * (i : Int)) 8 .rd false with
  | (w, .error t) => (w, .error t)
  | (w, .ok ps) => w.loadPieces c pc 8 false ps

/-- Read words of the frame in order. -/
def W.frameWords (w : W) (c : CoreId) (pc : Nat) (sp : TWord) : List Nat → W × Except Trap (List TWord)
  | [] => (w, .ok [])
  | i :: t => match w.frameWord c pc sp i with
    | (w, .error e) => (w, .error e)
    | (w, .ok x) => match w.frameWords c pc sp t with
      | (w, .error e) => (w, .error e)
      | (w, .ok xs) => (w, .ok (x :: xs))

/-- The registers and the world that ERET restores from a frame: PC, PSW, g1 to g7 and INFO. -/
def W.frameBack (w : W) (c : CoreId) (f : List TWord) (world : Nat) : W :=
  let at_ (i : Nat) : TWord := f.getD i {}
  let w := (upto 1 7).foldl (fun (w : W) (r : Nat) => w.setG c r (at_ (r + 1))) w
  let sp : TWord := ⟨tINT, (w.gr c 30).val + 96⟩
  let ak := match Tab.find? w.dev.worlds world with | some r => r.akmask | none => 0
  w.modCore c fun x =>
    let x := { x with psw := keepBits (at_ 1).val 0xF0000001, cworld := world, resv := none, lrUsed := false }
    if world = 0 then x.setG 30 sp else { (x.setG 30 x.cstk) with cstk := sp, akmask := ak }

/-- ERET. -/
def eretBody (c : CoreId) : Body := fun w =>
  let pc := (w.core c).pc.toNat
  let sp := w.gr c 30
  match tagTrap [(sp, isInt)] with
  | some t => raise w t
  | none => match w.frameWords c pc sp [0, 1, 4, 5, 6, 7, 8, 9, 10, 11] with
    | (w, .error t) => raise w t
    | (w, .ok f) =>
      let at_ (i : Nat) : TWord := f.getD i {}
      -- a word of the frame that is not tagged INT raises TAG, POISON too
      if !((at_ 0).tag = tINT && (at_ 1).tag = tINT && (at_ 9).tag = tINT) then raise w { code := 3 }
      else
        let world := bits (at_ 9).val 63 48
        if !w.worldActive world then raise w { code := 9 }
        else
          let a := (at_ 0).val.toNat
          let w := w.frameBack c f world
          let w := if world = 0 then w else w.trcEmit (crnTrace c) world 6 0 (leBytes 2 world)
          ((w.targetTrace c a).ckptAfter c, .ok (.jump a))

/-! ### Translation, handles and tags (R181, R199, R203) -/

/-- Every core's translation caches keep what `f` accepts. -/
def W.keepTlb (w : W) (f : TlbEntry → Bool) : W :=
  { w with dev := { w.dev with cores := Tab.mapVal w.dev.cores fun _ x => { x with tlb := x.tlb.filter f } } }

/-- Write the tag of the word, or the part of it, at `va`, and its data as zero where `zero` says so: one word of TAGSET and TAGSCRUB. -/
def W.tagStore (w : W) (c : CoreId) (pc va n : Nat) (tag : Tag) (zero : Bool) : W × Option Trap :=
  match w.resolve c (int va) 0 n .wr true with
  | (w, .error t) => (w, some t)
  | (w, .ok ps) =>
    if w.tenantStore c && ps.any fun p => w.overwrites c p then (w, some { code := 4 })
    else
      (ps.foldl (fun (w : W) (p : Piece) =>
        let old := match p.spot, c with
          | .tcm off, .crn q => w.bytes (tcmAddr q off) p.n
          | .mem pa mt, _ => (w.view c (lineOf pa) (mt ≠ 0)).bytes pa p.n
          | _, _ => []
        w.storePiece c pc (if zero then zeros p.n else old) tag { p with first := 0 }) w, none)

/-- Carry on with a check's result. -/
def orTrap (r : W × Option Trap) : W × Except Trap Flow :=
  match r with
  | (w, some t) => raise w t
  | (w, none) => done w

/-! ### Cache maintenance of one line (R274 to R277) -/

/-- Resolve the line of ra; other than NORMAL memory has none in a cache. -/
def lineBody (c : CoreId) (ra : Nat) (k : W → Nat → W) : Body := fun w =>
  let a := w.gr c ra
  match tagTrap [(a, isInt)] with
  | some t => raise w t
  | none =>
    let w := w.checkpoint c
    match w.resolve c a 0 1 .rd false with
    | (w, .error t) => raise w t
    | (w, .ok [⟨.mem pa 0, _, _, _⟩]) => done (k w (lineOf pa))
    | (w, .ok _) => done w

/-- Write back a line of a core's D-L1 and L2; it stays, clean. -/
def W.lineClean (w : W) (c : CoreId) (line : Nat) : W :=
  let l2 := coreL2 c
  let w := match l1Find (w.core c).dl1 (l1Set c false line) line with | some e => w.staleBack e | none => w
  let w := w.modCore c fun x => match l1Way x.dl1 (l1Set c false line) line with
    | some k => { x with dl1 := Tab.modify x.dl1 (l1Set c false line * 4 + k) fun e => { e with dirty := false } }
    | none => x
  match w.l2Way l2 line with
  | none => w
  | some k => match Tab.find? w.dev.coh.l2 (l2Key l2 line k) with
    | none => w
    | some e =>
      if e.st = .M || e.st = .O then
        let w := match e.stale with | some x => w.putLine line x | none => w.snpFill line false .M
        let w := w.modCoh fun q => { q with l2 := Tab.put q.l2 (l2Key l2 line k) { e with st := if e.st = .M then .E else .S } }
        match w.dirOf line with
        | some d => if e.st = .O && decide (d.owner = some l2) then w.track line none false (l2 :: d.sharers) else w
        | none => w
      else w

/-- Drop a line from a core's D-L1 and L2, and from the L1s below that L2, without writing it back: stale copies too. -/
def W.lineDrop (w : W) (c : CoreId) (line : Nat) : W :=
  let l2 := coreL2 c
  let w := w.modCore c fun x => match l1Way x.dl1 (l1Set c false line) line with
    | some k => { x with dl1 := Tab.del x.dl1 (l1Set c false line * 4 + k) }
    | none => x
  let w := ((w.dropL1s l2 line).loseResv l2 line)
  match w.l2Way l2 line with
  | some k => (w.modCoh fun q => { q with l2 := Tab.del q.l2 (l2Key l2 line k) }).dirForget l2 line
  | none => w

/-- DC.INV: the line goes; where it was dirty its data and tags are lost, and what the line then holds is a free value (R275, assumption 55). -/
def W.lineInv (w : W) (c : CoreId) (line : Nat) : W :=
  let dirty : Bool := match w.l2Way (coreL2 c) line with
    | some k => (match Tab.find? w.dev.coh.l2 (l2Key (coreL2 c) line k) with
      | some e => (decide (e.st = .M) || decide (e.st = .O)) && e.stale.isNone
      | none => false)
    | none => false
  let w := w.lineDrop c line
  if dirty then
    let (bs, w) := w.freshBytes 64
    (List.range 8).foldl (fun (w : W) (i : Nat) =>
      let (t, w) := w.fresh
      w.putTag (line * 8 + i) (t.setWidth 4)) (w.putBytes (line * 64) bs)
  else w

/-! ### The instructions -/

/-- BC. -/
def execBc (c : CoreId) (cond off : Nat) (s : State) : Host.Outcome State Fault Refusal :=
  liftNow (fun w => w.run c (.bc c cond off) .B (branchBody c false cond off)) s

/-- BL. -/
def execBl (c : CoreId) (cond off : Nat) (s : State) : Host.Outcome State Fault Refusal :=
  liftNow (fun w => w.run c (.bl c cond off) .B (branchBody c true cond off)) s

/-- CB. -/
def execCb (c : CoreId) (ra kind tag off : Nat) (s : State) : Host.Outcome State Fault Refusal :=
  liftNow (fun w => w.run c (.cb c ra kind tag off) .B (fun w =>
    let a := w.gr c ra
    let pc := (w.core c).pc.toNat
    match (if kind < 2 then tagTrap [(a, isIntRaw)] else none) with
    | some t => raise w t
    | none =>
      let taken := match kind with
        | 0 => decide (a.val = 0)
        | 1 => decide (a.val ≠ 0)
        | 2 => decide (a.tag.toNat = tag)
        | _ => decide (a.tag.toNat ≠ tag)
      takeIf (w.branchTrace c taken) taken (branchTo pc (sext 14 off)))) s

/-- JR. -/
def execJr (c : CoreId) (ra : Nat) (s : State) : Host.Outcome State Fault Refusal :=
  liftNow (fun w => w.run c (.jr c ra) .B (jumpBody c none ra)) s

/-- JALR. -/
def execJalr (c : CoreId) (rd ra : Nat) (s : State) : Host.Outcome State Fault Refusal :=
  liftNow (fun w => w.run c (.jalr c rd ra) .B (jumpBody c (some rd) ra)) s

/-- SRET: segment return with g1 (R150). -/
def execSret (c : CoreId) (s : State) : Host.Outcome State Fault Refusal :=
  liftNow (fun w => w.run c (.sret c) .K (fun w =>
    match c with
    | .flo n => (w.kreturn n (w.gr c 1), .ok .gone)
    | .crn _ => raise w { code := 1 })) s

/-- ERET. -/
def execEret (c : CoreId) (s : State) : Host.Outcome State Fault Refusal :=
  liftNow (fun w => w.run c (.eret c) .S0 (eretBody c)) s

/-- WFI: the core naps (R427). -/
def execWfi (c : CoreId) (s : State) : Host.Outcome State Fault Refusal :=
  liftNow (fun w => w.run c (.wfi c) .S0 (fun w =>
    let w := w.modCore c fun x => { x with waiting := true, napAt := w.now }
    done (w.trcEmit (crnTrace c) (w.core c).cworld 8 0 (leBytes 8 w.now)))) s

/-- SVC: the exception SVC. -/
def execSvc (c : CoreId) (code : Nat) (s : State) : Host.Outcome State Fault Refusal :=
  liftNow (fun w => w.run c (.svc c code) .S (fun w => raise w { code := 0xA, svc := code })) s

/-- BRK: the exception BRK. -/
def execBrk (c : CoreId) (s : State) : Host.Outcome State Fault Refusal :=
  liftNow (fun w => w.run c (.brk c) .S (fun w => raise w { code := 0xB })) s

/-- MFSR: PSW and FPSW are group B, the others S0. -/
def execMfsr (c : CoreId) (rd n : Nat) (s : State) : Host.Outcome State Fault Refusal :=
  liftNow (fun w => w.run c (.mfsr c rd n) (if n < 2 then .B else .S0) (fun w =>
    match w.sysReg c n with
    | none => raise w { code := 1 }
    | some v => done (w.setG c rd v))) s

/-- MTSR: a checkpoint follows all but PSW and FPSW (R233, R256). -/
def execMtsr (c : CoreId) (rs n : Nat) (s : State) : Host.Outcome State Fault Refusal :=
  liftNow (fun w => w.run c (.mtsr c rs n) (if n < 2 then .B else .S0) (fun w =>
    let x := w.gr c rs
    if (w.sysReg c n).isNone then raise w { code := 1 }
    else withTags [(x, isInt)] (fun w =>
      let w := w.setSysReg c (w.core c).cworld n x
      done (if n < 2 then w else w.ckptAfter c)) w)) s

/-- RDTIME: the timebase replica (R21). -/
def execRdtime (c : CoreId) (rd : Nat) (s : State) : Host.Outcome State Fault Refusal :=
  liftNow (fun w => w.run c (.rdtime c rd) .B (fun w => done (w.setG c rd (int w.now)))) s

/-- FENCE: older stores are performed before what follows; loads already are (R308, assumption 56). -/
def execFence (c : CoreId) (kind : Nat) (s : State) : Host.Outcome State Fault Refusal :=
  liftNow (fun w => w.run c (.fence c kind) .B (fun w => done (if kind = 1 then w else w.checkpoint c))) s

/-- TINV.VA: one translation of the own world, on every agent (R181). -/
def execTinvVa (c : CoreId) (ra : Nat) (s : State) : Host.Outcome State Fault Refusal :=
  liftNow (fun w => w.run c (.tinvVa c ra) .S (fun w =>
    let a := w.gr c ra
    let world := (w.core c).cworld
    withTags [(a, isInt)] (fun w =>
      done (w.keepTlb fun e => !(decide (e.world = world) && decide (a.val.toNat >>> e.shift = (e.vpn * 4096) >>> e.shift)))) w)) s

/-- TINV.WORLD: every translation of the own world. -/
def execTinvWorld (c : CoreId) (s : State) : Host.Outcome State Fault Refusal :=
  liftNow (fun w => w.run c (.tinvWorld c) .S (fun w => done (w.dropTlb (w.core c).cworld))) s

/-- TINV.ALL: all translations. -/
def execTinvAll (c : CoreId) (s : State) : Host.Outcome State Fault Refusal :=
  liftNow (fun w => w.run c (.tinvAll c) .S0 (fun w => done (w.keepTlb fun _ => false))) s

/-- HINV: every core drops the index (R203). -/
def execHinv (c : CoreId) (ra : Nat) (s : State) : Host.Outcome State Fault Refusal :=
  liftNow (fun w => w.run c (.hinv c ra) .S0 (fun w =>
    let a := w.gr c ra
    withTags [(a, isInt)] (fun w =>
      done { w with dev := { w.dev with cores := Tab.mapVal w.dev.cores fun _ x => { x with hcache := x.hcache.filter fun h => decide (h.1 ≠ a.val.toNat) } } }) w)) s

/-- TAGSET: the tag of the word that holds [ra]; the data stays. -/
def execTagset (c : CoreId) (ra tag : Nat) (s : State) : Host.Outcome State Fault Refusal :=
  liftNow (fun w => w.run c (.tagset c ra tag) .S0 (fun w =>
    let a := w.gr c ra
    let t := BitVec.ofNat 4 tag
    if tReserved t then raise w { code := 1 }
    else withTags [(a, isInt)] (fun w => orTrap (w.tagStore c (w.core c).pc.toNat (a.val.toNat / 8 * 8) 8 t false)) w)) s

/-- DC.CLEAN. -/
def execDcClean (c : CoreId) (ra : Nat) (s : State) : Host.Outcome State Fault Refusal :=
  liftNow (fun w => w.run c (.dcClean c ra) .S (lineBody c ra fun w l => w.lineClean c l)) s

/-- DC.INV. -/
def execDcInv (c : CoreId) (ra : Nat) (s : State) : Host.Outcome State Fault Refusal :=
  liftNow (fun w => w.run c (.dcInv c ra) .S0 (lineBody c ra fun w l => w.lineInv c l)) s

/-- DC.CIV: clean, then invalidate. -/
def execDcCiv (c : CoreId) (ra : Nat) (s : State) : Host.Outcome State Fault Refusal :=
  liftNow (fun w => w.run c (.dcCiv c ra) .S0 (lineBody c ra fun w l => (w.lineClean c l).lineDrop c l)) s

/-- IC.INV. -/
def execIcInv (c : CoreId) (ra : Nat) (s : State) : Host.Outcome State Fault Refusal :=
  liftNow (fun w => w.run c (.icInv c ra) .S0 (lineBody c ra fun w l => w.modCore c fun x => match l1Way x.il1 (l1Set c true l) l with
    | some k => { x with il1 := Tab.del x.il1 (l1Set c true l * 4 + k) }
    | none => x)) s

end Sys2Proof.Machine
end

