-- ==== Sys2Proof/Machine/TshMicro.lean ====
section
/-! DEFINITION. The microcoded instructions MOVBLK, TAGSCRUB and CRC (R198, R199, R220, R236, R252, R256). -/

namespace Sys2Proof.Machine

open Sys2Proof

/-- Whether a core leaves a group M instruction at a safe point: an interrupt qualifies, or a halt waits (R236, R432). -/
def W.stopsHere (w : W) (c : CoreId) : Bool :=
  match c with
  | .flo _ => false
  | .crn p =>
    let x := w.core c
    (x.psw.getLsbD 0 && decide (w.ipend p &&& bits x.iena 15 0 ≠ 0)) ||
      (match w.logCore p with
       | some l => ((w.haltSet l).any fun k => Tab.has w.dev.dbg.want k || w.dev.dbg.stepping.contains k) && w.haltHere p
       | none => false)

/-- The bytes that one execution handles (R220). -/
def microMax : Nat := 2 ^ 20

/-- The loop of a microcoded instruction over `total` bytes, of which `k` are done: `step` handles some bytes from `k` on and says how many, and whether it
reached DEVICE memory, after which a checkpoint is taken; `put` writes the progress to the registers. A safe point comes every 256 bytes (R220, R252,
R256). -/
def microLoop (c : CoreId) (step : W → Nat → W × Except Trap (Nat × Bool)) (put : W → Nat → W) (total : Nat) : Nat → Nat → Body
  | 0, k, w => done (put w k)
  | fuel + 1, k, w =>
    if total ≤ k then done (put w k)
    else match step w k with
      | (w, .error t) => raise (put w k) t
      | (w, .ok (n, dev)) =>
        let w := if dev then (put w (k + n)).checkpoint c else put w (k + n)
        if decide (k / 256 < (k + n) / 256) && decide (k + n < total) then
          let w := w.checkpoint c
          if w.stopsHere c then (w, .ok .stay) else microLoop c step put total fuel (k + n) w
        else microLoop c step put total fuel (k + n) w

/-- Run the loop from the start. -/
def micro (c : CoreId) (len : Nat) (step : W → Nat → W × Except Trap (Nat × Bool)) (put : W → Nat → W) : Body :=
  microLoop c step put (min len microMax) (min len microMax) 0

/-- An address `k` bytes on. -/
def plus (v : Word) (k : Nat) : TWord := ⟨tINT, v + BitVec.ofNat 64 k⟩

/-- A length less `k` bytes. -/
def less (v : Word) (k : Nat) : TWord := ⟨tINT, v - BitVec.ofNat 64 k⟩

/-- Load `n` bytes at a virtual address, 8 or 1; with the word, whether it lies in DEVICE memory. -/
def W.loadAt (w : W) (c : CoreId) (pc n : Nat) (a : TWord) : W × Except Trap (TWord × Bool) :=
  match w.resolve c a 0 n .rd false with
  | (w, .error t) => (w, .error t)
  | (w, .ok ps) => match w.loadPieces c pc n false ps with
    | (w, .error t) => (w, .error t)
    | (w, .ok x) => (w, .ok (x, isDevice ps))

/-! ### MOVBLK -/

/-- Move the next word whole, when both sides are aligned and 8 bytes are left, or the next byte (R220). Where the regions overlap the data stored
is a free value. -/
def moveStep (c : CoreId) (pc : Nat) (dst src : Word) (total : Nat) (overlap : Bool) (w : W) (k : Nat) : W × Except Trap (Nat × Bool) :=
  let d := plus dst k
  let s := plus src k
  let n := if d.val.toNat % 8 = 0 && s.val.toNat % 8 = 0 && decide (k + 8 ≤ total) then 8 else 1
  match w.loadAt c pc n s with
  | (w, .error t) => (w, .error t)
  | (w, .ok (x, dev)) =>
    match storeTrap (w.tenantStore c) (n = 8) x.tag with
    | some t => (w, .error t)
    | none => match w.resolve c d 0 n .wr false with
      | (w, .error t) => (w, .error t)
      | (w, .ok ps) =>
        let (f, w) := if overlap then w.fresh else (x.val, w)
        match w.storePieces c pc n { x with val := f } ps with
        | (w, some t) => (w, .error t)
        | (w, none) => (w, .ok (n, dev || isDevice ps))

/-- Whether the regions of a MOVBLK overlap. -/
def overlapping (dst src : Word) (n : Nat) : Bool := decide (dst.toNat < src.toNat + n) && decide (src.toNat < dst.toNat + n)

/-- MOVBLK. -/
def moveBody (c : CoreId) (rd ra rb : Nat) : Body := fun w =>
  let pc := (w.core c).pc.toNat
  let d := w.gr c rd
  let s := w.gr c ra
  let l := w.gr c rb
  let total := min l.val.toNat microMax
  let put (w : W) (k : Nat) : W := ((w.setG c rd (plus d.val k)).setG c ra (plus s.val k)).setG c rb (less l.val k)
  withTags [(d, isInt), (s, isInt), (l, isInt)]
    (micro c l.val.toNat (moveStep c pc d.val s.val total (overlapping d.val s.val total)) put) w

/-! ### TAGSCRUB -/

/-- Set the tag of the next word, or of the part of it that is in range; `zero` clears the data. -/
def scrubStep (c : CoreId) (pc : Nat) (dst : Word) (total : Nat) (tag : Tag) (zero : Bool) (w : W) (k : Nat) : W × Except Trap (Nat × Bool) :=
  let a := (plus dst k).val.toNat
  let n := min (8 - a % 8) (total - k)
  match w.tagStore c pc a n tag zero with
  | (w, some t) => (w, .error t)
  | (w, none) => (w, .ok (n, false))

/-- TAGSCRUB. -/
def scrubBody (c : CoreId) (rd ra tag : Nat) (zero : Bool) : Body := fun w =>
  let pc := (w.core c).pc.toNat
  let d := w.gr c rd
  let l := w.gr c ra
  let t := BitVec.ofNat 4 tag
  let put (w : W) (k : Nat) : W := (w.setG c rd (plus d.val k)).setG c ra (less l.val k)
  if tReserved t then raise w { code := 1 }
  else match firstTrap (tagTrap [(d, isInt), (l, isInt)]) (storeTrap (w.tenantStore c) true t) with
    | some e => raise w e
    | none => micro c l.val.toNat (scrubStep c pc d.val (min l.val.toNat microMax) t zero) put w

/-! ### CRC -/

/-- The polynomial of a CRC, reflected, and its width. -/
def crcPoly (poly : Nat) : Nat × Nat := if poly = 0 then (0xEDB88320, 32) else if poly = 1 then (crc32cPoly, 32) else (0xC96C5795D7870F42, 64)

/-- The next word, or the next byte. The accumulator register holds the CRC so far. -/
def crcStep (c : CoreId) (pc rd poly : Nat) (src : Word) (total : Nat) (w : W) (k : Nat) : W × Except Trap (Nat × Bool) :=
  let s := plus src k
  let n := if s.val.toNat % 8 = 0 && decide (k + 8 ≤ total) then 8 else 1
  match w.loadAt c pc n s with
  | (w, .error t) => (w, .error t)
  | (w, .ok (x, dev)) =>
    match tagTrap [(x, fun t => !(t = tHND || t = tCODE))] with
    | some t => (w, .error t)
    | none =>
      let (p, wd) := crcPoly poly
      (w.setG c rd (int (crcRun p ((w.gr c rd).val.toNat % 2 ^ wd) (leBytes n x.val.toNat))), .ok (n, dev))

/-- CRC. -/
def crcBody (c : CoreId) (rd ra rb poly : Nat) : Body := fun w =>
  let pc := (w.core c).pc.toNat
  let acc := w.gr c rd
  let s := w.gr c ra
  let l := w.gr c rb
  let put (w : W) (k : Nat) : W := (w.setG c ra (plus s.val k)).setG c rb (less l.val k)
  withTags [(acc, isInt), (s, isInt), (l, isInt)] (micro c l.val.toNat (crcStep c pc rd poly s.val (min l.val.toNat microMax)) put) w

/-! ### The instructions -/

/-- MOVBLK. -/
def execMovblk (c : CoreId) (rd ra rb : Nat) (s : State) : Host.Outcome State Fault Refusal :=
  liftNow (fun w => w.run c (.movblk c rd ra rb) .M (moveBody c rd ra rb)) s

/-- TAGSCRUB. -/
def execTagscrub (c : CoreId) (rd ra tag : Nat) (zero : Bool) (s : State) : Host.Outcome State Fault Refusal :=
  liftNow (fun w => w.run c (.tagscrub c rd ra tag zero) .M (scrubBody c rd ra tag zero)) s

/-- CRC. -/
def execCrc (c : CoreId) (rd ra rb poly : Nat) (s : State) : Host.Outcome State Fault Refusal :=
  liftNow (fun w => w.run c (.crc c rd ra rb poly) .M (crcBody c rd ra rb poly)) s

end Sys2Proof.Machine
end

