-- ==== Sys2Proof/Machine/TshVec.lean ====
section
/-! DEFINITION. The vector extension of the Floe cores (R197 to R199, R204, R212, R214 to R217). -/

namespace Sys2Proof.Machine

open Sys2Proof

/-! ### Elements, lanes and masks (R214) -/

/-- Element `e` of vector register `r`. -/
def W.vget (w : W) (c : CoreId) (r e : Nat) : TWord := Tab.getD (w.core c).v (r * 8 + e) {}

/-- Write element `e` of vector register `r`. -/
def W.vput (w : W) (c : CoreId) (r e : Nat) (x : TWord) : W := w.modCore c fun y => { y with v := Tab.putD {} y.v (r * 8 + e) x }

/-- Lanes of an element: FMT 0 is INT. -/
def vLanes (fmt : Nat) : Nat := if fmt = 0 then 1 else fLanes fmt

/-- Bits of a lane. -/
def vWidth (fmt : Nat) : Nat := 64 / vLanes fmt

/-- The tag FMT names. -/
def vTag (fmt : Nat) : Tag := BitVec.ofNat 4 (fmt + 1)

/-- The mask register: g(24 + MSEL), none for MSEL 0. -/
def W.maskReg (w : W) (c : CoreId) (msel : Nat) : Option TWord := if msel = 0 then none else some (w.gr c (24 + msel))

/-- The tag check of a mask (R197). -/
def maskCheck : Option TWord → List (TWord × (Tag → Bool))
  | none => []
  | some m => [(m, isInt)]

/-- Whether lane `j` is active. -/
def laneOn (m : Option TWord) (j : Nat) : Bool := match m with | none => true | some x => x.val.getLsbD j

/-- Whether element `e` is active: some lane of it is. -/
def elemOn (m : Option TWord) (k e : Nat) : Bool := (List.range k).any fun i => laneOn m (e * k + i)

/-- The first of several checks, element by element, that raises (R218). -/
def firstOf : List (Option Trap) → Option Trap
  | [] => none
  | some t :: _ => some t
  | none :: r => firstOf r

/-- Merge new lanes into an element: inactive lanes keep the old value (R214). -/
def mergeLanes (m : Option TWord) (k e : Nat) (old new : Word) : Word :=
  let n := 64 / k
  BitVec.ofNat 64 (packLanes n ((List.range k).map fun i => (if laneOn m (e * k + i) then lane n new i else lane n old i, 0))).1

/-- The exception of a vector instruction before it does anything: that of the mask and of the operands of the active elements, a lower element before
a higher one, in the order of the table of R218. -/
def vecTrap (m : Option TWord) (k : Nat) (extra : List (TWord × (Tag → Bool))) (ops : Nat → List (TWord × (Tag → Bool))) : Option Trap :=
  firstTrap (tagTrap (maskCheck m ++ extra)) (firstOf ((List.range 8).map fun e => if elemOn m k e then tagTrap (ops e) else none))

/-- Write the active elements of a vector register: `f e` gives the new word of element e and its flags by lane. -/
def W.vecWrite (w : W) (c : CoreId) (m : Option TWord) (k vd : Nat) (f : Nat → TWord × List FFlags) : W :=
  let vals := (List.range 8).map fun e => (e, w.vget c vd e, f e)
  vals.foldl (fun (w : W) (q : Nat × TWord × (TWord × List FFlags)) =>
    let (e, old, new, fl) := q
    if !elemOn m k e then w
    else
      let g := (fl.mapIdx fun i x => if laneOn m (e * k + i) then x else 0).foldl fOr 0
      let w := w.vput c vd e ⟨new.tag, mergeLanes m k e old.val new.val⟩
      if g = 0 then w else w.modCore c fun x => { x with fpsw := fpswMerge x.fpsw g }) w

/-- The lanes of an operation on several words of a format. -/
def vLaneMap (fmt : Nat) (tag : Tag) (xs : List Word) (op : List Nat → Nat × FFlags) : TWord × List FFlags :=
  let n := vWidth fmt
  let rs := (List.range (vLanes fmt)).map fun i => op (xs.map fun x => lane n x i)
  (⟨tag, BitVec.ofNat 64 (packLanes n rs).1⟩, rs.map Prod.snd)

/-- A lane-wise instruction on vector registers `srcs`: the tags it accepts, the tag of a result, and the operation on a lane. -/
def vecOp (c : CoreId) (fmt msel vd : Nat) (srcs : List Nat) (ok : Tag → Bool) (tag : List TWord → Tag) (op : List Nat → Nat × FFlags) : Body := fun w =>
  let m := w.maskReg c msel
  let k := vLanes fmt
  let xs (e : Nat) : List TWord := srcs.map fun r => w.vget c r e
  match vecTrap m k [] (fun e => (xs e).map fun x => (x, ok)) with
  | some t => raise w t
  | none => done (w.vecWrite c m k vd fun e => vLaneMap fmt (tag (xs e)) ((xs e).map TWord.val) op)

/-! ### Integer -/

/-- Vector integer: INT. -/
def vecInt (c : CoreId) (msel vd va vb : Nat) (op : Word → Word → Word) : Body :=
  vecOp c 0 msel vd [va, vb] isInt (fun _ => tINT) fun l => ((op (BitVec.ofNat 64 (l.getD 0 0)) (BitVec.ofNat 64 (l.getD 1 0))).toNat, 0)

/-- Vector logic and shifts: INT or RAW (R197, R219). -/
def vecLogic (c : CoreId) (msel vd va vb : Nat) (op : Word → Word → Word) : Body :=
  vecOp c 0 msel vd [va, vb] isIntRaw logicTag fun l => ((op (BitVec.ofNat 64 (l.getD 0 0)) (BitVec.ofNat 64 (l.getD 1 0))).toNat, 0)

/-- A comparison: 0 equal, 1 not equal, 2 less, 3 less or equal; on INT signed, on floating point false where unordered, except not equal (R215). -/
def vecRel (kind : Nat) (r : FRel) : Bool :=
  match kind with
  | 0 => r = .eq
  | 1 => r ≠ .eq
  | 2 => r = .lt
  | _ => r = .lt || r = .eq

/-- Compare two lanes. -/
def cmpLane (fmt a b : Nat) : FRel × FFlags :=
  if fmt = 0 then
    let x := sext 64 a
    let y := sext 64 b
    (if x < y then .lt else if x = y then .eq else .gt, 0)
  else fCmp (fFmt fmt) a b

/-- VCMPEQ to VCMPLE (R215). -/
def vecCompare (c : CoreId) (kind fmt msel vd va vb : Nat) : Body := fun w =>
  let m := w.maskReg c msel
  let k := vLanes fmt
  let n := vWidth fmt
  let t := isTag (vTag fmt)
  match vecTrap m k [] (fun e => [(w.vget c va e, t), (w.vget c vb e, t)]) with
  | some t => raise w t
  | none =>
    let rs := (List.range (8 * k)).map fun j =>
      if laneOn m j then
        let (r, g) := cmpLane fmt (lane n (w.vget c va (j / k)).val (j % k)) (lane n (w.vget c vb (j / k)).val (j % k))
        (b2n (vecRel kind r) * 2 ^ j, g)
      else (0, 0)
    let v := rs.foldl (fun a x => a + x.1) 0
    done (w.putF c vd (int v, rs.foldl (fun a x => fOr a x.2) 0))

/-! ### Floating point -/

/-- Lane-wise floating point on vector registers, rounded in FPSW.RM (R219). -/
def vecFloat (c : CoreId) (fmt msel vd : Nat) (srcs : List Nat) (op : FFmt → Nat → List Nat → Nat × FFlags) : Body := fun w =>
  vecOp c fmt msel vd srcs (isTag (fTag fmt)) (fun _ => fTag fmt) (op (fFmt fmt) (w.rmOf c 7)) w

/-- Two-operand form. -/
def vecFloat2 (c : CoreId) (fmt msel vd va vb : Nat) (op : FFmt → Nat → Nat → Nat → Nat × FFlags) : Body :=
  vecFloat c fmt msel vd [va, vb] fun f rm l => op f rm (l.getD 0 0) (l.getD 1 0)

/-- Complex product terms: `conj` uses the conjugate of b, `acc` adds d; each component is rounded once (R217). -/
def complexMul (rm : Nat) (conj acc : Bool) (a b d : Word) : TWord × List FFlags :=
  let f := FFmt.f32
  let x (v : Word) (i : Nat) : FNum := fDecode f (lane 32 v i)
  let plusD (i : Nat) : List FTerm := if acc then [⟨x d i, fOne, false⟩] else []
  let re := fSum f rm ([⟨x a 0, x b 0, false⟩, ⟨x a 1, x b 1, !conj⟩] ++ plusD 0)
  let im := fSum f rm ([⟨x a 0, x b 1, conj⟩, ⟨x a 1, x b 0, false⟩] ++ plusD 1)
  (⟨tF32P, BitVec.ofNat 64 (packLanes 32 [re, im]).1⟩, [re.2, im.2])

/-- VCMUL, VCMULC and VCMULA. -/
def vecComplex (c : CoreId) (msel vd va vb : Nat) (conj acc : Bool) : Body := fun w =>
  let m := w.maskReg c msel
  let t := isTag tF32P
  let ops (e : Nat) : List (TWord × (Tag → Bool)) := [(w.vget c va e, t), (w.vget c vb e, t)] ++ if acc then [(w.vget c vd e, t)] else []
  match vecTrap m 2 [] ops with
  | some t => raise w t
  | none => done (w.vecWrite c m 2 vd fun e => complexMul (w.rmOf c 7) conj acc (w.vget c va e).val (w.vget c vb e).val (w.vget c vd e).val)

/-! ### Moves and permutes (R214, R219) -/

/-- Move words into the active elements: `extra e` are the operands of element e, its source among them, and `src e` is its word, whose tag is copied;
POISON is refused (R198, assumption 58). -/
def vecMove (c : CoreId) (fmt msel vd : Nat) (extra : Nat → List (TWord × (Tag → Bool))) (src : W → Nat → TWord × W) : Body := fun w =>
  let m := w.maskReg c msel
  let k := vLanes fmt
  match vecTrap m k [] extra with
  | some t => raise w t
  | none =>
    let r := (List.range 8).foldl (fun (r : W × List TWord) (e : Nat) =>
      if elemOn m k e then let (x, w) := src r.1 e; (w, r.2 ++ [x]) else (r.1, r.2 ++ [{}])) (w, [])
    done (r.1.vecWrite c m k vd fun e => (r.2.getD e {}, []))

/-- An element of a vector register by an index of any size: past the last one the word is a free value (assumption 59). -/
def W.vecAt (w : W) (c : CoreId) (r i : Nat) : TWord × W :=
  if i < 8 then (w.vget c r i, w)
  else
    let (d, w) := w.fresh
    (⟨tRAW, d⟩, w)

/-- Byte `i` of the 64 bytes of a vector register; past the last one a free value (assumption 59). -/
def W.vecByte (w : W) (c : CoreId) (r i : Nat) : Nat × W :=
  if i < 64 then (lane 8 (w.vget c r (i / 8)).val (i % 8), w)
  else
    let (d, w) := w.fresh
    (d.toNat % 256, w)

/-- VSHUF.B: byte i of the result is the byte of va that byte i of vb names (assumption 59). -/
def shuffleWord (c : CoreId) (va vb : Nat) (w : W) (e : Nat) : TWord × W :=
  let r := (List.range 8).foldl (fun (r : W × List (Nat × FFlags)) (i : Nat) =>
    let (b, w) := r.1.vecByte c va (lane 8 (w.vget c vb e).val i)
    (w, r.2 ++ [(b, 0)])) (w, [])
  (⟨tRAW, BitVec.ofNat 64 (packLanes 8 r.2).1⟩, r.1)

/-- The elements of va that element `e` of a VSHUF.B reads: none may be POISON. -/
def W.shuffleOps (w : W) (c : CoreId) (va vb e : Nat) : List (TWord × (Tag → Bool)) :=
  let x := w.vget c vb e
  (x, isInt) :: ((List.range 8).filterMap fun i =>
    let j := lane 8 x.val i
    if j < 64 then some (w.vget c va (j / 8), isAny) else none)

/-- VSEL: active lanes from va, the others from vb; an element whose lanes come from both takes their common tag, and a free one where the tags
differ (assumption 60). -/
def selectBody (c : CoreId) (fmt msel vd va vb : Nat) : Body := fun w =>
  let m := w.maskReg c msel
  let k := vLanes fmt
  let on (e : Nat) : Bool := elemOn m k e
  let off (e : Nat) : Bool := (List.range k).any fun i => !laneOn m (e * k + i)
  let chk (e : Nat) : List (TWord × (Tag → Bool)) := (if on e then [(w.vget c va e, isAny)] else []) ++ if off e then [(w.vget c vb e, isAny)] else []
  match firstTrap (tagTrap (maskCheck m)) (firstOf ((List.range 8).map fun e => tagTrap (chk e))) with
  | some t => raise w t
  | none =>
    let v := w
    done ((List.range 8).foldl (fun (w : W) (e : Nat) =>
      let a := v.vget c va e
      let b := v.vget c vb e
      let (t, w) := if !off e || (on e && decide (a.tag = b.tag)) then (a.tag, w)
        else if !on e then (b.tag, w)
        else
          let (d, w) := w.fresh
          (d.setWidth 4, w)
      w.vput c vd e ⟨t, mergeLanes m k e b.val a.val⟩) w)

/-! ### Reductions (R217) -/

/-- Combine neighbours: 2i with 2i + 1. -/
def pairUp {α : Type} (f : α → α → α) : List α → List α
  | a :: b :: t => f a b :: pairUp f t
  | l => l

/-- A balanced tree over a power of two of values, by its number of levels. -/
def treeFold {α : Type} (f : α → α → α) : Nat → List α → List α
  | 0, l => l
  | n + 1, l => treeFold f n (pairUp f l)

/-- The lanes of a vector register with their activity. -/
def W.vecLanes (w : W) (c : CoreId) (fmt : Nat) (m : Option TWord) (va : Nat) : List (Option Nat) :=
  let k := vLanes fmt
  (List.range (8 * k)).map fun j => if laneOn m j then some (lane (vWidth fmt) (w.vget c va (j / k)).val (j % k)) else none

/-- A reduction into g[VD]: `f` on two values with flags; `none` where no lane counts. A minimum or maximum that met no other lane is that of the lane with
itself: a NaN is canonical, and a signalling one raises NV (R211, R217). -/
def reduceBody (c : CoreId) (fmt msel vd va : Nat) (pad : Bool) (f : Nat → Nat → Nat → Nat × FFlags) : Body := fun w =>
  let m := w.maskReg c msel
  let k := vLanes fmt
  match vecTrap m k [] (fun e => [(w.vget c va e, isTag (vTag fmt))]) with
  | some t => raise w t
  | none =>
    let rm := w.rmOf c 7
    let ls := (w.vecLanes c fmt m va).map fun x => ((if pad then some (x.getD 0) else x), (0 : FFlags))
    let node (x y : Option Nat × FFlags) : Option Nat × FFlags :=
      match x.1, y.1 with
      | some a, some b => let (r, g) := f rm a b; (some r, fOr g (fOr x.2 y.2))
      | some a, none => (some a, fOr x.2 y.2)
      | none, b => (b, fOr x.2 y.2)
    match (treeFold node 5 ls).head? with
    | some (some r, g) =>
      let (r, g) := if pad then (r, g) else let (q, h) := f rm r r; (q, fOr g h)
      done (w.putF c vd (⟨vTag fmt, BitVec.ofNat 64 (r % 2 ^ vWidth fmt)⟩, g))
    | _ =>
      let (d, w) := w.fresh
      done (w.putF c vd (⟨vTag fmt, BitVec.ofNat 64 (d.toNat % 2 ^ vWidth fmt)⟩, 0))

/-- VRSUM's addition: wrapping on INT. -/
def addLane (fmt rm a b : Nat) : Nat × FFlags := if fmt = 0 then ((a + b) % 2 ^ 64, 0) else fAdd (fFmt fmt) rm a b

/-- VRMIN's and VRMAX's choice: signed on INT, FMIN and FMAX otherwise. -/
def pickLane (isMax : Bool) (fmt _rm a b : Nat) : Nat × FFlags :=
  if fmt = 0 then ((minMaxR true isMax (BitVec.ofNat 64 a) (BitVec.ofNat 64 b)).toNat, 0) else fMinMax (fFmt fmt) isMax false a b

/-! ### VLD and VST (R204, R216) -/

/-- The registers that a MODE reads beside the base, and their checks (R204). -/
def W.vmForm (w : W) (c : CoreId) (mode d : Nat) : List (TWord × (Tag → Bool)) := if mode = 1 then [(w.gr c d, isInt)] else []

/-- The displacement of element `e` (R204). -/
def W.vmDelta (w : W) (c : CoreId) (mode d e : Nat) : Int :=
  match mode with
  | 0 => sext 11 d * 64 + 8 * (e : Int)
  | 1 => (w.gr c d).val.toInt * (e : Int)
  | 2 => 8 * (e : Int)
  | _ => (w.vget c d e).val.toInt

/-- The check of element `e`'s offset in MODE 3. -/
def W.vmIndex (w : W) (c : CoreId) (mode d e : Nat) : Option Trap := if mode = 3 then tagTrap [(w.vget c d e, isInt)] else none

/-- Load the active elements in order, lowest first, without writing a register. -/
def loadElems (c : CoreId) (pc mode d : Nat) (base : TWord) (m : Option TWord) : W → List Nat → W × Except Trap (List (Nat × TWord))
  | w, [] => (w, .ok [])
  | w, e :: t =>
    if !laneOn m e then loadElems c pc mode d base m w t
    else match w.vmIndex c mode d e with
      | some x => (w, .error x)
      | none => match w.resolve c base (w.vmDelta c mode d e) 8 .rd true with
        | (w, .error x) => (w, .error x)
        | (w, .ok ps) => match w.loadPieces c pc 8 false ps with
          | (w, .error x) => (w, .error x)
          | (w, .ok v) => match loadElems c pc mode d base m w t with
            | (w, .error x) => (w, .error x)
            | (w, .ok vs) => (w, .ok ((e, v) :: vs))

/-- Check the active elements of a store in order, lowest first. -/
def checkElems (c : CoreId) (mode vs d : Nat) (base : TWord) (m : Option TWord) : W → List Nat → W × Except Trap (List (TWord × List Piece))
  | w, [] => (w, .ok [])
  | w, e :: t =>
    if !laneOn m e then checkElems c mode vs d base m w t
    else
      let x := w.vget c vs e
      let delta := w.vmDelta c mode d e
      let whole := match w.peek c base delta with | some a => decide (a % 8 = 0) | none => true
      match firstTrap (w.vmIndex c mode d e) (storeTrap true whole x.tag) with
      | some k => (w, .error k)
      | none => match w.resolve c base delta 8 .wr true with
        | (w, .error k) => (w, .error k)
        | (w, .ok ps) =>
          if ps.any fun p => w.overwrites c p then (w, .error { code := 4 })
          else match checkElems c mode vs d base m w t with
            | (w, .error k) => (w, .error k)
            | (w, .ok r) => (w, .ok ((x, ps) :: r))

/-- The exception of the operands of a vector access: base, mask and register index, and, where one of these is refused, POISON that an active element
consumes, which comes first in the table of R218; `data` is what an element stores. -/
def W.vmTrap (w : W) (c : CoreId) (mode d : Nat) (base : TWord) (m : Option TWord) (data : Nat → Option TWord) : Option Trap :=
  match tagTrap ((base, isBase c) :: maskCheck m ++ w.vmForm c mode d) with
  | none => none
  | some t => firstTrap (some t) (firstOf ((List.range 8).map fun e =>
      if laneOn m e then firstTrap (w.vmIndex c mode d e) ((data e).bind fun x => tagTrap [(x, isAny)]) else none))

/-- VLD. -/
def vecLoad (c : CoreId) (mode msel vd ra d : Nat) : Body := fun w =>
  let pc := (w.core c).pc.toNat
  let base := w.gr c ra
  let m := w.maskReg c msel
  match w.vmTrap c mode d base m (fun _ => none) with
  | some t => raise w t
  | none => match loadElems c pc mode d base m w (List.range 8) with
    | (w, .error t) => raise w t
    | (w, .ok vs) =>
      let w := vs.foldl (fun (w : W) (q : Nat × TWord) => w.vput c vd q.1 q.2) w
      done (if mode = 2 then w.postInc c ra base (sext 11 d * 64) else w)

/-- VST. -/
def vecStore (c : CoreId) (mode msel vs ra d : Nat) : Body := fun w =>
  let pc := (w.core c).pc.toNat
  let base := w.gr c ra
  let m := w.maskReg c msel
  match w.vmTrap c mode d base m (fun e => some (w.vget c vs e)) with
  | some t => raise w t
  | none => match checkElems c mode vs d base m w (List.range 8) with
    | (w, .error t) => raise w t
    | (w, .ok xs) =>
      let w := xs.foldl (fun (w : W) (q : TWord × List Piece) => (w.storePieces c pc 8 q.1 q.2).1) w
      done (if mode = 2 then w.postInc c ra base (sext 11 d * 64) else w)

/-! ### The instructions -/

/-- VADD. -/
def execVadd (c : CoreId) (msel vd va vb : Nat) (s : State) : Host.Outcome State Fault Refusal :=
  liftNow (fun w => w.run c (.vadd c msel vd va vb) .V (vecInt c msel vd va vb fun a b => a + b)) s

/-- VSUB. -/
def execVsub (c : CoreId) (msel vd va vb : Nat) (s : State) : Host.Outcome State Fault Refusal :=
  liftNow (fun w => w.run c (.vsub c msel vd va vb) .V (vecInt c msel vd va vb fun a b => a - b)) s

/-- VMUL. -/
def execVmul (c : CoreId) (msel vd va vb : Nat) (s : State) : Host.Outcome State Fault Refusal :=
  liftNow (fun w => w.run c (.vmul c msel vd va vb) .V (vecInt c msel vd va vb fun a b => a * b)) s

/-- VAND. -/
def execVand (c : CoreId) (msel vd va vb : Nat) (s : State) : Host.Outcome State Fault Refusal :=
  liftNow (fun w => w.run c (.vand c msel vd va vb) .V (vecLogic c msel vd va vb fun a b => a &&& b)) s

/-- VOR. -/
def execVor (c : CoreId) (msel vd va vb : Nat) (s : State) : Host.Outcome State Fault Refusal :=
  liftNow (fun w => w.run c (.vor c msel vd va vb) .V (vecLogic c msel vd va vb fun a b => a ||| b)) s

/-- VXOR. -/
def execVxor (c : CoreId) (msel vd va vb : Nat) (s : State) : Host.Outcome State Fault Refusal :=
  liftNow (fun w => w.run c (.vxor c msel vd va vb) .V (vecLogic c msel vd va vb fun a b => a ^^^ b)) s

/-- VSLL. -/
def execVsll (c : CoreId) (msel vd va vb : Nat) (s : State) : Host.Outcome State Fault Refusal :=
  liftNow (fun w => w.run c (.vsll c msel vd va vb) .V (vecLogic c msel vd va vb fun a b => (shiftR .sll ⟨false, false, false, false⟩ a (b.toNat % 64)).1)) s

/-- VSRL. -/
def execVsrl (c : CoreId) (msel vd va vb : Nat) (s : State) : Host.Outcome State Fault Refusal :=
  liftNow (fun w => w.run c (.vsrl c msel vd va vb) .V (vecLogic c msel vd va vb fun a b => (shiftR .srl ⟨false, false, false, false⟩ a (b.toNat % 64)).1)) s

/-- VSRA. -/
def execVsra (c : CoreId) (msel vd va vb : Nat) (s : State) : Host.Outcome State Fault Refusal :=
  liftNow (fun w => w.run c (.vsra c msel vd va vb) .V (vecLogic c msel vd va vb fun a b => (shiftR .sra ⟨false, false, false, false⟩ a (b.toNat % 64)).1)) s

/-- VMIN: signed (assumption 57). -/
def execVmin (c : CoreId) (msel vd va vb : Nat) (s : State) : Host.Outcome State Fault Refusal :=
  liftNow (fun w => w.run c (.vmin c msel vd va vb) .V (vecInt c msel vd va vb fun a b => minMaxR true false a b)) s

/-- VMAX: signed (assumption 57). -/
def execVmax (c : CoreId) (msel vd va vb : Nat) (s : State) : Host.Outcome State Fault Refusal :=
  liftNow (fun w => w.run c (.vmax c msel vd va vb) .V (vecInt c msel vd va vb fun a b => minMaxR true true a b)) s

/-- VCMPEQ. -/
def execVcmpeq (c : CoreId) (fmt msel vd va vb : Nat) (s : State) : Host.Outcome State Fault Refusal :=
  liftNow (fun w => w.run c (.vcmpeq c fmt msel vd va vb) .V (vecCompare c 0 fmt msel vd va vb)) s

/-- VCMPNE. -/
def execVcmpne (c : CoreId) (fmt msel vd va vb : Nat) (s : State) : Host.Outcome State Fault Refusal :=
  liftNow (fun w => w.run c (.vcmpne c fmt msel vd va vb) .V (vecCompare c 1 fmt msel vd va vb)) s

/-- VCMPLT. -/
def execVcmplt (c : CoreId) (fmt msel vd va vb : Nat) (s : State) : Host.Outcome State Fault Refusal :=
  liftNow (fun w => w.run c (.vcmplt c fmt msel vd va vb) .V (vecCompare c 2 fmt msel vd va vb)) s

/-- VCMPLE. -/
def execVcmple (c : CoreId) (fmt msel vd va vb : Nat) (s : State) : Host.Outcome State Fault Refusal :=
  liftNow (fun w => w.run c (.vcmple c fmt msel vd va vb) .V (vecCompare c 3 fmt msel vd va vb)) s

/-- VFADD. -/
def execVfadd (c : CoreId) (fmt msel vd va vb : Nat) (s : State) : Host.Outcome State Fault Refusal :=
  liftNow (fun w => w.run c (.vfadd c fmt msel vd va vb) .V (vecFloat2 c fmt msel vd va vb fAdd)) s

/-- VFSUB. -/
def execVfsub (c : CoreId) (fmt msel vd va vb : Nat) (s : State) : Host.Outcome State Fault Refusal :=
  liftNow (fun w => w.run c (.vfsub c fmt msel vd va vb) .V (vecFloat2 c fmt msel vd va vb fSub)) s

/-- VFMUL. -/
def execVfmul (c : CoreId) (fmt msel vd va vb : Nat) (s : State) : Host.Outcome State Fault Refusal :=
  liftNow (fun w => w.run c (.vfmul c fmt msel vd va vb) .V (vecFloat2 c fmt msel vd va vb fMul)) s

/-- VFDIV. -/
def execVfdiv (c : CoreId) (fmt msel vd va vb : Nat) (s : State) : Host.Outcome State Fault Refusal :=
  liftNow (fun w => w.run c (.vfdiv c fmt msel vd va vb) .V (vecFloat2 c fmt msel vd va vb fDiv)) s

/-- VFSQRT. -/
def execVfsqrt (c : CoreId) (fmt msel vd va : Nat) (s : State) : Host.Outcome State Fault Refusal :=
  liftNow (fun w => w.run c (.vfsqrt c fmt msel vd va) .V (vecFloat c fmt msel vd [va] fun f rm l => fSqrt f rm (l.getD 0 0))) s

/-- VFMIN. -/
def execVfmin (c : CoreId) (fmt msel vd va vb : Nat) (s : State) : Host.Outcome State Fault Refusal :=
  liftNow (fun w => w.run c (.vfmin c fmt msel vd va vb) .V (vecFloat2 c fmt msel vd va vb fun f _ => fMinMax f false false)) s

/-- VFMAX. -/
def execVfmax (c : CoreId) (fmt msel vd va vb : Nat) (s : State) : Host.Outcome State Fault Refusal :=
  liftNow (fun w => w.run c (.vfmax c fmt msel vd va vb) .V (vecFloat2 c fmt msel vd va vb fun f _ => fMinMax f true false)) s

/-- VCMUL. -/
def execVcmul (c : CoreId) (msel vd va vb : Nat) (s : State) : Host.Outcome State Fault Refusal :=
  liftNow (fun w => w.run c (.vcmul c msel vd va vb) .V (vecComplex c msel vd va vb false false)) s

/-- VCMULC. -/
def execVcmulc (c : CoreId) (msel vd va vb : Nat) (s : State) : Host.Outcome State Fault Refusal :=
  liftNow (fun w => w.run c (.vcmulc c msel vd va vb) .V (vecComplex c msel vd va vb true false)) s

/-- VFMA: vd + va × vb. -/
def execVfma (c : CoreId) (fmt msel vd va vb : Nat) (s : State) : Host.Outcome State Fault Refusal :=
  liftNow (fun w => w.run c (.vfma c fmt msel vd va vb) .V (vecFloat c fmt msel vd [va, vb, vd] fun f rm l => fFma f rm false false (l.getD 0 0) (l.getD 1 0) (l.getD 2 0))) s

/-- VFMS: vd - va × vb. -/
def execVfms (c : CoreId) (fmt msel vd va vb : Nat) (s : State) : Host.Outcome State Fault Refusal :=
  liftNow (fun w => w.run c (.vfms c fmt msel vd va vb) .V (vecFloat c fmt msel vd [va, vb, vd] fun f rm l => fFma f rm true false (l.getD 0 0) (l.getD 1 0) (l.getD 2 0))) s

/-- VCMULA. -/
def execVcmula (c : CoreId) (msel vd va vb : Nat) (s : State) : Host.Outcome State Fault Refusal :=
  liftNow (fun w => w.run c (.vcmula c msel vd va vb) .V (vecComplex c msel vd va vb false true)) s

/-- VBCAST: g[VA] in every active element. -/
def execVbcast (c : CoreId) (fmt msel vd va : Nat) (s : State) : Host.Outcome State Fault Refusal :=
  liftNow (fun w => w.run c (.vbcast c fmt msel vd va) .V (fun w =>
    let a := w.gr c va
    vecMove c fmt msel vd (fun _ => [(a, isAny)]) (fun w _ => (a, w)) w)) s

/-- VINS: g[VA] in element idx. -/
def execVins (c : CoreId) (fmt msel vd va idx : Nat) (s : State) : Host.Outcome State Fault Refusal :=
  liftNow (fun w => w.run c (.vins c fmt msel vd va idx) .V (fun w =>
    let a := w.gr c va
    let m := w.maskReg c msel
    let k := vLanes fmt
    match tagTrap (maskCheck m ++ if elemOn m k idx then [(a, isAny)] else []) with
    | some t => raise w t
    | none =>
      if elemOn m k idx then done (w.vput c vd idx ⟨a.tag, mergeLanes m k idx (w.vget c vd idx).val a.val⟩) else done w)) s

/-- VEXT: element idx to g[VD]. -/
def execVext (c : CoreId) (vd va idx : Nat) (s : State) : Host.Outcome State Fault Refusal :=
  liftNow (fun w => w.run c (.vext c vd va idx) .V (fun w =>
    let x := w.vget c va idx
    withTags [(x, isAny)] (fun w => done (w.setG c vd x)) w)) s

/-- The operands of element `e` of a VPERM: its index, and the element of va that a valid one names. -/
def W.permOps (w : W) (c : CoreId) (va vb e : Nat) : List (TWord × (Tag → Bool)) :=
  let x := w.vget c vb e
  (x, isInt) :: if x.tag = tINT ∧ x.val.toNat < 8 then [(w.vget c va x.val.toNat, isAny)] else []

/-- VPERM: element e is the element of va that vb names. -/
def execVperm (c : CoreId) (fmt msel vd va vb : Nat) (s : State) : Host.Outcome State Fault Refusal :=
  liftNow (fun w => w.run c (.vperm c fmt msel vd va vb) .V (fun w =>
    vecMove c fmt msel vd (w.permOps c va vb) (fun x e => x.vecAt c va (w.vget c vb e).val.toNat) w)) s

/-- VSHUF.B: RAW result. -/
def execVshufB (c : CoreId) (fmt msel vd va vb : Nat) (s : State) : Host.Outcome State Fault Refusal :=
  liftNow (fun w => w.run c (.vshufB c fmt msel vd va vb) .V (fun w => vecMove c fmt msel vd (w.shuffleOps c va vb) (fun x e => shuffleWord c va vb x e) w)) s

/-- VSEL. -/
def execVsel (c : CoreId) (fmt msel vd va vb : Nat) (s : State) : Host.Outcome State Fault Refusal :=
  liftNow (fun w => w.run c (.vsel c fmt msel vd va vb) .V (selectBody c fmt msel vd va vb)) s

/-- VRETAG, under the RETAG rules (assumption 52). -/
def execVretag (c : CoreId) (fmt msel vd va tag : Nat) (s : State) : Host.Outcome State Fault Refusal :=
  liftNow (fun w => w.run c (.vretag c fmt msel vd va tag) .V (fun w =>
    if 6 ≤ tag then raise w { code := 1 }
    else vecMove c fmt msel vd (fun e => [(w.vget c va e, isNum)]) (fun x e => ({ w.vget c va e with tag := BitVec.ofNat 4 tag }, x)) w)) s

/-- VRSUM. -/
def execVrsum (c : CoreId) (fmt msel vd va : Nat) (s : State) : Host.Outcome State Fault Refusal :=
  liftNow (fun w => w.run c (.vrsum c fmt msel vd va) .V (reduceBody c fmt msel vd va true (addLane fmt))) s

/-- VRMIN (assumption 61). -/
def execVrmin (c : CoreId) (fmt msel vd va : Nat) (s : State) : Host.Outcome State Fault Refusal :=
  liftNow (fun w => w.run c (.vrmin c fmt msel vd va) .V (reduceBody c fmt msel vd va false (pickLane false fmt))) s

/-- VRMAX (assumption 61). -/
def execVrmax (c : CoreId) (fmt msel vd va : Nat) (s : State) : Host.Outcome State Fault Refusal :=
  liftNow (fun w => w.run c (.vrmax c fmt msel vd va) .V (reduceBody c fmt msel vd va false (pickLane true fmt))) s

/-- VLD. -/
def execVld (c : CoreId) (mode msel vd ra d : Nat) (s : State) : Host.Outcome State Fault Refusal :=
  liftNow (fun w => w.run c (.vld c mode msel vd ra d) .V (vecLoad c mode msel vd ra d)) s

/-- VST. -/
def execVst (c : CoreId) (mode msel vd ra d : Nat) (s : State) : Host.Outcome State Fault Refusal :=
  liftNow (fun w => w.run c (.vst c mode msel vd ra d) .V (vecStore c mode msel vd ra d)) s

end Sys2Proof.Machine
end

