-- ==== Sys2Proof/Machine/Dispatch.lean ====
section
/-! DEFINITION. One arm for each command: a direct call of its meaning. -/

namespace Sys2Proof.Machine

open Sys2Proof

def exec (i : Instr) (s : State) : Host.Outcome State Fault Refusal :=
  match i with
  | .resetAssert pin => Sys2Proof.Machine.execResetAssert pin s
  | .resetRelease pair slot => Sys2Proof.Machine.execResetRelease pair slot s
  | .railOutOfRange => Sys2Proof.Machine.execRailOutOfRange s
  | .powerFailAccept => Sys2Proof.Machine.execPowerFailAccept s
  | .flushWritesDone => Sys2Proof.Machine.execFlushWritesDone s
  | .keeperSelftestDone a b => Sys2Proof.Machine.execKeeperSelftestDone a b s
  | .bootSlotSelect flash0 flash1 => Sys2Proof.Machine.execBootSlotSelect flash0 flash1 s
  | .pllLock ok => Sys2Proof.Machine.execPllLock ok s
  | .knownAnswerTests rime kdu cores => Sys2Proof.Machine.execKnownAnswerTests rime kdu cores s
  | .unitSelftestDone failed => Sys2Proof.Machine.execUnitSelftestDone failed s
  | .trainingDone kind passed gib => Sys2Proof.Machine.execTrainingDone kind passed gib s
  | .patchSetLoad crnAddr engAddr crnSet engSet => Sys2Proof.Machine.execPatchSetLoad crnAddr engAddr crnSet engSet s
  | .cirqueStart ok cores addr pc => Sys2Proof.Machine.execCirqueStart ok cores addr pc s
  | .bootGo src first pwait => Sys2Proof.Machine.execBootGo src first pwait s
  | .pwaitExpiry => Sys2Proof.Machine.execPwaitExpiry s
  | .thawExit => Sys2Proof.Machine.execThawExit s
  | .rootKeyBurn src => Sys2Proof.Machine.execRootKeyBurn src s
  | .rootKeyBurnDone ok => Sys2Proof.Machine.execRootKeyBurnDone ok s
  | .modereqStandby src => Sys2Proof.Machine.execModereqStandby src s
  | .modereqRecovery src => Sys2Proof.Machine.execModereqRecovery src s
  | .modereqMaint src => Sys2Proof.Machine.execModereqMaint src s
  | .modereqReturn src target => Sys2Proof.Machine.execModereqReturn src target s
  | .subsysReadyChange => Sys2Proof.Machine.execSubsysReadyChange s
  | .registerWrite src world off n v => Sys2Proof.Machine.execRegisterWrite src world off n v s
  | .clearingRead src world reg e => Sys2Proof.Machine.execClearingRead src world reg e s
  | .wideRegisterLatch src reg e => Sys2Proof.Machine.execWideRegisterLatch src reg e s
  | .commandComplete reg e => Sys2Proof.Machine.execCommandComplete reg e s
  | .crpHello q bytes => Sys2Proof.Machine.execCrpHello q bytes s
  | .crpSubmit q bytes => Sys2Proof.Machine.execCrpSubmit q bytes s
  | .crpCack q bytes => Sys2Proof.Machine.execCrpCack q bytes s
  | .crpPing q bytes => Sys2Proof.Machine.execCrpPing q bytes s
  | .crpPong q bytes => Sys2Proof.Machine.execCrpPong q bytes s
  | .keepaliveIdle q => Sys2Proof.Machine.execKeepaliveIdle q s
  | .keepaliveMiss q => Sys2Proof.Machine.execKeepaliveMiss q s
  | .tokenRefill => Sys2Proof.Machine.execTokenRefill s
  | .engineAssign t => Sys2Proof.Machine.execEngineAssign t s
  | .contextLoad chid => Sys2Proof.Machine.execContextLoad chid s
  | .noctxRetry chid => Sys2Proof.Machine.execNoctxRetry chid s
  | .engineWatchdog e => Sys2Proof.Machine.execEngineWatchdog e s
  | .reserve t => Sys2Proof.Machine.execReserve t s
  | .intent t => Sys2Proof.Machine.execIntent t s
  | .accept t => Sys2Proof.Machine.execAccept t s
  | .fetch t => Sys2Proof.Machine.execFetch t s
  | .deliver t => Sys2Proof.Machine.execDeliver t s
  | .kernel t => Sys2Proof.Machine.execKernel t s
  | .compress t => Sys2Proof.Machine.execCompress t s
  | .inflate t => Sys2Proof.Machine.execInflate t s
  | .seal t => Sys2Proof.Machine.execSeal t s
  | .unseal t => Sys2Proof.Machine.execUnseal t s
  | .stwrite t => Sys2Proof.Machine.execStwrite t s
  | .stread t => Sys2Proof.Machine.execStread t s
  | .digest t => Sys2Proof.Machine.execDigest t s
  | .waitio t => Sys2Proof.Machine.execWaitio t s
  | .commit t => Sys2Proof.Machine.execCommit t s
  | .segloop t => Sys2Proof.Machine.execSegloop t s
  | .jump t => Sys2Proof.Machine.execJump t s
  | .notify t => Sys2Proof.Machine.execNotify t s
  | .fail t => Sys2Proof.Machine.execFail t s
  | .release t => Sys2Proof.Machine.execRelease t s
  | .neveRequest => Sys2Proof.Machine.execNeveRequest s
  | .nobufRetry n => Sys2Proof.Machine.execNobufRetry n s
  | .noslotRetry t => Sys2Proof.Machine.execNoslotRetry t s
  | .spillAge t k => Sys2Proof.Machine.execSpillAge t k s
  | .spillReadback t k => Sys2Proof.Machine.execSpillReadback t k s
  | .deadlineExpiry t => Sys2Proof.Machine.execDeadlineExpiry t s
  | .deadlineWheelSort => Sys2Proof.Machine.execDeadlineWheelSort s
  | .nvmeCompletion port tag status => Sys2Proof.Machine.execNvmeCompletion port tag status s
  | .nvmeTimeout port tag => Sys2Proof.Machine.execNvmeTimeout port tag s
  | .replayWaitExpiry chid => Sys2Proof.Machine.execReplayWaitExpiry chid s
  | .ctxOpen src chid => Sys2Proof.Machine.execCtxOpen src chid s
  | .ctxQuiesce src chid => Sys2Proof.Machine.execCtxQuiesce src chid s
  | .ctxAbort src chid => Sys2Proof.Machine.execCtxAbort src chid s
  | .ctxClose src chid => Sys2Proof.Machine.execCtxClose src chid s
  | .ctxWriteback src chid => Sys2Proof.Machine.execCtxWriteback src chid s
  | .auditSnap src scope port index => Sys2Proof.Machine.execAuditSnap src scope port index s
  | .auditLatch => Sys2Proof.Machine.execAuditLatch s
  | .cmpJobStart e => Sys2Proof.Machine.execCmpJobStart e s
  | .cmpExtensionRetry j => Sys2Proof.Machine.execCmpExtensionRetry j s
  | .cmpSuspend e => Sys2Proof.Machine.execCmpSuspend e s
  | .cmpJobEnd e => Sys2Proof.Machine.execCmpJobEnd e s
  | .cmpDecodeFail e => Sys2Proof.Machine.execCmpDecodeFail e s
  | .cmpCancel j => Sys2Proof.Machine.execCmpCancel j s
  | .cmpEngineFault e => Sys2Proof.Machine.execCmpEngineFault e s
  | .bufferScrubDone n => Sys2Proof.Machine.execBufferScrubDone n s
  | .cipJobStart u => Sys2Proof.Machine.execCipJobStart u s
  | .keyRequest j => Sys2Proof.Machine.execKeyRequest j s
  | .keyDerivationDone n => Sys2Proof.Machine.execKeyDerivationDone n s
  | .cipJobEnd u => Sys2Proof.Machine.execCipJobEnd u s
  | .cipSuspend u => Sys2Proof.Machine.execCipSuspend u s
  | .cipCoreFault u => Sys2Proof.Machine.execCipCoreFault u s
  | .cipCancel j => Sys2Proof.Machine.execCipCancel j s
  | .loadZeroDone t => Sys2Proof.Machine.execLoadZeroDone t s
  | .kdfActivate src world purp epoch => Sys2Proof.Machine.execKdfActivate src world purp epoch s
  | .kdfRoll src world purp epoch => Sys2Proof.Machine.execKdfRoll src world purp epoch s
  | .kdfRetire src world purp epoch => Sys2Proof.Machine.execKdfRetire src world purp epoch s
  | .kdfRevoke src world purp epoch => Sys2Proof.Machine.execKdfRevoke src world purp epoch s
  | .kdfFlush src world purp epoch => Sys2Proof.Machine.execKdfFlush src world purp epoch s
  | .revokeSweepDone => Sys2Proof.Machine.execRevokeSweepDone s
  | .segmentLoad => Sys2Proof.Machine.execSegmentLoad s
  | .kernelBudget n => Sys2Proof.Machine.execKernelBudget n s
  | .loaderWatchdog n => Sys2Proof.Machine.execLoaderWatchdog n s
  | .floeCoreFault n => Sys2Proof.Machine.execFloeCoreFault n s
  | .segmentCancel g => Sys2Proof.Machine.execSegmentCancel g s
  | .kernelExchange src att chid => Sys2Proof.Machine.execKernelExchange src att chid s
  | .l2maskWrite src cluster entry world ways => Sys2Proof.Machine.execL2maskWrite src cluster entry world ways s
  | .wldActivate src slot world => Sys2Proof.Machine.execWldActivate src slot world s
  | .wldSuspend src slot world => Sys2Proof.Machine.execWldSuspend src slot world s
  | .wldResume src slot world => Sys2Proof.Machine.execWldResume src slot world s
  | .wldRevoke src slot world => Sys2Proof.Machine.execWldRevoke src slot world s
  | .wldDeactivate src slot world => Sys2Proof.Machine.execWldDeactivate src slot world s
  | .wldReload src slot world => Sys2Proof.Machine.execWldReload src slot world s
  | .svcQuery q bytes => Sys2Proof.Machine.execSvcQuery q bytes s
  | .svcKload q bytes image kid codebase faultlim => Sys2Proof.Machine.execSvcKload q bytes image kid codebase faultlim s
  | .svcKretire q bytes => Sys2Proof.Machine.execSvcKretire q bytes s
  | .svcLoad q bytes desc prio tag => Sys2Proof.Machine.execSvcLoad q bytes desc prio tag s
  | .svcAdmin q bytes reply => Sys2Proof.Machine.execSvcAdmin q bytes reply s
  | .serviceReplyRelease n => Sys2Proof.Machine.execServiceReplyRelease n s
  | .loadStart desc => Sys2Proof.Machine.execLoadStart desc s
  | .loadEnd t => Sys2Proof.Machine.execLoadEnd t s
  | .ownAssign src rights ksel world count => Sys2Proof.Machine.execOwnAssign src rights ksel world count s
  | .ownSetrights src rights ksel world count => Sys2Proof.Machine.execOwnSetrights src rights ksel world count s
  | .ownShare src rights ksel world count => Sys2Proof.Machine.execOwnShare src rights ksel world count s
  | .ownUnshare src rights ksel world count => Sys2Proof.Machine.execOwnUnshare src rights ksel world count s
  | .ownRelease src rights ksel world count => Sys2Proof.Machine.execOwnRelease src rights ksel world count s
  | .ownScrub src rights ksel world count => Sys2Proof.Machine.execOwnScrub src rights ksel world count s
  | .ownEnable src => Sys2Proof.Machine.execOwnEnable src s
  | .pinownWrite src pin world drive sense => Sys2Proof.Machine.execPinownWrite src pin world drive sense s
  | .memoryUe pa => Sys2Proof.Machine.execMemoryUe pa s
  | .patrolScrub pa found => Sys2Proof.Machine.execPatrolScrub pa found s
  | .restartGo src limit => Sys2Proof.Machine.execRestartGo src limit s
  | .keeperWatchdog flash0 flash1 => Sys2Proof.Machine.execKeeperWatchdog flash0 flash1 s
  | .restartDone src limit => Sys2Proof.Machine.execRestartDone src limit s
  | .restartLimit => Sys2Proof.Machine.execRestartLimit s
  | .measExtend src index => Sys2Proof.Machine.execMeasExtend src index s
  | .add c rd ra rb f => Sys2Proof.Machine.execAdd c rd ra rb f s
  | .sub c rd ra rb f => Sys2Proof.Machine.execSub c rd ra rb f s
  | .adc c rd ra rb f => Sys2Proof.Machine.execAdc c rd ra rb f s
  | .sbc c rd ra rb f => Sys2Proof.Machine.execSbc c rd ra rb f s
  | .and c rd ra rb f => Sys2Proof.Machine.execAnd c rd ra rb f s
  | .or c rd ra rb f => Sys2Proof.Machine.execOr c rd ra rb f s
  | .xor c rd ra rb f => Sys2Proof.Machine.execXor c rd ra rb f s
  | .andn c rd ra rb f => Sys2Proof.Machine.execAndn c rd ra rb f s
  | .sll c rd ra rb f => Sys2Proof.Machine.execSll c rd ra rb f s
  | .srl c rd ra rb f => Sys2Proof.Machine.execSrl c rd ra rb f s
  | .sra c rd ra rb f => Sys2Proof.Machine.execSra c rd ra rb f s
  | .ror c rd ra rb f => Sys2Proof.Machine.execRor c rd ra rb f s
  | .slli c rd ra sh f => Sys2Proof.Machine.execSlli c rd ra sh f s
  | .srli c rd ra sh f => Sys2Proof.Machine.execSrli c rd ra sh f s
  | .srai c rd ra sh f => Sys2Proof.Machine.execSrai c rd ra sh f s
  | .rori c rd ra sh f => Sys2Proof.Machine.execRori c rd ra sh f s
  | .mul c rd ra rb f => Sys2Proof.Machine.execMul c rd ra rb f s
  | .mulhs c rd ra rb => Sys2Proof.Machine.execMulhs c rd ra rb s
  | .mulhu c rd ra rb => Sys2Proof.Machine.execMulhu c rd ra rb s
  | .divs c rd ra rb => Sys2Proof.Machine.execDivs c rd ra rb s
  | .divu c rd ra rb => Sys2Proof.Machine.execDivu c rd ra rb s
  | .rems c rd ra rb => Sys2Proof.Machine.execRems c rd ra rb s
  | .remu c rd ra rb => Sys2Proof.Machine.execRemu c rd ra rb s
  | .divsw c rd ra rb => Sys2Proof.Machine.execDivsw c rd ra rb s
  | .divuw c rd ra rb => Sys2Proof.Machine.execDivuw c rd ra rb s
  | .remsw c rd ra rb => Sys2Proof.Machine.execRemsw c rd ra rb s
  | .remuw c rd ra rb => Sys2Proof.Machine.execRemuw c rd ra rb s
  | .cmp c ra rb => Sys2Proof.Machine.execCmp c ra rb s
  | .cmpa c ra rb => Sys2Proof.Machine.execCmpa c ra rb s
  | .mins c rd ra rb => Sys2Proof.Machine.execMins c rd ra rb s
  | .maxs c rd ra rb => Sys2Proof.Machine.execMaxs c rd ra rb s
  | .minu c rd ra rb => Sys2Proof.Machine.execMinu c rd ra rb s
  | .maxu c rd ra rb => Sys2Proof.Machine.execMaxu c rd ra rb s
  | .mov c rd ra => Sys2Proof.Machine.execMov c rd ra s
  | .pick c cond rd ra rb => Sys2Proof.Machine.execPick c cond rd ra rb s
  | .clz c rd ra => Sys2Proof.Machine.execClz c rd ra s
  | .ctz c rd ra => Sys2Proof.Machine.execCtz c rd ra s
  | .popc c rd ra => Sys2Proof.Machine.execPopc c rd ra s
  | .brev64 c rd ra => Sys2Proof.Machine.execBrev64 c rd ra s
  | .bswap c rd ra => Sys2Proof.Machine.execBswap c rd ra s
  | .addi c rd ra imm => Sys2Proof.Machine.execAddi c rd ra imm s
  | .andi c rd ra imm => Sys2Proof.Machine.execAndi c rd ra imm s
  | .ori c rd ra imm => Sys2Proof.Machine.execOri c rd ra imm s
  | .xori c rd ra imm => Sys2Proof.Machine.execXori c rd ra imm s
  | .cmpi c ra imm => Sys2Proof.Machine.execCmpi c ra imm s
  | .seth c rd hw imm => Sys2Proof.Machine.execSeth c rd hw imm s
  | .insh c rd hw imm => Sys2Proof.Machine.execInsh c rd hw imm s
  | .haddi c rd ra imm => Sys2Proof.Machine.execHaddi c rd ra imm s
  | .li48 c rd imm => Sys2Proof.Machine.execLi48 c rd imm s
  | .orh c rd imm => Sys2Proof.Machine.execOrh c rd imm s
  | .ld c mode sx sz rd ra d => Sys2Proof.Machine.execLd c mode sx sz rd ra d s
  | .st c mode sz rd ra d => Sys2Proof.Machine.execSt c mode sz rd ra d s
  | .lr c rd ra => Sys2Proof.Machine.execLr c rd ra s
  | .sc c rd ra rb => Sys2Proof.Machine.execSc c rd ra rb s
  | .atswap c rd ra rb => Sys2Proof.Machine.execAtswap c rd ra rb s
  | .atadd c rd ra rb => Sys2Proof.Machine.execAtadd c rd ra rb s
  | .atand c rd ra rb => Sys2Proof.Machine.execAtand c rd ra rb s
  | .ator c rd ra rb => Sys2Proof.Machine.execAtor c rd ra rb s
  | .atxor c rd ra rb => Sys2Proof.Machine.execAtxor c rd ra rb s
  | .atmins c rd ra rb => Sys2Proof.Machine.execAtmins c rd ra rb s
  | .atmaxs c rd ra rb => Sys2Proof.Machine.execAtmaxs c rd ra rb s
  | .atminu c rd ra rb => Sys2Proof.Machine.execAtminu c rd ra rb s
  | .atmaxu c rd ra rb => Sys2Proof.Machine.execAtmaxu c rd ra rb s
  | .atcas c rd ra rb => Sys2Proof.Machine.execAtcas c rd ra rb s
  | .hadd c rd ra rb => Sys2Proof.Machine.execHadd c rd ra rb s
  | .hoff c rd ra => Sys2Proof.Machine.execHoff c rd ra s
  | .hlen c rd ra => Sys2Proof.Machine.execHlen c rd ra s
  | .hseto c rd ra rb => Sys2Proof.Machine.execHseto c rd ra rb s
  | .gtag c rd ra => Sys2Proof.Machine.execGtag c rd ra s
  | .retag c rd ra tag => Sys2Proof.Machine.execRetag c rd ra tag s
  | .fadd c fmt rm rd ra rb => Sys2Proof.Machine.execFadd c fmt rm rd ra rb s
  | .fsub c fmt rm rd ra rb => Sys2Proof.Machine.execFsub c fmt rm rd ra rb s
  | .fmul c fmt rm rd ra rb => Sys2Proof.Machine.execFmul c fmt rm rd ra rb s
  | .fdiv c fmt rm rd ra rb => Sys2Proof.Machine.execFdiv c fmt rm rd ra rb s
  | .fsqrt c fmt rm rd ra => Sys2Proof.Machine.execFsqrt c fmt rm rd ra s
  | .fmin c fmt rd ra rb => Sys2Proof.Machine.execFmin c fmt rd ra rb s
  | .fmax c fmt rd ra rb => Sys2Proof.Machine.execFmax c fmt rd ra rb s
  | .fminn c fmt rd ra rb => Sys2Proof.Machine.execFminn c fmt rd ra rb s
  | .fmaxn c fmt rd ra rb => Sys2Proof.Machine.execFmaxn c fmt rd ra rb s
  | .fcmp c fmt ra rb => Sys2Proof.Machine.execFcmp c fmt ra rb s
  | .fcvtFi c fmt rm rd ra uns => Sys2Proof.Machine.execFcvtFi c fmt rm rd ra uns s
  | .fcvtIf c fmt rm rd ra uns => Sys2Proof.Machine.execFcvtIf c fmt rm rd ra uns s
  | .frint c fmt rm rd ra => Sys2Proof.Machine.execFrint c fmt rm rd ra s
  | .fabs c fmt rd ra => Sys2Proof.Machine.execFabs c fmt rd ra s
  | .fneg c fmt rd ra => Sys2Proof.Machine.execFneg c fmt rd ra s
  | .fcvtFf c src dst rm rd ra rb => Sys2Proof.Machine.execFcvtFf c src dst rm rd ra rb s
  | .fma c fmt rd ra rb rc => Sys2Proof.Machine.execFma c fmt rd ra rb rc s
  | .fms c fmt rd ra rb rc => Sys2Proof.Machine.execFms c fmt rd ra rb rc s
  | .fnma c fmt rd ra rb rc => Sys2Proof.Machine.execFnma c fmt rd ra rb rc s
  | .fnms c fmt rd ra rb rc => Sys2Proof.Machine.execFnms c fmt rd ra rb rc s
  | .bc c cond off => Sys2Proof.Machine.execBc c cond off s
  | .bl c cond off => Sys2Proof.Machine.execBl c cond off s
  | .cb c ra kind tag off => Sys2Proof.Machine.execCb c ra kind tag off s
  | .jr c ra => Sys2Proof.Machine.execJr c ra s
  | .jalr c rd ra => Sys2Proof.Machine.execJalr c rd ra s
  | .sret c => Sys2Proof.Machine.execSret c s
  | .eret c => Sys2Proof.Machine.execEret c s
  | .wfi c => Sys2Proof.Machine.execWfi c s
  | .svc c code => Sys2Proof.Machine.execSvc c code s
  | .brk c => Sys2Proof.Machine.execBrk c s
  | .mfsr c rd n => Sys2Proof.Machine.execMfsr c rd n s
  | .mtsr c rs n => Sys2Proof.Machine.execMtsr c rs n s
  | .rdtime c rd => Sys2Proof.Machine.execRdtime c rd s
  | .fence c kind => Sys2Proof.Machine.execFence c kind s
  | .tinvVa c ra => Sys2Proof.Machine.execTinvVa c ra s
  | .tinvWorld c => Sys2Proof.Machine.execTinvWorld c s
  | .tinvAll c => Sys2Proof.Machine.execTinvAll c s
  | .hinv c ra => Sys2Proof.Machine.execHinv c ra s
  | .tagset c ra tag => Sys2Proof.Machine.execTagset c ra tag s
  | .dcClean c ra => Sys2Proof.Machine.execDcClean c ra s
  | .dcInv c ra => Sys2Proof.Machine.execDcInv c ra s
  | .dcCiv c ra => Sys2Proof.Machine.execDcCiv c ra s
  | .icInv c ra => Sys2Proof.Machine.execIcInv c ra s
  | .movblk c rd ra rb => Sys2Proof.Machine.execMovblk c rd ra rb s
  | .tagscrub c rd ra tag zero => Sys2Proof.Machine.execTagscrub c rd ra tag zero s
  | .crc c rd ra rb poly => Sys2Proof.Machine.execCrc c rd ra rb poly s
  | .vadd c msel vd va vb => Sys2Proof.Machine.execVadd c msel vd va vb s
  | .vsub c msel vd va vb => Sys2Proof.Machine.execVsub c msel vd va vb s
  | .vmul c msel vd va vb => Sys2Proof.Machine.execVmul c msel vd va vb s
  | .vand c msel vd va vb => Sys2Proof.Machine.execVand c msel vd va vb s
  | .vor c msel vd va vb => Sys2Proof.Machine.execVor c msel vd va vb s
  | .vxor c msel vd va vb => Sys2Proof.Machine.execVxor c msel vd va vb s
  | .vsll c msel vd va vb => Sys2Proof.Machine.execVsll c msel vd va vb s
  | .vsrl c msel vd va vb => Sys2Proof.Machine.execVsrl c msel vd va vb s
  | .vsra c msel vd va vb => Sys2Proof.Machine.execVsra c msel vd va vb s
  | .vmin c msel vd va vb => Sys2Proof.Machine.execVmin c msel vd va vb s
  | .vmax c msel vd va vb => Sys2Proof.Machine.execVmax c msel vd va vb s
  | .vcmpeq c fmt msel vd va vb => Sys2Proof.Machine.execVcmpeq c fmt msel vd va vb s
  | .vcmpne c fmt msel vd va vb => Sys2Proof.Machine.execVcmpne c fmt msel vd va vb s
  | .vcmplt c fmt msel vd va vb => Sys2Proof.Machine.execVcmplt c fmt msel vd va vb s
  | .vcmple c fmt msel vd va vb => Sys2Proof.Machine.execVcmple c fmt msel vd va vb s
  | .vfadd c fmt msel vd va vb => Sys2Proof.Machine.execVfadd c fmt msel vd va vb s
  | .vfsub c fmt msel vd va vb => Sys2Proof.Machine.execVfsub c fmt msel vd va vb s
  | .vfmul c fmt msel vd va vb => Sys2Proof.Machine.execVfmul c fmt msel vd va vb s
  | .vfdiv c fmt msel vd va vb => Sys2Proof.Machine.execVfdiv c fmt msel vd va vb s
  | .vfsqrt c fmt msel vd va => Sys2Proof.Machine.execVfsqrt c fmt msel vd va s
  | .vfmin c fmt msel vd va vb => Sys2Proof.Machine.execVfmin c fmt msel vd va vb s
  | .vfmax c fmt msel vd va vb => Sys2Proof.Machine.execVfmax c fmt msel vd va vb s
  | .vcmul c msel vd va vb => Sys2Proof.Machine.execVcmul c msel vd va vb s
  | .vcmulc c msel vd va vb => Sys2Proof.Machine.execVcmulc c msel vd va vb s
  | .vfma c fmt msel vd va vb => Sys2Proof.Machine.execVfma c fmt msel vd va vb s
  | .vfms c fmt msel vd va vb => Sys2Proof.Machine.execVfms c fmt msel vd va vb s
  | .vcmula c msel vd va vb => Sys2Proof.Machine.execVcmula c msel vd va vb s
  | .vbcast c fmt msel vd va => Sys2Proof.Machine.execVbcast c fmt msel vd va s
  | .vins c fmt msel vd va idx => Sys2Proof.Machine.execVins c fmt msel vd va idx s
  | .vext c vd va idx => Sys2Proof.Machine.execVext c vd va idx s
  | .vperm c fmt msel vd va vb => Sys2Proof.Machine.execVperm c fmt msel vd va vb s
  | .vshufB c fmt msel vd va vb => Sys2Proof.Machine.execVshufB c fmt msel vd va vb s
  | .vsel c fmt msel vd va vb => Sys2Proof.Machine.execVsel c fmt msel vd va vb s
  | .vretag c fmt msel vd va tag => Sys2Proof.Machine.execVretag c fmt msel vd va tag s
  | .vrsum c fmt msel vd va => Sys2Proof.Machine.execVrsum c fmt msel vd va s
  | .vrmin c fmt msel vd va => Sys2Proof.Machine.execVrmin c fmt msel vd va s
  | .vrmax c fmt msel vd va => Sys2Proof.Machine.execVrmax c fmt msel vd va s
  | .vld c mode msel vd ra d => Sys2Proof.Machine.execVld c mode msel vd ra d s
  | .vst c mode msel vd ra d => Sys2Proof.Machine.execVst c mode msel vd ra d s
  | .interruptEntry p => Sys2Proof.Machine.execInterruptEntry p s
  | .ndeadFire p => Sys2Proof.Machine.execNdeadFire p s
  | .ipi src core => Sys2Proof.Machine.execIpi src core s
  | .ucodeWaitTimeout p => Sys2Proof.Machine.execUcodeWaitTimeout p s
  | .ucodeLoad src addr => Sys2Proof.Machine.execUcodeLoad src addr s
  | .instructionRetry p kind e => Sys2Proof.Machine.execInstructionRetry p kind e s
  | .pairMismatch k sub => Sys2Proof.Machine.execPairMismatch k sub s
  | .pairSelftestDone k leadOk trailOk spareOk => Sys2Proof.Machine.execPairSelftestDone k leadOk trailOk spareOk s
  | .spareJoin k => Sys2Proof.Machine.execSpareJoin k s
  | .dozeEntry p => Sys2Proof.Machine.execDozeEntry p s
  | .lpWake p => Sys2Proof.Machine.execLpWake p s
  | .cacheCleanall src cache => Sys2Proof.Machine.execCacheCleanall src cache s
  | .cacheInvall src cache => Sys2Proof.Machine.execCacheInvall src cache s
  | .cacheDisable src cache => Sys2Proof.Machine.execCacheDisable src cache s
  | .cacheEnable src cache => Sys2Proof.Machine.execCacheEnable src cache s
  | .l1InvallI src core => Sys2Proof.Machine.execL1InvallI src core s
  | .l1InvallD src core => Sys2Proof.Machine.execL1InvallD src core s
  | .l1InvallBoth src core => Sys2Proof.Machine.execL1InvallBoth src core s
  | .scrwaysChange src slice ways => Sys2Proof.Machine.execScrwaysChange src slice ways s
  | .rds l2 line world streaming => Sys2Proof.Machine.execRds l2 line world streaming s
  | .rdx l2 line world => Sys2Proof.Machine.execRdx l2 line world s
  | .upg l2 line world => Sys2Proof.Machine.execUpg l2 line world s
  | .wbd l2 line => Sys2Proof.Machine.execWbd l2 line s
  | .evc l2 line => Sys2Proof.Machine.execEvc l2 line s
  | .rdnc line => Sys2Proof.Machine.execRdnc line s
  | .wrl src world line data => Sys2Proof.Machine.execWrl src world line data s
  | .wrp src world pa data => Sys2Proof.Machine.execWrp src world pa data s
  | .atm c op pa btag b dtag d => Sys2Proof.Machine.execAtm c op pa btag b dtag d s
  | .snps l2 line => Sys2Proof.Machine.execSnps l2 line s
  | .snpi l2 line => Sys2Proof.Machine.execSnpi l2 line s
  | .snpinv l2 line => Sys2Proof.Machine.execSnpinv l2 line s
  | .snprd l2 line => Sys2Proof.Machine.execSnprd l2 line s
  | .victimWriteAck slice line => Sys2Proof.Machine.execVictimWriteAck slice line s
  | .lrholdExpiry c line => Sys2Proof.Machine.execLrholdExpiry c line s
  | .plkDataFlit bytes => Sys2Proof.Machine.execPlkDataFlit bytes s
  | .plkIdleFlit bytes => Sys2Proof.Machine.execPlkIdleFlit bytes s
  | .plkNak bytes => Sys2Proof.Machine.execPlkNak bytes s
  | .plkHello bytes => Sys2Proof.Machine.execPlkHello bytes s
  | .plkHeartbeat bytes => Sys2Proof.Machine.execPlkHeartbeat bytes s
  | .plkAckTimer => Sys2Proof.Machine.execPlkAckTimer s
  | .plkReplayTimeout => Sys2Proof.Machine.execPlkReplayTimeout s
  | .fecLockLoss => Sys2Proof.Machine.execFecLockLoss s
  | .retrainDone ok => Sys2Proof.Machine.execRetrainDone ok s
  | .retrainRetry => Sys2Proof.Machine.execRetrainRetry s
  | .plkHelloTimer => Sys2Proof.Machine.execPlkHelloTimer s
  | .heartbeatTimer => Sys2Proof.Machine.execHeartbeatTimer s
  | .linkSilence => Sys2Proof.Machine.execLinkSilence s
  | .witnessJudge => Sys2Proof.Machine.execWitnessJudge s
  | .linkDecision => Sys2Proof.Machine.execLinkDecision s
  | .plkRecord vc => Sys2Proof.Machine.execPlkRecord vc s
  | .plkState vc => Sys2Proof.Machine.execPlkState vc s
  | .plkDataMsg vc => Sys2Proof.Machine.execPlkDataMsg vc s
  | .plkDigest vc => Sys2Proof.Machine.execPlkDigest vc s
  | .jack => Sys2Proof.Machine.execJack s
  | .ctxwb => Sys2Proof.Machine.execCtxwb s
  | .handback => Sys2Proof.Machine.execHandback s
  | .hback => Sys2Proof.Machine.execHback s
  | .resyncdone => Sys2Proof.Machine.execResyncdone s
  | .mail => Sys2Proof.Machine.execMail s
  | .plkForce src => Sys2Proof.Machine.execPlkForce src s
  | .plkReturn src => Sys2Proof.Machine.execPlkReturn src s
  | .plkRetrain src => Sys2Proof.Machine.execPlkRetrain src s
  | .returnHoldExpiry => Sys2Proof.Machine.execReturnHoldExpiry s
  | .returnDrainEnd => Sys2Proof.Machine.execReturnDrainEnd s
  | .ptnPresChange high => Sys2Proof.Machine.execPtnPresChange high s
  | .faultReport cls level src sub world chid detail => Sys2Proof.Machine.execFaultReport cls level src sub world chid detail s
  | .moraineAck src cls => Sys2Proof.Machine.execMoraineAck src cls s
  | .aliveRise => Sys2Proof.Machine.execAliveRise s
  | .aliveFall => Sys2Proof.Machine.execAliveFall s
  | .keeperFault both => Sys2Proof.Machine.execKeeperFault both s
  | .kcmdHandover src => Sys2Proof.Machine.execKcmdHandover src s
  | .keeperReturn => Sys2Proof.Machine.execKeeperReturn s
  | .timSet src ns => Sys2Proof.Machine.execTimSet src ns s
  | .ppsEdge => Sys2Proof.Machine.execPpsEdge s
  | .ptpSample src interval error => Sys2Proof.Machine.execPtpSample src interval error s
  | .partnerSample => Sys2Proof.Machine.execPartnerSample s
  | .referenceFault => Sys2Proof.Machine.execReferenceFault s
  | .ppsOutRise => Sys2Proof.Machine.execPpsOutRise s
  | .ppsOutFall => Sys2Proof.Machine.execPpsOutFall s
  | .sasCycleStart bus => Sys2Proof.Machine.execSasCycleStart bus s
  | .witnessSend bus => Sys2Proof.Machine.execWitnessSend bus s
  | .sasBeacon bus bytes => Sys2Proof.Machine.execSasBeacon bus bytes s
  | .sasDataFrame bus slot d bytes => Sys2Proof.Machine.execSasDataFrame bus slot d bytes s
  | .sasJoinFrame bus d bytes => Sys2Proof.Machine.execSasJoinFrame bus d bytes s
  | .sasWitnessFrame bus d bytes => Sys2Proof.Machine.execSasWitnessFrame bus d bytes s
  | .sasRecordWrite bus => Sys2Proof.Machine.execSasRecordWrite bus s
  | .slotIdleExpiry bus slot => Sys2Proof.Machine.execSlotIdleExpiry bus slot s
  | .cmdqWrite src bus slot code index value => Sys2Proof.Machine.execCmdqWrite src bus slot code index value s
  | .pinEdge ch level => Sys2Proof.Machine.execPinEdge ch level s
  | .capRead src world n => Sys2Proof.Machine.execCapRead src world n s
  | .compareFire ch => Sys2Proof.Machine.execCompareFire ch s
  | .pwmPeriodStart ch => Sys2Proof.Machine.execPwmPeriodStart ch s
  | .levelTimerFire ch => Sys2Proof.Machine.execLevelTimerFire ch s
  | .ctrlRequestPoll => Sys2Proof.Machine.execCtrlRequestPoll s
  | .loopExchange src l limit hsoff => Sys2Proof.Machine.execLoopExchange src l limit hsoff s
  | .loopHold src l limit hsoff => Sys2Proof.Machine.execLoopHold src l limit hsoff s
  | .loopGo src l limit hsoff => Sys2Proof.Machine.execLoopGo src l limit hsoff s
  | .loopAcked core => Sys2Proof.Machine.execLoopAcked core s
  | .loopAckTimeout core => Sys2Proof.Machine.execLoopAckTimeout core s
  | .ethFrameReceive port prio len held bad frame => Sys2Proof.Machine.execEthFrameReceive port prio len held bad frame s
  | .pfcReceive port prio pause => Sys2Proof.Machine.execPfcReceive port prio pause s
  | .pfcWatchdog port prio => Sys2Proof.Machine.execPfcWatchdog port prio s
  | .cnpReceive port qpn => Sys2Proof.Machine.execCnpReceive port qpn s
  | .cnpRateIncrease port qpn => Sys2Proof.Machine.execCnpRateIncrease port qpn s
  | .qpRetryTimeout port qpn => Sys2Proof.Machine.execQpRetryTimeout port qpn s
  | .rnrNakReceive port qpn psn => Sys2Proof.Machine.execRnrNakReceive port qpn psn s
  | .rnrWaitExpiry port qpn => Sys2Proof.Machine.execRnrWaitExpiry port qpn s
  | .garpRepeat port => Sys2Proof.Machine.execGarpRepeat port s
  | .ethLinkDown port => Sys2Proof.Machine.execEthLinkDown port s
  | .ethLinkUp port => Sys2Proof.Machine.execEthLinkUp port s
  | .qpLoad src port qpn => Sys2Proof.Machine.execQpLoad src port qpn s
  | .qpReset src port qpn => Sys2Proof.Machine.execQpReset src port qpn s
  | .qpStore src port qpn => Sys2Proof.Machine.execQpStore src port qpn s
  | .addrWord0Write src port entry mac => Sys2Proof.Machine.execAddrWord0Write src port entry mac s
  | .txtsRead src port => Sys2Proof.Machine.execTxtsRead src port s
  | .pcieInboundRequest port rid addr len write poisoned bytes => Sys2Proof.Machine.execPcieInboundRequest port rid addr len write poisoned bytes s
  | .msixWrite port ctrl vector entries => Sys2Proof.Machine.execMsixWrite port ctrl vector entries s
  | .pcieLinkDown port link ctrls => Sys2Proof.Machine.execPcieLinkDown port link ctrls s
  | .pcieLinkUp port link width flit capacity => Sys2Proof.Machine.execPcieLinkUp port link width flit capacity s
  | .pciPortEnable src port bifur cxl => Sys2Proof.Machine.execPciPortEnable src port bifur cxl s
  | .perstRelease port => Sys2Proof.Machine.execPerstRelease port s
  | .bmcAccess op bytes => Sys2Proof.Machine.execBmcAccess op bytes s
  | .i3cDaa addr => Sys2Proof.Machine.execI3cDaa addr s
  | .smbusFallback => Sys2Proof.Machine.execSmbusFallback s
  | .bypass => Sys2Proof.Machine.execBypass s
  | .idcode => Sys2Proof.Machine.execIdcode s
  | .samplePreload => Sys2Proof.Machine.execSamplePreload s
  | .extest => Sys2Proof.Machine.execExtest s
  | .clamp => Sys2Proof.Machine.execClamp s
  | .highz => Sys2Proof.Machine.execHighz s
  | .dbgauth code => Sys2Proof.Machine.execDbgauth code s
  | .dbgPoll => Sys2Proof.Machine.execDbgPoll s
  | .dbgRead space size addr => Sys2Proof.Machine.execDbgRead space size addr s
  | .dbgWrite space size addr data tag => Sys2Proof.Machine.execDbgWrite space size addr data tag s
  | .dbgGrantWrite src level haltlim world code => Sys2Proof.Machine.execDbgGrantWrite src level haltlim world code s
  | .dbgLockoutExpiry => Sys2Proof.Machine.execDbgLockoutExpiry s
  | .dbgGrantExpiry => Sys2Proof.Machine.execDbgGrantExpiry s
  | .dbgHaltReq src l => Sys2Proof.Machine.execDbgHaltReq src l s
  | .dbgResume src l => Sys2Proof.Machine.execDbgResume src l s
  | .dbgStep src l => Sys2Proof.Machine.execDbgStep src l s
  | .breakpointHit p => Sys2Proof.Machine.execBreakpointHit p s
  | .haltLimitExpiry l => Sys2Proof.Machine.execHaltLimitExpiry l s
  | .pmuLoad src slot => Sys2Proof.Machine.execPmuLoad src slot s
  | .pmuRelease src slot => Sys2Proof.Machine.execPmuRelease src slot s
  | .snapw src slot => Sys2Proof.Machine.execSnapw src slot s
  | .snapu src kind index => Sys2Proof.Machine.execSnapu src kind index s
  | .pmuSnapLatch => Sys2Proof.Machine.execPmuSnapLatch s
  | .pmuWindowBoundary slot => Sys2Proof.Machine.execPmuWindowBoundary slot s
  | .pmuDumpTick slot => Sys2Proof.Machine.execPmuDumpTick slot s
  | .thermalSample t => Sys2Proof.Machine.execThermalSample t s
  | .vrAlert => Sys2Proof.Machine.execVrAlert s
  | .vrCurrentPoll rails => Sys2Proof.Machine.execVrCurrentPoll rails s
  | .fecLock delay => Sys2Proof.Machine.execFecLock delay s
  | .trefLoss => Sys2Proof.Machine.execTrefLoss s
  | .flushMissed => Sys2Proof.Machine.execFlushMissed s
  | .keeperSelftestAfterHandover ok => Sys2Proof.Machine.execKeeperSelftestAfterHandover ok s
  | .pwrgoodRise => Sys2Proof.Machine.execPwrgoodRise s

end Sys2Proof.Machine
end

