-- ==== Sys2Proof/Machine/Tick.lean ====
section
/-! DEFINITION. What happens at a TIME cycle whatever is commanded: the timebase counts, the Moraine FIFO drains to its log ring and the trace
buffer to its drain ring (R353, R359, R362, R426). -/

namespace Sys2Proof.Machine

open Sys2Proof

/-- The oldest record of the FIFO goes to the log ring; a refused ring write stops logging and is recorded under MOR.SELF (R353). -/
def W.logDrain (w : W) : W :=
  match w.dev.mor.fifo with
  | [] => w
  | r :: rest =>
    if !w.flag F.MOR_CTL_LOGEN || w.logFull then w
    else
      let h := w.get F.MOR_LOGHEAD_IDX
      match w.storeAs (cirqueWho (source 0 0)) (w.base F.MOR_LOGBASE_BASE + h * 32) r.bytes with
      | some w =>
        ({ w with dev := { w.dev with mor := { w.dev.mor with fifo := rest } } }).set F.MOR_LOGHEAD_IDX ((h + 1) % w.logSize)
      | none => (w.set F.MOR_CTL_LOGEN 0).report { cls := 0x00, level := 1, src := source 0 0 }

/-- `n` bytes of PAD packets; a last single byte is a PAD header alone (R425, R426, assumption 64). -/
def padBytes (n : Nat) : List Byte := (List.range n).map fun i => if i % 2 = 0 then 0xF0 else 0

/-- Bytes of the drain ring (R426). -/
def W.ringBytes (w : W) : Nat := 2 ^ w.get F.TRC_RINGCTL_SIZE * 4096

/-- A full block goes to the drain ring; a refused write stops draining (R426). -/
def W.ringBlock (w : W) (b : List Byte) : W :=
  let h := w.get F.TRC_RINGHEAD_OFF
  match w.storeAs (cirqueWho (source 23 0)) (w.base F.TRC_RINGBASE_BASE + h) b with
  | some w => w.set F.TRC_RINGHEAD_OFF ((h + 64) % w.ringBytes)
  | none => (w.set F.TRC_CTL_DRAIN 0).report { cls := 0x3D, level := 0, src := source 23 0 }

/-- The oldest packet of the trace buffer enters the present block, which is filled with PAD where the packet would cross its end; draining pauses
while the ring is full (R426). -/
def W.trcDrain (w : W) : W :=
  match w.dev.trc.buf with
  | [] => w
  | p :: rest =>
    let full := decide ((w.get F.TRC_RINGHEAD_OFF + 64) % w.ringBytes = w.get F.TRC_RINGTAIL_OFF % w.ringBytes)
    if !w.flag F.TRC_CTL_DRAIN || full then w
    else
      let b := w.dev.trc.block
      let w := w.modTrc fun t => { t with buf := rest, fill := t.fill - p.length, overflow := false }
      if b.length + p.length < 64 then w.modTrc fun t => { t with block := b ++ p }
      else if b.length + p.length = 64 then (w.modTrc fun t => { t with block := [] }).ringBlock (b ++ p)
      else (w.modTrc fun t => { t with block := p }).ringBlock (b ++ padBytes (64 - b.length))

/-- One TIME cycle, out of Reset. -/
def W.tick (w : W) : W := if w.cur = mRESET then w else w.timeCycle.logDrain.trcDrain

/-- One TIME cycle of the block (assumption 1). -/
def tick (s : State) : Host.Outcome State Fault Refusal := liftNow W.tick s

end Sys2Proof.Machine
end

