-- ==== Sys2Proof/Safety.lean ====
section
/-! DEFINITION. What counts as a good state and a completed command, and the parts of the state that statements compare. -/

namespace Sys2Proof.Safety

open Sys2Proof Sys2Proof.Machine

/-- The memory stands in its canonical form (assumption 3). -/
def MemOk (s : State) : Prop := s.mem.wf = true

/-- A command completes: `exec` answers a next state. -/
def Completes (i : Instr) (s : State) : Prop := ∃ t, exec i s = .next t

/-- The registers of a TSH-3 core that only instructions and entries change (R189, R191, R233): what a frame of an instruction is about. DETSTAT,
which events outside the instruction set too (R249), and what lies behind the architecture (caches, checkpoint, output buffer) stand apart. -/
structure Arch where
  /-- PC. -/
  pc : Word
  /-- g1 to g31. -/
  g : Tab TWord
  /-- v0 to v31. -/
  v : Tab TWord
  /-- PSW. -/
  psw : Word
  /-- FPSW. -/
  fpsw : Word
  /-- CWORLD. -/
  cworld : Nat
  /-- CSTK. -/
  cstk : TWord
  /-- VBASE. -/
  vbase : Word
  /-- ESTK. -/
  estk : Word
  /-- ESTAT. -/
  estat : Word
  /-- IPEND's latched lines. -/
  ipend : Word
  /-- IENA. -/
  iena : Word
  /-- NDEAD. -/
  ndead : Word
  /-- CORECTL. -/
  corectl : Word
  /-- TCMCTL. -/
  tcmctl : Word
  /-- AKMASK of the tenant world. -/
  akmask : Nat
  /-- The core executes. -/
  active : Bool
  /-- The core waits in WFI. -/
  waiting : Bool
  deriving DecidableEq, Repr

/-- The architectural registers of a core. -/
def arch (x : Core) : Arch :=
  { pc := x.pc, g := x.g, v := x.v, psw := x.psw, fpsw := x.fpsw, cworld := x.cworld, cstk := x.cstk, vbase := x.vbase, estk := x.estk
    estat := x.estat, ipend := x.ipend, iena := x.iena, ndead := x.ndead, corectl := x.corectl, tcmctl := x.tcmctl, akmask := x.akmask
    active := x.active, waiting := x.waiting }

/-- No entry of a table fails `P`. -/
def AllVals {α : Type} (P : α → Prop) (t : Tab α) : Prop := ∀ p ∈ t, P p.2

/-- A core holds no store back and its D-L1 no copy from before a disable: nothing it does outside its own stores reaches memory (R257, R274). -/
def CoreQuiet (x : Core) : Prop := x.out = [] ∧ AllVals (fun e => e.stale = none) x.dl1

/-- No core holds a store back and no cache holds a copy from before a disable (R257, R274): memory changes only by what a command itself stores. -/
def Quiet (w : W) : Prop :=
  AllVals CoreQuiet w.dev.cores ∧ AllVals (fun e => e.stale = none) w.dev.coh.l2 ∧ AllVals (fun e => e.stale = none) w.dev.coh.snp

/-- The working state in which an instruction executes, and why its fetch fails, if it does (R192, R208). -/
def fetched (w : W) (c : CoreId) : W × Option Trap := (w.issue c).fetch c

/-- Core `c` executes instruction `i` of group `g`: it runs, no breakpoint stops it, the fetch is allowed and finds code, the word at the PC is the
encoding of `i`, and the instruction is legal for the core and its world (R188, R192 to R195, R199, R219, R434). -/
def Ready (s : State) (c : CoreId) (i : Instr) (g : Group) : Prop :=
  (s.w.core c).runs = true ∧ s.w.stopAt c = none ∧ (fetched s.w c).2 = none ∧ s.w.atPc c = some i ∧ (fetched s.w c).1.legal c i g = true

/-- After an instruction of core `c` that stores nothing: its registers are `a`, every other core's registers, the timebase, the fuses and the
queue are unchanged, and so is every byte and tag of memory, where no held store or stale copy of a cache waits to reach it. -/
def After (s t : State) (c : CoreId) (a : Arch) : Prop :=
  arch (t.w.core c) = a ∧ (∀ d, coreKey d ≠ coreKey c → arch (t.w.core d) = arch (s.w.core d)) ∧
    t.now = s.now ∧ t.fuse = s.fuse ∧ t.pending = s.pending ∧ (Quiet s.w → t.mem = s.mem)

/-- Instruction `i` of core `c` completes, stores nothing and leaves the core's registers as `a`. -/
def Ends (s : State) (i : Instr) (c : CoreId) (a : Arch) : Prop := ∃ t, exec i s = .next t ∧ After s t c a

/-- The registers of core `c` changed by `f`, with the PC at `pc`. -/
def moved (s : State) (c : CoreId) (f : Core → Core) (pc : Nat) : Arch := arch { f (s.w.core c) with pc := BitVec.ofNat 64 pc }

/-- The address of core `c`'s next instruction in sequence. -/
def nextPc (s : State) (c : CoreId) (i : Instr) : Nat := (s.w.core c).nextPc i

/-- Instruction `i` completes on core `c` and goes on to the next instruction, with its registers changed by `f` and nothing stored. -/
def Next (s : State) (i : Instr) (c : CoreId) (f : Core → Core) : Prop :=
  Ends s i c (moved s c f (nextPc s c i))

/-! ### Operands and results of the scalar instructions -/

/-- A general register of core `c`, with its tag. -/
def gpr (s : State) (c : CoreId) (r : Nat) : TWord := s.w.gr c r

/-- The data of a general register. -/
def val (s : State) (c : CoreId) (r : Nat) : Word := (gpr s c r).val

/-- The registers hold INT words (R197). -/
def Ints (s : State) (c : CoreId) (rs : List Nat) : Prop := ∀ r ∈ rs, (gpr s c r).tag = tINT

/-- The registers hold INT or RAW words (R197). -/
def IntRaws (s : State) (c : CoreId) (rs : List Nat) : Prop := ∀ r ∈ rs, (gpr s c r).tag = tINT ∨ (gpr s c r).tag = tRAW

/-- The registers hold words with tag `t`. -/
def Tagged (s : State) (c : CoreId) (t : Tag) (rs : List Nat) : Prop := ∀ r ∈ rs, (gpr s c r).tag = t

/-- INT if every register operand is INT, otherwise RAW (R197). -/
def intOrRaw (s : State) (c : CoreId) (rs : List Nat) : Tag := if rs.all fun r => (gpr s c r).tag = tINT then tINT else tRAW

/-- PSW with N, Z, C and V, in its bits 31 to 28 (R191). -/
def withFlags (psw : Word) (n z c v : Bool) : Word := setBits psw 31 28 (b2n n * 8 + b2n z * 4 + b2n c * 2 + b2n v)

/-- `rd := v`, with the flags where the form sets them; N and Z follow the result (R206). -/
def sets (rd : Nat) (t : Tag) (v : Word) (f c o : Bool) : Core → Core := fun x =>
  { x.setG rd ⟨t, v⟩ with psw := if f then withFlags x.psw v.msb (decide (v = 0)) c o else x.psw }

/-- `rd := v` with tag `t`. -/
def puts (rd : Nat) (t : Tag) (v : Word) : Core → Core := fun x => x.setG rd ⟨t, v⟩

/-- The C flag of core `c`. -/
def carry (s : State) (c : CoreId) : Bool := (s.w.core c).psw.getLsbD 29

/-- A floating-point result: `rd := r` and the flags ORed into FPSW (R191, R211). -/
def putsF (rd : Nat) (r : TWord × FFlags) : Core → Core := fun x => { x.setG rd r.1 with fpsw := x.fpsw ||| BitVec.ofNat 64 (r.2 % 32) }

/-- A lane of a word of format FMT, and the word that results lane by lane with the flags of all lanes ORed (R193, R211). -/
def lanewise (fmt : Nat) (tag : Tag) (op : Nat → Nat × FFlags) : TWord × FFlags :=
  let rs := (List.range (fLanes fmt)).map op
  (⟨tag, BitVec.ofNat 64 ((rs.mapIdx fun j r => r.1 % 2 ^ (fFmt fmt).width * 2 ^ ((fFmt fmt).width * j)).sum)⟩, (rs.map Prod.snd).foldr fOr 0)

/-- Lane `j` of a word of format FMT. -/
def laneOf (fmt : Nat) (v : Word) (j : Nat) : Nat := v.toNat >>> ((fFmt fmt).width * j) % 2 ^ (fFmt fmt).width

/-- The rounding mode that a field names: FPSW.RM for 7 (R212). -/
def roundMode (s : State) (c : CoreId) (rm : Nat) : Nat := if rm = 7 then bits (s.w.core c).fpsw 10 8 else rm

/-! ### Vectors (R214) -/

/-- Element `e` of vector register `r`. -/
def elem (s : State) (c : CoreId) (r e : Nat) : TWord := s.w.vget c r e

/-- Whether lane `j` is active: MSEL 0, or its bit of the mask register. -/
def active (s : State) (c : CoreId) (msel j : Nat) : Bool := msel = 0 || (val s c (24 + msel)).getLsbD j

/-- Whether element `e`, of `k` lanes, is active: some lane of it is. -/
def someActive (s : State) (c : CoreId) (msel k e : Nat) : Bool := (List.range k).any fun i => active s c msel (e * k + i)

/-- The mask of a vector instruction is INT, where it has one (R197). -/
def MaskOk (s : State) (c : CoreId) (msel : Nat) : Prop := msel ≠ 0 → (gpr s c (24 + msel)).tag = tINT

/-- The elements of the registers that are active have tags that `ok` accepts. -/
def ElemsOk (s : State) (c : CoreId) (msel k : Nat) (rs : List Nat) (ok : Tag → Prop) : Prop :=
  ∀ r ∈ rs, ∀ e < 8, someActive s c msel k e = true → ok (elem s c r e).tag

/-- A vector instruction completes: element `e` of `vd` is `new e` for each of the 8 elements, FPSW takes `flags`, every other register of the
core is unchanged, and nothing is stored. -/
def NextV (s : State) (i : Instr) (c : CoreId) (vd : Nat) (new : Nat → TWord → Prop) (flags : FFlags) : Prop :=
  ∃ v : Tab TWord, Next s i c (fun x => { x with v := v, fpsw := x.fpsw ||| BitVec.ofNat 64 (flags % 32) }) ∧
    (∀ e < 8, new e (Tab.getD v (vd * 8 + e) {})) ∧ ∀ k, k / 8 ≠ vd → Tab.getD v k {} = Tab.getD (s.w.core c).v k {}

/-- What a lane-wise operation makes of element `e`: active lanes take `op`, the others keep their value; the tag becomes `tag` where some lane is
active (R214). -/
def laneResult (s : State) (c : CoreId) (fmt msel vd : Nat) (tag : Nat → Tag) (op : Nat → Nat → Nat) (e : Nat) (x : TWord) : Prop :=
  x.tag = (if someActive s c msel (vLanes fmt) e then tag e else (elem s c vd e).tag) ∧
    ∀ i < vLanes fmt, lane (vWidth fmt) x.val i =
      if active s c msel (e * vLanes fmt + i) then op e i % 2 ^ vWidth fmt else lane (vWidth fmt) (elem s c vd e).val i

/-- The flags of the active lanes, ORed (R211, R214). -/
def laneFlags (s : State) (c : CoreId) (fmt msel : Nat) (fl : Nat → Nat → FFlags) : FFlags :=
  ((List.range (8 * vLanes fmt)).filter fun j => active s c msel j).foldl (fun g j => fOr g (fl (j / vLanes fmt) (j % vLanes fmt))) 0

/-! ### Memory as an access finds it and leaves it (R196, R204, R257) -/

/-- The byte of memory at `a` as the loads of core `c` see it: its own held stores first. -/
def seen (t : State) (c : CoreId) (a : Nat) : Byte := (t.w.view c (a / 64) false).byte a

/-- The tag of word `wi` as the loads of core `c` see it. -/
def tagSeen (t : State) (c : CoreId) (wi : Nat) : Tag := (t.w.view c (wi / 8) false).tagOf wi

/-- Byte `i` of a piece of an access of core `c`: physical memory, its own TCM, or a Névé buffer behind a window. -/
def pieceByte (t : State) (c : CoreId) (p : Piece) (i : Nat) : Byte :=
  match p.spot, c with
  | .mem pa _, _ => seen t c (pa + i)
  | .tcm off, .crn q => t.mem.byte (tcmAddr q (off + i))
  | .tcm _, .flo _ => 0
  | .win ch off, _ => (t.w.buf (winByte ch (off + i)).1).getD (winByte ch (off + i)).2 0

/-- The physical addresses at which a store to a piece writes its first byte: both TCMs of a pair for TCM (R223), none for a window. -/
def storedAt (w : W) (c : CoreId) (p : Piece) : List Nat :=
  match p.spot, c with
  | .mem pa _, _ => (match w.pkind pa with | .tcm q off => (w.tcmCores q).map fun k => tcmAddr k off | _ => [pa])
  | .tcm off, .crn q => (w.tcmCores q).map fun k => tcmAddr k off
  | _, _ => []

/-- Memory changes only in the bytes that a store to the pieces `ps`, resolved in `w`, writes. -/
def OnlyStored (s t : State) (w : W) (c : CoreId) (ps : List Piece) : Prop :=
  ∀ a, (∀ p ∈ ps, ∀ b ∈ storedAt w c p, a < b ∨ b + p.n ≤ a) → t.mem.byte a = s.mem.byte a

/-- The base register after the access of MODE 2 or 3: base + inc in a handle's offset or an address (R202, R204). -/
def nextBase (w : W) (c : CoreId) (base : TWord) (inc : Int) : TWord :=
  if base.tag = tHND then ⟨tHND, setBits base.val 39 0 (((w.hentry c (bits base.val 63 40)).2.wrap (bits base.val 39 0) inc) % 2 ^ 40)⟩
  else ⟨base.tag, base.val + BitVec.ofInt 64 inc⟩

/-- The same as `After`, for an instruction that stores: what memory holds is said beside it. -/
def AfterStore (s t : State) (c : CoreId) (a : Arch) : Prop :=
  arch (t.w.core c) = a ∧ (∀ d, coreKey d ≠ coreKey c → arch (t.w.core d) = arch (s.w.core d)) ∧
    t.now = s.now ∧ t.fuse = s.fuse ∧ t.pending = s.pending

/-- Where a word of memory, or of the core's own TCM, lies. -/
def spotAt (c : CoreId) : Spot → Option Nat
  | .mem pa _ => some pa
  | .tcm off => (match c with | .crn p => some (tcmAddr p off) | .flo _ => none)
  | .win _ _ => none

/-- A word that a load delivers is the word in memory: its data, and its tag, which reads POISON where the word cannot be read (R198, R309). -/
def IsWord (s : State) (c : CoreId) (p : Piece) (v : TWord) : Prop :=
  ∀ a, spotAt c p.spot = some a → v.val = BitVec.ofNat 64 (s.w.le a 8) ∧ (v.tag = s.w.tagOf (a / 8) ∨ v.tag = tPOISON)

/-- The word stored at a piece is `x`, in data and tag, wherever the store goes. -/
def WordStored (t : State) (w : W) (c : CoreId) (p : Piece) (x : TWord) : Prop := ∀ b ∈ storedAt w c p, t.w.word (b / 8) = x

/-- No two ways of an L2 hold one line. -/
def OneWay (w : W) (l2 line : Nat) : Prop :=
  ∀ j k, j < 16 → k < 16 → ∀ x y, Tab.find? w.dev.coh.l2 (l2Key l2 line j) = some x → Tab.find? w.dev.coh.l2 (l2Key l2 line k) = some y →
    x.line = line → y.line = line → j = k

/-- The registers but the general ones. -/
def archRest (x : Core) : Arch := { arch x with g := [] }

/-- The same as `AfterStore`, for an instruction that writes general registers in several steps: they read as those of `y`. -/
def AfterLoop (s t : State) (c : CoreId) (y : Core) : Prop :=
  archRest (t.w.core c) = archRest y ∧ (∀ r, (t.w.core c).gr r = y.gr r) ∧
    (∀ d, coreKey d ≠ coreKey c → arch (t.w.core d) = arch (s.w.core d)) ∧ t.now = s.now ∧ t.fuse = s.fuse ∧ t.pending = s.pending

/-! ### Commands of the block -/

/-- A command completes with `P` true of the state it leaves; it burns no fuse, sets no time and leaves the queue. -/
def Does (s : State) (i : Instr) (P : State → Prop) : Prop :=
  ∃ t, exec i s = .next t ∧ t.fuse = s.fuse ∧ t.now = s.now ∧ t.pending = s.pending ∧ P t

/-- The same for a command that leaves memory unchanged. -/
def Acts (s : State) (i : Instr) (P : State → Prop) : Prop := Does s i fun t => t.mem = s.mem ∧ P t

/-- A write of a register element by an agent of world 0x0000 reaches it: the device is out of Reset, the element exists, and no operation that its
register started is in progress (R7, R476, R484). -/
def Reaches (s : State) (src : Nat) (r : RegName) (e : Nat) : Prop :=
  s.w.cur ≠ mRESET ∧ s.w.physOk { world := 0, src := src } .wr (devBase + regOff r e) = true ∧
    s.w.devSpot (regOff r e) (if fullSlot r then 8 else 4) true = .bits r e (if fullSlot r then 63 else 31) 0 ∧ s.w.writeIgnored r e (2 ^ 64 - 1) = false

/-- A field of a register after a command. -/
def field (t : State) (f : Fld) (i : Nat := 0) : Nat := t.w.get f i

/-- A class of fault records is latched (R349). -/
def Latched (t : State) (cls : Nat) : Prop := field t F.MOR_CLS_PEND cls = 1

/-- A level 3 record stands: Thaw with FATAL (R352). -/
def Fatal (t : State) : Prop := field t F.SYS_MODE_FATAL = 1

/-- Nothing waits for the partner link to let it go on: no transaction, no service request, the link not up and the modules not paired. -/
def LinkIdle (s : State) : Prop := s.dev.txns = [] ∧ s.dev.svc = [] ∧ field s F.PLK_STAT_LINK ≠ 2 ∧ s.w.paired = false

/-- No transaction is in the device and no service request waits. -/
def NoWork (s : State) : Prop := s.dev.txns = [] ∧ s.dev.svc = []

/-- A storage command that `P` describes has been issued: it is in flight at a port, or waits to be sent. -/
def Issued (t : State) (port : Nat) (P : NvmeCmd → Prop) : Prop :=
  (∃ q ∈ t.dev.nvmeq, q.1 = port ∧ P q.2) ∨ ∃ q ∈ (t.w.pciPort port).tags, P q.2

/-- The device is in a mode from which Recovery and Maintenance are reached (R23). -/
def Running (s : State) : Prop := isService s.w.cur = true ∨ s.w.cur = mSTANDBY ∨ s.w.cur = mDEGRADED ∨ s.w.cur = mMAINT

/-- A cache's control register and index, EN and STALE, and the lines it holds. -/
def cacheCtl : CacheId → RegName × Nat × Fld × Fld
  | .slice i => (.SNP_SLICECTL, i, F.SNP_SLICECTL_EN, F.SNP_SLICECTL_STALE)
  | .crnL2 i => (.CRN_L2CTL, i, F.CRN_L2CTL_EN, F.CRN_L2CTL_STALE)
  | .floL2 i => (.FLO_L2CTL, i, F.FLO_L2CTL_EN, F.FLO_L2CTL_STALE)

/-- The lines that a cache holds. -/
def cacheLines (w : W) : CacheId → List (Nat × CLine)
  | .slice i => w.sliceLines i
  | .crnL2 i => w.l2Lines i
  | .floL2 i => w.l2Lines (16 + i)

end Sys2Proof.Safety
end

