-- ==== Sys2Proof/Certificates/Slice0/Obligations.lean ====
section
/-! DEFINITION. The statements for the provers. -/

open Sys2Proof Sys2Proof.Machine Sys2Proof.Safety

/-- A step on a non-empty queue is exec of the front command on the state with the queue's rest. -/
def Obligations.StepRunsFrontCommand : Prop :=
  ∀ (c : Instr) (rest : List Instr) (s : State), s.pending = c :: rest → step s = exec c { s with pending := rest }

/-! ### TSH-3: integer instructions -/

/-- ADD, SUB, ADC, SBC, MUL and the high products, minima and maxima, ADDI, CMP, CMPA and CMPI on INT operands complete with the result modulo
2^64, tagged INT, and with the flags of R206 where the form sets them (R197, R206, R210). -/
def Obligations.IntegerArithmetic : Prop :=
  ∀ (s : State) (c : CoreId) (rd ra rb imm : Nat) (f : Bool),
    let a := val s c ra
    let b := val s c rb
    let k := b2n (carry s c)
    let m := ofInt (sext 16 imm)
    (Ints s c [ra, rb] →
      (Ready s c (.add c rd ra rb f) .B → Next s (.add c rd ra rb f) c
        (sets rd tINT (a + b) f (decide (2 ^ 64 ≤ a.toNat + b.toNat)) (decide ((a + b).toInt ≠ a.toInt + b.toInt)))) ∧
      (Ready s c (.sub c rd ra rb f) .B → Next s (.sub c rd ra rb f) c
        (sets rd tINT (a - b) f (decide (a.toNat < b.toNat)) (decide ((a - b).toInt ≠ a.toInt - b.toInt)))) ∧
      (Ready s c (.adc c rd ra rb f) .B → Next s (.adc c rd ra rb f) c
        (let r := ofInt (a.toNat + b.toNat + k)
         sets rd tINT r f (decide (2 ^ 64 ≤ a.toNat + b.toNat + k)) (decide (r.toInt ≠ a.toInt + b.toInt + k)))) ∧
      (Ready s c (.sbc c rd ra rb f) .B → Next s (.sbc c rd ra rb f) c
        (let r := ofInt ((a.toNat : Int) - b.toNat - k)
         sets rd tINT r f (decide (a.toNat < b.toNat + k)) (decide (r.toInt ≠ a.toInt - b.toInt - k)))) ∧
      (Ready s c (.mul c rd ra rb f) .B → Next s (.mul c rd ra rb f) c
        (sets rd tINT (a * b) f (decide (2 ^ 64 ≤ a.toNat * b.toNat)) (decide ((a * b).toInt ≠ a.toInt * b.toInt)))) ∧
      (Ready s c (.mulhs c rd ra rb) .B → Next s (.mulhs c rd ra rb) c (puts rd tINT (ofInt (a.toInt * b.toInt / 2 ^ 64)))) ∧
      (Ready s c (.mulhu c rd ra rb) .B → Next s (.mulhu c rd ra rb) c (puts rd tINT (ofInt ((a.toNat * b.toNat / 2 ^ 64 : Nat) : Int)))) ∧
      (Ready s c (.mins c rd ra rb) .B → Next s (.mins c rd ra rb) c (puts rd tINT (if a.toInt ≤ b.toInt then a else b))) ∧
      (Ready s c (.maxs c rd ra rb) .B → Next s (.maxs c rd ra rb) c (puts rd tINT (if a.toInt ≤ b.toInt then b else a))) ∧
      (Ready s c (.minu c rd ra rb) .B → Next s (.minu c rd ra rb) c (puts rd tINT (if a.toNat ≤ b.toNat then a else b))) ∧
      (Ready s c (.maxu c rd ra rb) .B → Next s (.maxu c rd ra rb) c (puts rd tINT (if a.toNat ≤ b.toNat then b else a))) ∧
      (Ready s c (.cmp c ra rb) .B → Next s (.cmp c ra rb) c fun x =>
        { x with psw := withFlags x.psw (a - b).msb (decide (a = b)) (decide (a.toNat < b.toNat)) (decide ((a - b).toInt ≠ a.toInt - b.toInt)) }) ∧
      (Ready s c (.cmpa c ra rb) .B → Next s (.cmpa c ra rb) c fun x =>
        { x with psw := withFlags x.psw (a + b).msb (decide (a + b = 0)) (decide (2 ^ 64 ≤ a.toNat + b.toNat))
                          (decide ((a + b).toInt ≠ a.toInt + b.toInt)) })) ∧
    (Ints s c [ra] →
      (Ready s c (.addi c rd ra imm) .B → Next s (.addi c rd ra imm) c (puts rd tINT (a + m))) ∧
      (Ready s c (.cmpi c ra imm) .B → Next s (.cmpi c ra imm) c fun x =>
        { x with psw := withFlags x.psw (a - m).msb (decide (a = m)) (decide (a.toNat < m.toNat)) (decide ((a - m).toInt ≠ a.toInt - m.toInt)) }))

/-- The divides and remainders on INT operands complete for every operand: quotients truncate toward zero, remainders take the dividend's sign, a
zero divisor gives all ones or the dividend, MIN ÷ −1 gives MIN or 0; the W forms act on bits 31:0 and sign-extend; C is 0 and V marks the edge
cases (R206, R210). -/
def Obligations.IntegerDivision : Prop :=
  ∀ (s : State) (c : CoreId) (rd ra rb : Nat), Ints s c [ra, rb] →
    let a := val s c ra
    let b := val s c rb
    let a32 : Int := sext 32 a.toNat
    let b32 : Int := sext 32 b.toNat
    let u32 := a.toNat % 2 ^ 32
    let v32 := b.toNat % 2 ^ 32
    let min64 : Int := -2 ^ 63
    let min32 : Int := -2 ^ 31
    (Ready s c (.divs c rd ra rb) .B → Next s (.divs c rd ra rb) c
      (sets rd tINT (if b = 0 then ofInt (-1) else ofInt (a.toInt.tdiv b.toInt)) true false (decide (b = 0) || decide (a.toInt = min64) && decide (b.toInt = -1)))) ∧
    (Ready s c (.divu c rd ra rb) .B → Next s (.divu c rd ra rb) c
      (sets rd tINT (if b = 0 then ofInt (-1) else BitVec.ofNat 64 (a.toNat / b.toNat)) true false (decide (b = 0)))) ∧
    (Ready s c (.rems c rd ra rb) .B → Next s (.rems c rd ra rb) c
      (sets rd tINT (if b = 0 then a else ofInt (a.toInt.tmod b.toInt)) true false (decide (b = 0) || decide (a.toInt = min64) && decide (b.toInt = -1)))) ∧
    (Ready s c (.remu c rd ra rb) .B → Next s (.remu c rd ra rb) c
      (sets rd tINT (if b = 0 then a else BitVec.ofNat 64 (a.toNat % b.toNat)) true false (decide (b = 0)))) ∧
    (Ready s c (.divsw c rd ra rb) .B → Next s (.divsw c rd ra rb) c
      (sets rd tINT (if b32 = 0 then ofInt (-1) else if a32 = min32 ∧ b32 = -1 then ofInt min32 else ofInt (a32.tdiv b32)) true false
        (decide (b32 = 0) || decide (a32 = min32) && decide (b32 = -1)))) ∧
    (Ready s c (.divuw c rd ra rb) .B → Next s (.divuw c rd ra rb) c
      (sets rd tINT (if v32 = 0 then ofInt (-1) else ofInt (sext 32 (u32 / v32))) true false (decide (v32 = 0)))) ∧
    (Ready s c (.remsw c rd ra rb) .B → Next s (.remsw c rd ra rb) c
      (sets rd tINT (if b32 = 0 then ofInt a32 else ofInt (a32.tmod b32)) true false (decide (b32 = 0) || decide (a32 = min32) && decide (b32 = -1)))) ∧
    (Ready s c (.remuw c rd ra rb) .B → Next s (.remuw c rd ra rb) c
      (sets rd tINT (if v32 = 0 then ofInt a32 else ofInt (sext 32 (u32 % v32))) true false (decide (v32 = 0))))

/-- Logic and shifts on INT or RAW operands complete with the result, tagged INT when every operand is INT and RAW otherwise; the .F forms set N and
Z from the result, V to 0, and C to the last bit a shift moves out, unchanged for logic and for amount 0 (R197, R206, R210). -/
def Obligations.LogicAndShifts : Prop :=
  ∀ (s : State) (c : CoreId) (rd ra rb sh imm : Nat) (f : Bool),
    let a := val s c ra
    let b := val s c rb
    let n := b.toNat % 64
    let k := carry s c
    let t2 := intOrRaw s c [ra, rb]
    let t1 := intOrRaw s c [ra]
    let m : Word := BitVec.ofNat 64 (imm % 2 ^ 16)
    let out (z : Nat) (bit : Nat) : Bool := if z = 0 then k else a.getLsbD bit
    (IntRaws s c [ra, rb] →
      (Ready s c (.and c rd ra rb f) .B → Next s (.and c rd ra rb f) c (sets rd t2 (a &&& b) f k false)) ∧
      (Ready s c (.or c rd ra rb f) .B → Next s (.or c rd ra rb f) c (sets rd t2 (a ||| b) f k false)) ∧
      (Ready s c (.xor c rd ra rb f) .B → Next s (.xor c rd ra rb f) c (sets rd t2 (a ^^^ b) f k false)) ∧
      (Ready s c (.andn c rd ra rb f) .B → Next s (.andn c rd ra rb f) c (sets rd t2 (a &&& ~~~b) f k false)) ∧
      (Ready s c (.sll c rd ra rb f) .B → Next s (.sll c rd ra rb f) c (sets rd t2 (a <<< n) f (out n (64 - n)) false)) ∧
      (Ready s c (.srl c rd ra rb f) .B → Next s (.srl c rd ra rb f) c (sets rd t2 (a >>> n) f (out n (n - 1)) false)) ∧
      (Ready s c (.sra c rd ra rb f) .B → Next s (.sra c rd ra rb f) c (sets rd t2 (a.sshiftRight n) f (out n (n - 1)) false)) ∧
      (Ready s c (.ror c rd ra rb f) .B → Next s (.ror c rd ra rb f) c (sets rd t2 (a >>> n ||| a <<< ((64 - n) % 64)) f (out n (n - 1)) false))) ∧
    (IntRaws s c [ra] → sh < 64 →
      (Ready s c (.slli c rd ra sh f) .B → Next s (.slli c rd ra sh f) c (sets rd t1 (a <<< sh) f (out sh (64 - sh)) false)) ∧
      (Ready s c (.srli c rd ra sh f) .B → Next s (.srli c rd ra sh f) c (sets rd t1 (a >>> sh) f (out sh (sh - 1)) false)) ∧
      (Ready s c (.srai c rd ra sh f) .B → Next s (.srai c rd ra sh f) c (sets rd t1 (a.sshiftRight sh) f (out sh (sh - 1)) false)) ∧
      (Ready s c (.rori c rd ra sh f) .B → Next s (.rori c rd ra sh f) c (sets rd t1 (a >>> sh ||| a <<< ((64 - sh) % 64)) f (out sh (sh - 1)) false))) ∧
    (IntRaws s c [ra] →
      (Ready s c (.andi c rd ra imm) .B → Next s (.andi c rd ra imm) c (puts rd t1 (a &&& m))) ∧
      (Ready s c (.ori c rd ra imm) .B → Next s (.ori c rd ra imm) c (puts rd t1 (a ||| m))) ∧
      (Ready s c (.xori c rd ra imm) .B → Next s (.xori c rd ra imm) c (puts rd t1 (a ^^^ m))))

/-- MOV, PICK, the immediates SETH, INSH, LI48 and ORH, the bit counts and orders CLZ, CTZ, POPC, BREV64 and BSWAP, GTAG and RETAG complete with
their result and its tag, and leave the flags (R194, R197, R198, R206, R207, R219). -/
def Obligations.MovesImmediatesAndTags : Prop :=
  ∀ (s : State) (c : CoreId) (cond rd ra rb hw imm tag : Nat),
    let a := val s c ra
    let d := val s c rd
    let t1 := intOrRaw s c [ra]
    (Ready s c (.mov c rd ra) .B → Next s (.mov c rd ra) c fun x => x.setG rd (gpr s c ra)) ∧
    (Ready s c (.pick c cond rd ra rb) .B → Next s (.pick c cond rd ra rb) c fun x =>
      x.setG rd (if condHolds (NZCV.of (s.w.core c).psw) cond then gpr s c ra else gpr s c rb)) ∧
    (Ready s c (.seth c rd hw imm) .B → Next s (.seth c rd hw imm) c (puts rd tINT (BitVec.ofNat 64 ((imm % 2 ^ 16) * 2 ^ (16 * hw))))) ∧
    (Ready s c (.li48 c rd imm) .B → Next s (.li48 c rd imm) c (puts rd tINT (ofInt (sext 48 imm)))) ∧
    (Ready s c (.gtag c rd ra) .B → Next s (.gtag c rd ra) c (puts rd tINT (BitVec.ofNat 64 (gpr s c ra).tag.toNat))) ∧
    ((gpr s c ra).tag.toNat < 6 → tag < 6 → Ready s c (.retag c rd ra tag) .B → Next s (.retag c rd ra tag) c (puts rd (BitVec.ofNat 4 tag) a)) ∧
    (Ints s c [rd] → hw < 4 →
      (Ready s c (.insh c rd hw imm) .B → Next s (.insh c rd hw imm) c (puts rd tINT (setBits d (16 * hw + 15) (16 * hw) (imm % 2 ^ 16)))) ∧
      (Ready s c (.orh c rd imm) .B → Next s (.orh c rd imm) c (puts rd tINT (d ||| BitVec.ofNat 64 ((imm % 2 ^ 16) * 2 ^ 48))))) ∧
    (Ints s c [ra] →
      (Ready s c (.clz c rd ra) .B → ∃ n, Next s (.clz c rd ra) c (puts rd tINT (BitVec.ofNat 64 n)) ∧ n ≤ 64 ∧ a.toNat < 2 ^ (64 - n) ∧
        (n < 64 → a.getLsbD (63 - n) = true)) ∧
      (Ready s c (.ctz c rd ra) .B → ∃ n, Next s (.ctz c rd ra) c (puts rd tINT (BitVec.ofNat 64 n)) ∧ n ≤ 64 ∧ (∀ i < n, a.getLsbD i = false) ∧
        (n < 64 → a.getLsbD n = true)) ∧
      (Ready s c (.popc c rd ra) .B → Next s (.popc c rd ra) c
        (puts rd tINT (BitVec.ofNat 64 ((List.range 64).filter fun i => a.getLsbD i).length)))) ∧
    (IntRaws s c [ra] →
      (Ready s c (.brev64 c rd ra) .B → ∃ r : Word, Next s (.brev64 c rd ra) c (puts rd t1 r) ∧ ∀ i < 64, r.getLsbD i = a.getLsbD (63 - i)) ∧
      (Ready s c (.bswap c rd ra) .B → ∃ r : Word, Next s (.bswap c rd ra) c (puts rd t1 r) ∧
        ∀ i < 8, bits r (8 * i + 7) (8 * i) = bits a (63 - 8 * i) (56 - 8 * i)))

/-- HADD, HADDI, HSETO and HOFF complete on a handle with any offset, keep its index, and read no entry; HLEN gives LENGTH of a valid entry of the
acting world (R203). -/
def Obligations.HandleInstructions : Prop :=
  ∀ (s : State) (c : CoreId) (rd ra rb imm : Nat), Tagged s c tHND [ra] →
    let h := val s c ra
    let off := bits h 39 0
    let at_ (o : Nat) : Word := setBits h 39 0 o
    (Ints s c [rb] →
      (Ready s c (.hadd c rd ra rb) .B → Next s (.hadd c rd ra rb) c (puts rd tHND (at_ ((off + (val s c rb).toNat) % 2 ^ 40)))) ∧
      (Ready s c (.hseto c rd ra rb) .B → Next s (.hseto c rd ra rb) c (puts rd tHND (at_ (bits (val s c rb) 39 0))))) ∧
    (Ready s c (.haddi c rd ra imm) .B → Next s (.haddi c rd ra imm) c
      (puts rd tHND (at_ (((off : Int) + sext 16 imm) % 2 ^ 40).toNat))) ∧
    (Ready s c (.hoff c rd ra) .B → Next s (.hoff c rd ra) c (puts rd tINT (BitVec.ofNat 64 off))) ∧
    (let e := ((fetched s.w c).1.hentry c (bits h 63 40)).2
     e.valid = true → e.world = (s.w.core c).cworld → Ready s c (.hlen c rd ra) .B →
      Next s (.hlen c rd ra) c (puts rd tINT (BitVec.ofNat 64 e.len)))

/-! ### TSH-3: floating point -/

/-- The scalar floating-point instructions on words of the format FMT complete lane by lane, each lane rounded in RM (FMA and its kin in FPSW.RM),
with the tag of the format and the flags of all lanes ORed into FPSW; FCMP sets N, Z, C and V from lane 0 (R197, R206, R211 to R213). -/
def Obligations.FloatingPoint : Prop :=
  ∀ (s : State) (c : CoreId) (fmt dst rm rd ra rb rc : Nat) (u : Bool),
    let f := fFmt fmt
    let a := laneOf fmt (val s c ra)
    let b := laneOf fmt (val s c rb)
    let d := laneOf fmt (val s c rc)
    let r := roundMode s c rm
    let r7 := roundMode s c 7
    let t := fTag fmt
    let w (op : Nat → Nat × FFlags) : Core → Core := putsF rd (lanewise fmt t op)
    (Tagged s c t [ra, rb] →
      (Ready s c (.fadd c fmt rm rd ra rb) .B → Next s (.fadd c fmt rm rd ra rb) c (w fun j => fAdd f r (a j) (b j))) ∧
      (Ready s c (.fsub c fmt rm rd ra rb) .B → Next s (.fsub c fmt rm rd ra rb) c (w fun j => fSub f r (a j) (b j))) ∧
      (Ready s c (.fmul c fmt rm rd ra rb) .B → Next s (.fmul c fmt rm rd ra rb) c (w fun j => fMul f r (a j) (b j))) ∧
      (Ready s c (.fdiv c fmt rm rd ra rb) .B → Next s (.fdiv c fmt rm rd ra rb) c (w fun j => fDiv f r (a j) (b j))) ∧
      (Ready s c (.fmin c fmt rd ra rb) .B → Next s (.fmin c fmt rd ra rb) c (w fun j => fMinMax f false false (a j) (b j))) ∧
      (Ready s c (.fmax c fmt rd ra rb) .B → Next s (.fmax c fmt rd ra rb) c (w fun j => fMinMax f true false (a j) (b j))) ∧
      (Ready s c (.fminn c fmt rd ra rb) .B → Next s (.fminn c fmt rd ra rb) c (w fun j => fMinMax f false true (a j) (b j))) ∧
      (Ready s c (.fmaxn c fmt rd ra rb) .B → Next s (.fmaxn c fmt rd ra rb) c (w fun j => fMinMax f true true (a j) (b j))) ∧
      (Ready s c (.fcmp c fmt ra rb) .B → Next s (.fcmp c fmt ra rb) c fun x =>
        let k := fCmp f (a 0) (b 0)
        { x with
          psw := withFlags x.psw (decide (k.1 = .lt)) (decide (k.1 = .eq)) (decide (k.1 = .lt)) (decide (k.1 = .un))
          fpsw := x.fpsw ||| BitVec.ofNat 64 (k.2 % 32) })) ∧
    (Tagged s c t [ra] →
      (Ready s c (.fsqrt c fmt rm rd ra) .B → Next s (.fsqrt c fmt rm rd ra) c (w fun j => fSqrt f r (a j))) ∧
      (Ready s c (.frint c fmt rm rd ra) .B → Next s (.frint c fmt rm rd ra) c (w fun j => fRint f r (a j))) ∧
      (Ready s c (.fabs c fmt rd ra) .B → Next s (.fabs c fmt rd ra) c (w fun j => fSignOp f false (a j))) ∧
      (Ready s c (.fneg c fmt rd ra) .B → Next s (.fneg c fmt rd ra) c (w fun j => fSignOp f true (a j))) ∧
      (Ready s c (.fcvtIf c fmt rm rd ra u) .B → Next s (.fcvtIf c fmt rm rd ra u) c
        (putsF rd (lanewise fmt tINT fun j => fToInt f r u f.width (a j))))) ∧
    (Ints s c [ra] →
      (Ready s c (.fcvtFi c fmt rm rd ra u) .B → Next s (.fcvtFi c fmt rm rd ra u) c (w fun j => fOfInt f r u f.width (a j)))) ∧
    (Tagged s c t [ra, rb, rc] →
      (Ready s c (.fma c fmt rd ra rb rc) .B → Next s (.fma c fmt rd ra rb rc) c (w fun j => fFma f r7 false false (a j) (b j) (d j))) ∧
      (Ready s c (.fms c fmt rd ra rb rc) .B → Next s (.fms c fmt rd ra rb rc) c (w fun j => fFma f r7 false true (a j) (b j) (d j))) ∧
      (Ready s c (.fnma c fmt rd ra rb rc) .B → Next s (.fnma c fmt rd ra rb rc) c (w fun j => fFma f r7 true false (a j) (b j) (d j))) ∧
      (Ready s c (.fnms c fmt rd ra rb rc) .B → Next s (.fnms c fmt rd ra rb rc) c (w fun j => fFma f r7 true true (a j) (b j) (d j)))) ∧
    (Tagged s c t [ra] → (fLanes fmt < fLanes dst → Tagged s c t [rb]) → Ready s c (.fcvtFf c fmt dst rm rd ra rb) .B →
      let n := fLanes fmt
      Next s (.fcvtFf c fmt dst rm rd ra rb) c (putsF rd (lanewise dst (fTag dst) fun j =>
        fConv f (fFmt dst) r (if n < fLanes dst then (if j < n then a j else b (j - n)) else a (rb % 2 * fLanes dst % n + j)))))

/-! ### TSH-3: the vector extension -/

/-- The lane-wise vector instructions complete element by element: active lanes take the result, inactive lanes keep their value and tag, an element's
tag changes where some lane of it is active, and floating point ORs the flags of the active lanes into FPSW (R197, R212, R214, R217, R219). -/
def Obligations.VectorLanes : Prop :=
  ∀ (s : State) (c : CoreId) (fmt msel vd va vb : Nat), MaskOk s c msel →
    let x (r e : Nat) : Word := (elem s c r e).val
    let z (r e i : Nat) : Nat := lane (vWidth fmt) (elem s c r e).val i
    let rm := roundMode s c 7
    let f := fFmt fmt
    let n (e : Nat) : Nat := (x vb e).toNat % 64
    let int (i : Instr) (op : Nat → Word) : Prop :=
      Ready s c i .V → NextV s i c vd (laneResult s c 0 msel vd (fun _ => tINT) fun e _ => (op e).toNat) 0
    let logic (i : Instr) (op : Nat → Word) : Prop :=
      Ready s c i .V → NextV s i c vd (laneResult s c 0 msel vd
        (fun e => if (elem s c va e).tag = tINT ∧ (elem s c vb e).tag = tINT then tINT else tRAW) fun e _ => (op e).toNat) 0
    let float (i : Instr) (op : Nat → Nat → Nat × FFlags) : Prop :=
      Ready s c i .V → NextV s i c vd (laneResult s c fmt msel vd (fun _ => fTag fmt) fun e l => (op e l).1) (laneFlags s c fmt msel fun e l => (op e l).2)
    (ElemsOk s c msel 1 [va, vb] (· = tINT) →
      int (.vadd c msel vd va vb) (fun e => x va e + x vb e) ∧ int (.vsub c msel vd va vb) (fun e => x va e - x vb e) ∧
      int (.vmul c msel vd va vb) (fun e => x va e * x vb e) ∧
      int (.vmin c msel vd va vb) (fun e => if (x va e).toInt ≤ (x vb e).toInt then x va e else x vb e) ∧
      int (.vmax c msel vd va vb) (fun e => if (x va e).toInt ≤ (x vb e).toInt then x vb e else x va e)) ∧
    (ElemsOk s c msel 1 [va, vb] (fun t => t = tINT ∨ t = tRAW) →
      logic (.vand c msel vd va vb) (fun e => x va e &&& x vb e) ∧ logic (.vor c msel vd va vb) (fun e => x va e ||| x vb e) ∧
      logic (.vxor c msel vd va vb) (fun e => x va e ^^^ x vb e) ∧ logic (.vsll c msel vd va vb) (fun e => x va e <<< n e) ∧
      logic (.vsrl c msel vd va vb) (fun e => x va e >>> n e) ∧ logic (.vsra c msel vd va vb) (fun e => (x va e).sshiftRight (n e))) ∧
    (ElemsOk s c msel (vLanes fmt) [va] (· = fTag fmt) → float (.vfsqrt c fmt msel vd va) fun e l => fSqrt f rm (z va e l)) ∧
    (ElemsOk s c msel (vLanes fmt) [va, vb] (· = fTag fmt) →
      float (.vfadd c fmt msel vd va vb) (fun e l => fAdd f rm (z va e l) (z vb e l)) ∧
      float (.vfsub c fmt msel vd va vb) (fun e l => fSub f rm (z va e l) (z vb e l)) ∧
      float (.vfmul c fmt msel vd va vb) (fun e l => fMul f rm (z va e l) (z vb e l)) ∧
      float (.vfdiv c fmt msel vd va vb) (fun e l => fDiv f rm (z va e l) (z vb e l)) ∧
      float (.vfmin c fmt msel vd va vb) (fun e l => fMinMax f false false (z va e l) (z vb e l)) ∧
      float (.vfmax c fmt msel vd va vb) (fun e l => fMinMax f true false (z va e l) (z vb e l))) ∧
    (ElemsOk s c msel (vLanes fmt) [va, vb, vd] (· = fTag fmt) →
      float (.vfma c fmt msel vd va vb) (fun e l => fFma f rm false false (z va e l) (z vb e l) (z vd e l)) ∧
      float (.vfms c fmt msel vd va vb) (fun e l => fFma f rm true false (z va e l) (z vb e l) (z vd e l)))

/-- The complex multiplies complete on pairs of F32P lanes: re = a·b, im = a×b with each component the exact sum of its products (and of vd for
VCMULA), rounded once; VCMULC multiplies by the conjugate of vb (R211, R214, R217). -/
def Obligations.VectorComplex : Prop :=
  ∀ (s : State) (c : CoreId) (msel vd va vb : Nat), MaskOk s c msel → ElemsOk s c msel 2 [va, vb] (· = tF32P) →
    let rm := roundMode s c 7
    let x (r e i : Nat) : FNum := fDecode .f32 (lane 32 (elem s c r e).val i)
    let mul (conj : Bool) (add : Nat → Nat → List FTerm) (e i : Nat) : Nat × FFlags :=
      if i = 0 then fSum .f32 rm ([⟨x va e 0, x vb e 0, false⟩, ⟨x va e 1, x vb e 1, !conj⟩] ++ add e 0)
      else fSum .f32 rm ([⟨x va e 0, x vb e 1, conj⟩, ⟨x va e 1, x vb e 0, false⟩] ++ add e 1)
    let done (i : Instr) (op : Nat → Nat → Nat × FFlags) : Prop :=
      Ready s c i .V → NextV s i c vd (laneResult s c 2 msel vd (fun _ => tF32P) fun e l => (op e l).1) (laneFlags s c 2 msel fun e l => (op e l).2)
    done (.vcmul c msel vd va vb) (mul false fun _ _ => []) ∧ done (.vcmulc c msel vd va vb) (mul true fun _ _ => []) ∧
      (ElemsOk s c msel 2 [vd] (· = tF32P) → done (.vcmula c msel vd va vb) (mul false fun e i => [⟨x vd e i, fOne, false⟩]))

/-- VCMPEQ, VCMPNE, VCMPLT and VCMPLE complete with bit j of g[VD] holding the result for active lane j, and 0 for every other bit: INT compares are
signed, and an unordered floating-point pair is false, except for VCMPNE (R214, R215). -/
def Obligations.VectorCompare : Prop :=
  ∀ (s : State) (c : CoreId) (fmt msel vd va vb : Nat), MaskOk s c msel → ElemsOk s c msel (vLanes fmt) [va, vb] (· = fTag fmt) →
    let k := vLanes fmt
    let z (r j : Nat) : Nat := lane (vWidth fmt) (elem s c r (j / k)).val (j % k)
    let cmp (j : Nat) : FRel × FFlags := fCmp (fFmt fmt) (z va j) (z vb j)
    let fl : FFlags := if fmt = 0 then 0 else laneFlags s c fmt msel fun e i => (cmp (e * k + i)).2
    let done (i : Instr) (int : Int → Int → Bool) (float : FRel → Bool) : Prop :=
      Ready s c i .V → ∃ v : Word, Next s i c (putsF vd (⟨tINT, v⟩, fl)) ∧ ∀ j < 64, v.getLsbD j =
        (decide (j < 8 * k) && active s c msel j && (if fmt = 0 then int (sext 64 (z va j)) (sext 64 (z vb j)) else float (cmp j).1))
    done (.vcmpeq c fmt msel vd va vb) (fun x y => decide (x = y)) (fun r => decide (r = .eq)) ∧
      done (.vcmpne c fmt msel vd va vb) (fun x y => decide (x ≠ y)) (fun r => decide (r ≠ .eq)) ∧
      done (.vcmplt c fmt msel vd va vb) (fun x y => decide (x < y)) (fun r => decide (r = .lt)) ∧
      done (.vcmple c fmt msel vd va vb) (fun x y => decide (x ≤ y)) (fun r => decide (r = .lt) || decide (r = .eq))

/-- VRSUM, VRMIN and VRMAX complete with one lane in g[VD]: on INT the sum of the active lanes modulo 2^64 and the least or greatest of them; in
floating point the balanced tree over neighbouring lanes, with 0 for an inactive lane of VRSUM (R214, R217). That VRMIN and VRMAX leave inactive
lanes out, and give a free value without an active one, is the model's choice (assumption 61). -/
def Obligations.VectorReductions : Prop :=
  ∀ (s : State) (c : CoreId) (fmt msel vd va : Nat), MaskOk s c msel → ElemsOk s c msel (vLanes fmt) [va] (· = fTag fmt) →
    let k := vLanes fmt
    let z (j : Nat) : Nat := lane (vWidth fmt) (elem s c va (j / k)).val (j % k)
    let on := (List.range (8 * k)).filter fun j => active s c msel j
    let rm := roundMode s c 7
    (Ready s c (.vrsum c fmt msel vd va) .V →
      (fmt = 0 → Next s (.vrsum c fmt msel vd va) c (puts vd tINT (BitVec.ofNat 64 (on.map z).sum))) ∧
      (fmt ≠ 0 → ∀ r, (treeFold (fun x y => let q := fAdd (fFmt fmt) rm x.1 y.1; (q.1, fOr q.2 (fOr x.2 y.2))) 5
          ((List.range (8 * k)).map fun j => ((if active s c msel j then z j else 0), (0 : FFlags)))).head? = some r →
        Next s (.vrsum c fmt msel vd va) c (putsF vd (⟨fTag fmt, BitVec.ofNat 64 (r.1 % 2 ^ vWidth fmt)⟩, r.2)))) ∧
    (fmt = 0 → on ≠ [] →
      (Ready s c (.vrmin c fmt msel vd va) .V → ∃ j ∈ on, Next s (.vrmin c fmt msel vd va) c (puts vd tINT (BitVec.ofNat 64 (z j))) ∧
        ∀ i ∈ on, sext 64 (z j) ≤ sext 64 (z i)) ∧
      (Ready s c (.vrmax c fmt msel vd va) .V → ∃ j ∈ on, Next s (.vrmax c fmt msel vd va) c (puts vd tINT (BitVec.ofNat 64 (z j))) ∧
        ∀ i ∈ on, sext 64 (z i) ≤ sext 64 (z j))) ∧
    ((Ready s c (.vrmin c fmt msel vd va) .V → ∃ r fl, Next s (.vrmin c fmt msel vd va) c (putsF vd (⟨fTag fmt, BitVec.ofNat 64 (r % 2 ^ vWidth fmt)⟩, fl))) ∧
      (Ready s c (.vrmax c fmt msel vd va) .V → ∃ r fl, Next s (.vrmax c fmt msel vd va) c (putsF vd (⟨fTag fmt, BitVec.ofNat 64 (r % 2 ^ vWidth fmt)⟩, fl))))

/-- The moves and permutes complete: VBCAST and VINS put g[VA] into active elements, VEXT takes an element out, VPERM and VSHUF.B gather elements and
bytes, VSEL chooses by lane, VRETAG renames tags; inactive lanes keep their value and tag (R197, R198, R214, R219). That a move copies the operand's
tag whole is the model's reading (assumption 58); an index past the register gives a free value, of which nothing is said (assumption 59). -/
def Obligations.VectorMoves : Prop :=
  ∀ (s : State) (c : CoreId) (fmt msel vd va vb idx tag : Nat), MaskOk s c msel →
    let k := vLanes fmt
    let n := vWidth fmt
    let g := gpr s c va
    let some_ (e : Nat) : Bool := someActive s c msel k e
    let keep (e : Nat) (x : TWord) : Prop := x = elem s c vd e
    let ix (e : Nat) : Nat := (elem s c vb e).val.toNat
    let bx (e i : Nat) : Nat := lane 8 (elem s c vb e).val i
    (((∃ e < 8, some_ e = true) → g.tag ≠ tPOISON) → Ready s c (.vbcast c fmt msel vd va) .V →
      NextV s (.vbcast c fmt msel vd va) c vd (laneResult s c fmt msel vd (fun _ => g.tag) fun _ i => lane n g.val i) 0) ∧
    ((some_ idx = true → g.tag ≠ tPOISON) → idx < 8 → Ready s c (.vins c fmt msel vd va idx) .V →
      NextV s (.vins c fmt msel vd va idx) c vd (fun e x => if e = idx then laneResult s c fmt msel vd (fun _ => g.tag) (fun _ i => lane n g.val i) e x
        else keep e x) 0) ∧
    ((elem s c va idx).tag ≠ tPOISON → Ready s c (.vext c vd va idx) .V → Next s (.vext c vd va idx) c fun x => x.setG vd (elem s c va idx)) ∧
    ((∀ e < 8, some_ e = true → (elem s c vb e).tag = tINT ∧ (ix e < 8 → (elem s c va (ix e)).tag ≠ tPOISON)) →
      Ready s c (.vperm c fmt msel vd va vb) .V → NextV s (.vperm c fmt msel vd va vb) c vd
        (fun e x => ix e < 8 → laneResult s c fmt msel vd (fun e => (elem s c va (ix e)).tag) (fun e i => lane n (elem s c va (ix e)).val i) e x) 0) ∧
    ((∀ e < 8, some_ e = true → (elem s c vb e).tag = tINT ∧ ∀ i < 8, bx e i < 64 → (elem s c va (bx e i / 8)).tag ≠ tPOISON) →
      Ready s c (.vshufB c fmt msel vd va vb) .V → NextV s (.vshufB c fmt msel vd va vb) c vd
        (fun e x => (∀ i < 8, bx e i < 64) → ∃ y : Word, (∀ i < 8, lane 8 y i = lane 8 (elem s c va (bx e i / 8)).val (bx e i % 8)) ∧
          laneResult s c fmt msel vd (fun _ => tRAW) (fun _ i => lane n y i) e x) 0) ∧
    ((∀ e < 8, (some_ e = true → (elem s c va e).tag ≠ tPOISON) ∧ ((∃ i < k, active s c msel (e * k + i) = false) → (elem s c vb e).tag ≠ tPOISON)) →
      Ready s c (.vsel c fmt msel vd va vb) .V → NextV s (.vsel c fmt msel vd va vb) c vd
        (fun e x => (∀ i < k, lane n x.val i = if active s c msel (e * k + i) then lane n (elem s c va e).val i else lane n (elem s c vb e).val i) ∧
          ((∀ i < k, active s c msel (e * k + i) = true) → x.tag = (elem s c va e).tag) ∧ (some_ e = false → x.tag = (elem s c vb e).tag)) 0) ∧
    (tag < 6 → ElemsOk s c msel k [va] (fun t => t.toNat < 6) → Ready s c (.vretag c fmt msel vd va tag) .V →
      NextV s (.vretag c fmt msel vd va tag) c vd (laneResult s c fmt msel vd (fun _ => BitVec.ofNat 4 tag) fun e i => lane n (elem s c va e).val i) 0)

/-! ### TSH-3: memory -/

/-- LD completes wherever its operand tags, its access checks and its load succeed: rd takes the loaded word, MODE 2 and 3 update the base, and
nothing is stored. From memory or TCM it is the bytes at the address, little-endian, sign-extended where SX says; fewer than 8 bytes give INT and 8
unaligned ones RAW (R196, R198, R204). A DEVICE access may change the device besides. -/
def Obligations.Loads : Prop :=
  ∀ (s : State) (c : CoreId) (mode : Nat) (sx : Bool) (sz rd ra d : Nat), Ready s c (.ld c mode sx sz rd ra d) .B →
    let w := (fetched s.w c).1
    let base := gpr s c ra
    let size := 2 ^ sz
    let form := w.memForm c mode size d
    tagTrap ((base, isBase c) :: form.1) = none → ∀ (w1 w2 : W) (ps : List Piece) (v : TWord),
      w.resolveWith c base form.2.1 size .rd false (loadChk c size) = (w1, .ok ps) → w1.loadPieces c (s.w.core c).pc.toNat size sx ps = (w2, .ok v) →
      (isDevice ps = false → Next s (.ld c mode sx sz rd ra d) c fun x =>
        if mode < 2 then x.setG rd v else (x.setG rd v).setG ra (nextBase w2 c base form.2.2)) ∧
      (isDevice ps = true → ∃ t, exec (.ld c mode sx sz rd ra d) s = .next t ∧
        let y := (w2.core c).setG rd v
        arch (t.w.core c) = arch { (if mode < 2 then y else y.setG ra (nextBase w2 c base form.2.2)) with
          pc := BitVec.ofNat 64 (nextPc s c (.ld c mode sx sz rd ra d)) }) ∧
      (Quiet s.w → isDevice ps = false → ∀ p, ps = [p] → p.n = size → ∀ pa, storedAt w1 c p ≠ [] → spotAt c p.spot = some pa →
        v.val = (if sx = true ∧ size < 8 then ofInt (sext (8 * size) (s.w.le pa size)) else BitVec.ofNat 64 (s.w.le pa size)) ∧
        (size < 8 → v.tag = tINT) ∧ (size = 8 → pa % 8 ≠ 0 → v.tag = tRAW) ∧
        (size = 8 → pa % 8 = 0 → v.tag = s.w.tagOf (pa / 8) ∨ v.tag = tPOISON))

/-- ST completes wherever its operand tags, its access checks and its data tag succeed: MODE 2 and 3 update the base; from then on the core's loads,
and for its own TCM and a window memory itself, hold the bytes of the register, little-endian; the words touched take the register's tag for a whole
aligned word and RAW otherwise; and no other byte of memory changes (R196, R198, R204, R257). -/
def Obligations.Stores : Prop :=
  ∀ (s : State) (c : CoreId) (mode sz rs ra d : Nat), Ready s c (.st c mode sz rs ra d) .B →
    let w := (fetched s.w c).1
    let pc := (s.w.core c).pc.toNat
    let base := gpr s c ra
    let x := gpr s c rs
    let size := 2 ^ sz
    let form := w.memForm c mode size d
    let whole := decide (sz = 3) && (match w.peek c base form.2.1 with | some a => decide (a % 8 = 0) | none => true)
    firstTrap (tagTrap ((base, isBase c) :: form.1)) (storeTrap (w.tenantStore c) whole x.tag) = none → ∀ (w1 w2 : W) (ps : List Piece),
      w.resolveWith c base form.2.1 size .wr false (storeChk c) = (w1, .ok ps) → w1.storePieces c pc size x ps = (w2, none) → isDevice ps = false →
      ∃ t, exec (.st c mode sz rs ra d) s = .next t ∧
        AfterStore s t c (moved s c (fun y => if mode < 2 then y else y.setG ra (nextBase w2 c base form.2.2)) (nextPc s c (.st c mode sz rs ra d))) ∧
        (Quiet s.w → OnlyStored s t w1 c ps ∧
          (∀ p ∈ ps, ∀ i < p.n, pieceByte t c p i = BitVec.ofNat 8 (x.val.toNat / 256 ^ (p.first + i))) ∧
          ∀ pa mt tr, ps = [⟨.mem pa mt, 0, size, tr⟩] → ∀ wi, pa / 8 ≤ wi → wi ≤ (pa + size - 1) / 8 →
            tagSeen t c wi = if size = 8 ∧ pa % 8 = 0 then x.tag else tRAW)

/-- VLD and VST complete wherever their base, mask and index tags are allowed and every active element passes its checks, lowest first: VLD writes
each active element with the word that its address delivers and leaves the others; VST stores its active elements, changes no other byte, and MODE 2
updates the base of both (R204, R216). -/
def Obligations.VectorLoadsAndStores : Prop :=
  ∀ (s : State) (c : CoreId) (mode msel v ra d : Nat),
    let w := (fetched s.w c).1
    let pc := (s.w.core c).pc.toNat
    let base := gpr s c ra
    let m := w.maskReg c msel
    let up (u : W) (x : Core) : Core := if mode = 2 then x.setG ra (nextBase u c base (sext 11 d * 64)) else x
    tagTrap ((base, isBase c) :: maskCheck m ++ w.vmForm c mode d) = none →
      (Ready s c (.vld c mode msel v ra d) .V → ∀ (w1 : W) (vs : List (Nat × TWord)),
        loadElems c pc mode d base m w (List.range 8) = (w1, .ok vs) →
        ∃ n : Tab TWord, Next s (.vld c mode msel v ra d) c (fun x => up w1 { x with v := n }) ∧
          (∀ e < 8, if active s c msel e = true then (e, Tab.getD n (v * 8 + e) {}) ∈ vs else Tab.getD n (v * 8 + e) {} = elem s c v e) ∧
          ∀ k, k / 8 ≠ v → Tab.getD n k {} = Tab.getD (s.w.core c).v k {}) ∧
      (Ready s c (.vst c mode msel v ra d) .V → ∀ (w1 : W) (xs : List (TWord × List Piece)),
        checkElems c mode v d base m w (List.range 8) = (w1, .ok xs) →
        let w2 := xs.foldl (fun (u : W) (q : TWord × List Piece) => (u.storePieces c pc 8 q.1 q.2).1) w1
        ∃ t, exec (.vst c mode msel v ra d) s = .next t ∧ AfterStore s t c (moved s c (up w2) (nextPc s c (.vst c mode msel v ra d))) ∧
          (Quiet s.w → OnlyStored s t w1 c (xs.flatMap Prod.snd) ∧
            ∀ x ps, xs = [(x, ps)] → ∀ p ∈ ps, ∀ i < p.n, pieceByte t c p i = BitVec.ofNat 8 (x.val.toNat / 256 ^ (p.first + i))))

/-- LR on an aligned word of NORMAL memory or TCM completes with the word and leaves a reservation of its line, unless the core halts there. SC
completes with 0 and its word stored where the reservation stands, with 1 and nothing stored where it does not; either way the reservation is gone
(R209, R293, R297, R298). -/
def Obligations.Reservations : Prop :=
  ∀ (s : State) (c : CoreId) (rd ra rb : Nat),
    let w := (fetched s.w c).1
    let base := gpr s c ra
    let x := gpr s c rb
    tagTrap [(base, isBase c)] = none → w.align8 c base = none →
      (Ready s c (.lr c rd ra) .A → ∀ (w1 w2 : W) (p : Piece) (r : LineRef) (v : TWord),
        w.resolve c base 0 8 .rd true = (w1, .ok [p]) → w1.resvLine c base [p] = .ok r →
        ((w1.modCore c fun y => { y with resv := none, lrUsed := false }).answerHeld c).loadPieces c (s.w.core c).pc.toNat 8 false [p] = (w2, .ok v) →
        ∃ t, exec (.lr c rd ra) s = .next t ∧ After s t c (moved s c (fun y => y.setG rd v) (nextPc s c (.lr c rd ra))) ∧
          (Quiet s.w → IsWord s c p v ∧ ((t.w.core c).halted = false → (t.w.core c).resv = some r))) ∧
      (Ready s c (.sc c rd ra rb) .A → storeTrap (w.tenantStore c) true x.tag = none → ∀ (w1 : W) (p : Piece) (r : LineRef),
        w.resolve c base 0 8 .wr true = (w1, .ok [p]) → w1.resvLine c base [p] = .ok r →
        let w2 := w1.checkpoint c
        ((w2.core c).resv ≠ some r → ∃ t, exec (.sc c rd ra rb) s = .next t ∧
          After s t c (moved s c (puts rd tINT 1) (nextPc s c (.sc c rd ra rb))) ∧ (t.w.core c).resv = none) ∧
        ((w2.core c).resv = some r → (w2.tenantStore c = true → w2.overwrites c p = false) → ∃ t, exec (.sc c rd ra rb) s = .next t ∧
          AfterStore s t c (moved s c (puts rd tINT 0) (nextPc s c (.sc c rd ra rb))) ∧ (t.w.core c).resv = none ∧
          (Quiet s.w → OnlyStored s t w1 c [p] ∧ WordStored t w1 c p x)))

/-- The ten atomics on an aligned word of memory or TCM that the core may read and write complete, near or far, with the old word in rd and the new
word stored in one access: the operand for ATSWAP, and for ATCAS where the data equals rd; sum, logic, minimum or maximum, tagged INT, for the others,
whose old word must be INT. No other byte changes (R197, R209, R294 to R296). -/
def Obligations.Atomics : Prop :=
  ∀ (s : State) (c : CoreId) (rd ra rb : Nat),
    let w := (fetched s.w c).1
    let base := gpr s c ra
    let b := gpr s c rb
    let d := gpr s c rd
    let atom (i : Instr) (op : Nat) (new : TWord → Option TWord) : Prop :=
      Ready s c i .A → ∀ (w1 w2 w3 : W) (ps : List Piece) (p : Piece) (old : TWord),
        w.resolve c base 0 8 .rd true = (w1, .ok ps) → w1.resolve c base 0 8 .wr true = (w2, .ok [p]) →
        (w2.checkpoint c).atomicAt c (s.w.core c).pc.toNat p.spot (fun o => atomicOp op (w.tenantStore c) o b d) = (w3, .ok old) →
        ∃ t, exec i s = .next t ∧ AfterStore s t c (moved s c (fun x => x.setG rd old) (nextPc s c i)) ∧
          (Quiet s.w → IsWord s c p old ∧ OnlyStored s t w2 c [p] ∧
            match new old with | some v => WordStored t w2 c p v | none => t.mem = s.mem)
    let op (f : Word → Word → Word) (o : TWord) : Option TWord := some ⟨tINT, f o.val b.val⟩
    tagTrap [(base, isBase c)] = none → w.align8 c base = none →
      (storeTrap (w.tenantStore c) true b.tag = none →
        atom (.atswap c rd ra rb) 2 (fun _ => some b) ∧
        (d.tag ≠ tPOISON → atom (.atcas c rd ra rb) 11 (fun o => if o.val = d.val then some b else none))) ∧
      (Ints s c [rb] →
        atom (.atadd c rd ra rb) 3 (op fun o x => o + x) ∧ atom (.atand c rd ra rb) 4 (op fun o x => o &&& x) ∧
        atom (.ator c rd ra rb) 5 (op fun o x => o ||| x) ∧ atom (.atxor c rd ra rb) 6 (op fun o x => o ^^^ x) ∧
        atom (.atmins c rd ra rb) 7 (op fun o x => if o.toInt ≤ x.toInt then o else x) ∧
        atom (.atmaxs c rd ra rb) 8 (op fun o x => if o.toInt ≤ x.toInt then x else o) ∧
        atom (.atminu c rd ra rb) 9 (op fun o x => if o.toNat ≤ x.toNat then o else x) ∧
        atom (.atmaxu c rd ra rb) 10 (op fun o x => if o.toNat ≤ x.toNat then x else o))

/-! ### TSH-3: control transfer and system -/

/-- BC and BL go to PC + 4·offset where their condition holds, CB where its test of rA holds, and on in sequence otherwise; JR and JALR go to rA; BL
and JALR set the link register to PC + 4 (R207, R208). That BL links whether or not it is taken is the model's reading (assumption 54). -/
def Obligations.Branches : Prop :=
  ∀ (s : State) (c : CoreId) (cond off ra rd kind tag : Nat),
    let pc := (s.w.core c).pc
    let dest (n : Nat) : Nat := (pc + ofInt (4 * sext n off)).toNat
    let holds := condHolds (NZCV.of (s.w.core c).psw) cond
    let go (i : Instr) (taken : Bool) (f : Core → Core) (a : Nat) : Prop := Ends s i c (moved s c f (if taken = true then a else nextPc s c i))
    let test : Bool := match kind with
      | 0 => decide (val s c ra = 0)
      | 1 => decide (val s c ra ≠ 0)
      | 2 => decide ((gpr s c ra).tag.toNat = tag)
      | _ => decide ((gpr s c ra).tag.toNat ≠ tag)
    (Ready s c (.bc c cond off) .B → go (.bc c cond off) holds id (dest 22)) ∧
    (Ready s c (.bl c cond off) .B → go (.bl c cond off) holds (puts 31 tINT (pc + 4)) (dest 22)) ∧
    ((kind < 2 → IntRaws s c [ra]) → Ready s c (.cb c ra kind tag off) .B → go (.cb c ra kind tag off) test id (dest 14)) ∧
    (Ints s c [ra] → (val s c ra).toNat % 4 = 0 →
      (Ready s c (.jr c ra) .B → go (.jr c ra) true id (val s c ra).toNat) ∧
      (Ready s c (.jalr c rd ra) .B → go (.jalr c rd ra) true (puts rd tINT (pc + 4)) (val s c ra).toNat))

/-- MFSR reads each system register of the core's profile; MTSR writes those that take writes, reserved bits staying 0, and leaves a field as it is
where the value is a reserved encoding (R191, R233); RDTIME reads the timebase (R21); FENCE goes on with no store held back except for the load-load
kind (R308); WFI puts the core to a nap (R427). -/
def Obligations.SystemRegisters : Prop :=
  ∀ (s : State) (c : CoreId) (rd rs n kind : Nat),
    let w := (fetched s.w c).1
    let x := s.w.core c
    let v := val s c rs
    let g : Group := if n < 2 then .B else .S0
    (Ready s c (.mfsr c rd n) g → ∀ r, w.sysReg c n = some r →
      Next s (.mfsr c rd n) c (fun y => y.setG rd r) ∧ (n = 0 → r = ⟨tINT, x.psw⟩) ∧ (n = 1 → r = ⟨tINT, x.fpsw⟩) ∧
        (n = 2 → r = ⟨tINT, BitVec.ofNat 64 x.cworld⟩) ∧ (n = 3 → r = x.cstk) ∧ (n = 4 → r = ⟨tINT, x.vbase⟩) ∧ (n = 5 → r = ⟨tINT, x.estk⟩) ∧
        (n = 6 → r = ⟨tINT, x.estat⟩) ∧ (n = 8 → r = ⟨tINT, x.iena⟩) ∧ (n = 9 → r = ⟨tINT, x.ndead⟩) ∧ (n = 10 → r = ⟨tINT, x.corectl⟩) ∧
        (n = 12 → r = ⟨tINT, x.tcmctl⟩)) ∧
    (Ints s c [rs] → (w.sysReg c n).isSome = true → Ready s c (.mtsr c rs n) g → Next s (.mtsr c rs n) c fun y => match n with
      | 0 => { y with psw := v &&& 0xF0000000 ||| (match c with | .crn _ => (if x.cworld = 0 then v else y.psw) | .flo _ => y.psw) &&& 1 }
      | 1 => { y with fpsw := v &&& 0x1F ||| (if 4 < bits v 10 8 then y.fpsw else v) &&& 0x700 }
      | 3 => { y with cstk := gpr s c rs }
      | 4 => { y with vbase := v &&& ~~~0x1FF }
      | 5 => { y with estk := v &&& 0x1FF80 }
      | 6 => { y with estat := y.estat &&& ~~~(v &&& 1) }
      | 7 => { y with ipend := y.ipend &&& ~~~(v &&& 0x440) }
      | 8 => { y with iena := v &&& 0xFFFF }
      | 9 => { y with ndead := v }
      | 10 => { y with corectl := v &&& 0x3E }
      | 12 => { y with tcmctl := v &&& 0xFFFF0000 ||| (if bits v 4 0 = 0 then y.tcmctl else v) &&& 0x1F }
      | _ => y) ∧
    (Ready s c (.rdtime c rd) .B → Next s (.rdtime c rd) c (puts rd tINT (BitVec.ofNat 64 s.now))) ∧
    (Ready s c (.fence c kind) .B → ∃ t, exec (.fence c kind) s = .next t ∧ After s t c (moved s c id (nextPc s c (.fence c kind))) ∧
      (kind ≠ 1 → ∀ p, c = .crn p → (t.w.core c).out = [])) ∧
    (Ready s c (.wfi c) .S0 → Next s (.wfi c) c fun y => { y with waiting := true })

/-- The TINVs drop the translations they name from every core, HINV a handle index from every core's handle cache (R181, R203); TAGSET changes the
tag of the word that holds its address and no data (R199); DC.CLEAN leaves no modified copy of the line in the core's L2, DC.INV and DC.CIV none at
all, and only DC.INV may lose data, that of its line; IC.INV drops the line from the I-L1 (R275 to R277). All complete and change no register. -/
def Obligations.MaintenanceInstructions : Prop :=
  ∀ (s : State) (c : CoreId) (ra tag : Nat),
    let w := (fetched s.w c).1
    let a := gpr s c ra
    let v := a.val.toNat
    let world := (s.w.core c).cworld
    let end_ (i : Instr) : Arch := moved s c id (nextPc s c i)
    let tinv (i : Instr) (drops : TlbEntry → Prop) : Prop :=
      ∃ t, exec i s = .next t ∧ After s t c (end_ i) ∧ ∀ d e, e ∈ (t.w.core d).tlb ↔ e ∈ (w.core d).tlb ∧ ¬ drops e
    (Ready s c (.tinvWorld c) .S → tinv (.tinvWorld c) fun e => e.world = world) ∧
    (Ready s c (.tinvAll c) .S0 → tinv (.tinvAll c) fun _ => True) ∧
    (Ints s c [ra] →
      (Ready s c (.tinvVa c ra) .S → tinv (.tinvVa c ra) fun e => e.world = world ∧ v >>> e.shift = (e.vpn * 4096) >>> e.shift) ∧
      (Ready s c (.hinv c ra) .S0 → ∃ t, exec (.hinv c ra) s = .next t ∧ After s t c (end_ (.hinv c ra)) ∧
        ∀ d h, h ∈ (t.w.core d).hcache ↔ h ∈ (w.core d).hcache ∧ h.1 ≠ v) ∧
      (Ready s c (.tagset c ra tag) .S0 → tReserved (BitVec.ofNat 4 tag) = false → ∀ (w1 : W) (p : Piece),
        w.resolve c ⟨tINT, BitVec.ofNat 64 (v / 8 * 8)⟩ 0 8 .wr true = (w1, .ok [p]) →
        ∃ t, exec (.tagset c ra tag) s = .next t ∧ AfterStore s t c (end_ (.tagset c ra tag)) ∧
          (Quiet s.w → (∀ x, t.mem.byte x = s.mem.byte x) ∧ (∀ pa mt, p.spot = .mem pa mt → tagSeen t c (pa / 8) = BitVec.ofNat 4 tag) ∧
            ∀ off q, p.spot = .tcm off → c = .crn q → t.w.tagOf (tcmAddr q off / 8) = BitVec.ofNat 4 tag)) ∧
      ∀ (w1 : W) (ps : List Piece), (w.checkpoint c).resolve c a 0 1 .rd false = (w1, .ok ps) → Quiet s.w →
        let clean (i : Instr) (left : Nat → State → Prop) : Prop :=
          ∃ t, exec i s = .next t ∧ After s t c (end_ i) ∧ ∀ pa f n tr, ps = [⟨.mem pa 0, f, n, tr⟩] → OneWay w1 (coreL2 c) (pa / 64) → left (pa / 64) t
        (Ready s c (.dcClean c ra) .S → clean (.dcClean c ra) fun l t => t.w.l2St (coreL2 c) l ≠ some .M ∧ t.w.l2St (coreL2 c) l ≠ some .O) ∧
        (Ready s c (.dcCiv c ra) .S0 → clean (.dcCiv c ra) fun l t => t.w.l2St (coreL2 c) l = none) ∧
        (Ready s c (.icInv c ra) .S0 → clean (.icInv c ra) fun l t => (t.w.core c).il1 =
          match l1Way (w1.core c).il1 (l1Set c true l) l with
          | some k => Tab.del (w1.core c).il1 (l1Set c true l * 4 + k)
          | none => (w1.core c).il1) ∧
        (Ready s c (.dcInv c ra) .S0 → ∃ t, exec (.dcInv c ra) s = .next t ∧ AfterStore s t c (end_ (.dcInv c ra)) ∧
          ∀ pa f n tr, ps = [⟨.mem pa 0, f, n, tr⟩] → (OneWay w1 (coreL2 c) (pa / 64) → t.w.l2St (coreL2 c) (pa / 64) = none) ∧
            ∀ x, x / 64 ≠ pa / 64 → t.mem.byte x = s.mem.byte x))

/-- SVC and BRK take their exception where the frame at SP − 96 passes its checks and the vector holds an address: the core goes on in world 0x0000
at the handler, with interrupts disabled, on its stack (a tenant's g30 goes to CSTK), below a frame that holds the PC after the instruction, PSW,
CAUSE, 0, g1 to g7 and INFO; no other byte changes (R218, R238 to R241). -/
def Obligations.ExceptionEntry : Prop :=
  ∀ (s : State) (p code : Nat),
    let c := CoreId.crn p
    let x := s.w.core c
    let w1 := (fetched s.w c).1.checkpoint c
    let switch (y : Core) : Core := if x.cworld = 0 then y else { y with cstk := y.gr 30 }.setG 30 y.cstk
    let w2 := if x.cworld = 0 then w1 else w1.modCore c switch
    ∀ (w3 w4 : W) (spots : List (Nat × Spot)) (h : Word), w2.frameCheck c ((w2.core c).gr 30) = (w3, 0, spots) →
      let info := (s.w.issue c).fetchWord c
      let frame (cause : Nat) : List TWord :=
        [⟨tINT, x.pc + 4⟩, ⟨tINT, x.psw⟩, ⟨tINT, BitVec.ofNat 64 (cause + (if x.cworld = 0 then 0 else 256))⟩, ⟨tINT, 0⟩] ++
          (List.range 7).map (fun r => x.gr (r + 1)) ++ [⟨tINT, BitVec.ofNat 64 (x.cworld * 2 ^ 48 + info)⟩]
      let enters (i : Instr) (exc cause : Nat) : Prop := Ready s c i .S → w3.vector c exc = (w4, some h) →
        ∃ t, exec i s = .next t ∧
          AfterStore s t c (arch (let y := switch x
            { y.setG 30 ⟨tINT, (y.gr 30).val - 96⟩ with cworld := 0, psw := setBits y.psw 0 0 0, pc := h })) ∧
          (Quiet s.w → OnlyStored s t w4 c (spots.map fun q => ⟨q.2, 0, 8, true⟩) ∧
            ∀ q ∈ spots, WordStored t w4 c ⟨q.2, 0, 8, true⟩ ((frame cause).getD q.1 {}))
      enters (.svc c code) 0xA (0xA + code % 1024 * 1024) ∧ enters (.brk c) 0xB 0xB

/-- ERET restores PC, PSW, g1 to g7 and the world from the frame at g30, which rises by 96; a return to a tenant swaps g30 with CSTK and takes the
tenant's AKMASK; a reservation is gone (R242). SRET with a length that its buffers hold ends the segment: its core is idle and the segment is gone
from the loader (R150); segment numbers rise, so it is below the next one. -/
def Obligations.Returns : Prop :=
  ∀ (s : State) (c : CoreId),
    let w := (fetched s.w c).1
    (Ready s c (.eret c) .S0 → Ints s c [30] → ∀ (w1 : W) (f : List TWord),
      w.frameWords c (s.w.core c).pc.toNat (gpr s c 30) [0, 1, 4, 5, 6, 7, 8, 9, 10, 11] = (w1, .ok f) →
      let word (i : Nat) : TWord := f.getD i {}
      let world := bits (word 9).val 63 48
      let sp : TWord := ⟨tINT, val s c 30 + 96⟩
      (word 0).tag = tINT → (word 1).tag = tINT → (word 9).tag = tINT → w1.worldActive world = true →
      ∃ t, exec (.eret c) s = .next t ∧ (t.w.core c).resv = none ∧
        After s t c (moved s c (fun x =>
          let x := (List.range 7).foldl (fun (x : Core) (k : Nat) => x.setG (k + 1) (word (k + 2))) x
          let x := { x with psw := (word 1).val &&& 0xF0000001, cworld := world }
          if world = 0 then x.setG 30 sp
          else { x.setG 30 x.cstk with cstk := sp, akmask := match Tab.find? w1.dev.worlds world with | some r => r.akmask | none => 0 }) (word 0).val.toNat)) ∧
    (∀ n, c = .flo n → Ready s c (.sret c) .K → ∀ (id : Nat) (g : KSeg), w.segOn n = some (id, g) → id < w.dev.flo.next → (gpr s c 1).tag = tINT →
      (val s c 1).toNat ≤ g.outChain.length * 4096 → val s c 1 ≠ BitVec.allOnes 64 →
      ∃ t, exec (.sret c) s = .next t ∧ (t.w.core c).active = false ∧ Tab.find? t.w.dev.flo.segs id = none)

/-- MOVBLK and CRC complete for length 0 and for a length of one step, a whole aligned word or one byte, outside DEVICE memory: MOVBLK moves it with
its tag, where the regions do not overlap; CRC feeds it to the accumulator. A TAGSCRUB that runs to its end has handled its length, up to 1 MiB; one
within a word sets its tag and clears the data where Z says so. Addresses and lengths move on by what was handled (R199, R220). -/
def Obligations.Microcoded : Prop :=
  ∀ (s : State) (c : CoreId) (rd ra rb poly tag : Nat) (zero : Bool),
    let w := (fetched s.w c).1
    let pc := (s.w.core c).pc.toNat
    let d := val s c rd
    let a := val s c ra
    let b := val s c rb
    let total (l : Word) : Nat := min l.toNat (2 ^ 20)
    let on (v : Word) (n : Nat) : TWord := ⟨tINT, v + BitVec.ofNat 64 n⟩
    let left (v : Word) (n : Nat) : TWord := ⟨tINT, v - BitVec.ofNat 64 n⟩
    let pcTo (x : Core) (i : Instr) : Core := { x with pc := BitVec.ofNat 64 (nextPc s c i) }
    let x := s.w.core c
    let mov (n : Nat) : Core := ((x.setG rd (on d n)).setG ra (on a n)).setG rb (left b n)
    let crc (y : Core) (n : Nat) : Core := (y.setG ra (on a n)).setG rb (left b n)
    let scrub (n : Nat) : Core := (x.setG rd (on d n)).setG ra (left a n)
    let t4 : Tag := BitVec.ofNat 4 tag
    (Ready s c (.movblk c rd ra rb) .M → (b = 0 → Ints s c [rd, ra, rb] → ∃ t, exec (.movblk c rd ra rb) s = .next t ∧
        AfterLoop s t c (pcTo (mov 0) (.movblk c rd ra rb)) ∧ (Quiet s.w → t.mem = s.mem)) ∧
      ∀ (n : Nat) (w0 w1 w2 w3 : W) (y : TWord) (qs ps : List Piece), b.toNat = n → n = 1 ∨ n = 8 ∧ d.toNat % 8 = 0 ∧ a.toNat % 8 = 0 →
        w.resolve c (on a 0) 0 n .rd false = (w0, .ok qs) → isDevice qs = false →
        Ints s c [rd, ra, rb] → overlapping d a n = false → w.loadAt c pc n (on a 0) = (w1, .ok (y, false)) → storeTrap (w1.tenantStore c) (decide (n = 8)) y.tag = none →
        w1.resolve c (on d 0) 0 n .wr false = (w2, .ok ps) → w2.storePieces c pc n y ps = (w3, none) → isDevice ps = false →
        ∃ t, exec (.movblk c rd ra rb) s = .next t ∧ AfterLoop s t c (pcTo (mov n) (.movblk c rd ra rb)) ∧
          (Quiet s.w → OnlyStored s t w2 c ps ∧ (∀ p ∈ ps, ∀ i < p.n, pieceByte t c p i = BitVec.ofNat 8 (y.val.toNat / 256 ^ (p.first + i))) ∧
            ∀ pa mt f k tr, ps = [⟨.mem pa mt, f, k, tr⟩] → tagSeen t c (pa / 8) = if n = 8 ∧ pa % 8 = 0 then y.tag else tRAW)) ∧
    (Ready s c (.crc c rd ra rb poly) .M → Ints s c [rd, ra, rb] →
      (b = 0 → ∃ t, exec (.crc c rd ra rb poly) s = .next t ∧ AfterLoop s t c (pcTo (crc x 0) (.crc c rd ra rb poly)) ∧ (Quiet s.w → t.mem = s.mem)) ∧
      ∀ (n : Nat) (w0 w1 : W) (y : TWord) (qs : List Piece), b.toNat = n → n = 1 ∨ n = 8 ∧ a.toNat % 8 = 0 →
        w.resolve c (on a 0) 0 n .rd false = (w0, .ok qs) → isDevice qs = false →
        w.loadAt c pc n (on a 0) = (w1, .ok (y, false)) → y.tag ≠ tPOISON → y.tag ≠ tHND → y.tag ≠ tCODE →
        ∃ t, exec (.crc c rd ra rb poly) s = .next t ∧ AfterLoop s t c (pcTo (crc (x.setG rd
          ⟨tINT, BitVec.ofNat 64 (crcRun (crcPoly poly).1 (d.toNat % 2 ^ (crcPoly poly).2) (leBytes n y.val.toNat))⟩) n) (.crc c rd ra rb poly)) ∧
          (Quiet s.w → t.mem = s.mem)) ∧
    (Ready s c (.tagscrub c rd ra tag zero) .M → (∀ w2, scrubBody c rd ra tag zero w = (w2, .ok .seq) → ∃ t, exec (.tagscrub c rd ra tag zero) s = .next t ∧
        AfterLoop s t c (pcTo (scrub (total a)) (.tagscrub c rd ra tag zero))) ∧
      ∀ (n : Nat) (w1 : W) (p : Piece), a.toNat = n → 0 < n → n ≤ 8 - d.toNat % 8 → Ints s c [rd, ra] → tReserved t4 = false →
        storeTrap (w.tenantStore c) true t4 = none → w.resolve c ⟨tINT, d⟩ 0 n .wr true = (w1, .ok [p]) →
        (w1.tenantStore c = true → w1.overwrites c p = false) →
        ∃ t, exec (.tagscrub c rd ra tag zero) s = .next t ∧ AfterLoop s t c (pcTo (scrub n) (.tagscrub c rd ra tag zero)) ∧
          (Quiet s.w → OnlyStored s t w1 c [p] ∧ (zero = true → ∀ i < p.n, pieceByte t c p i = 0) ∧
            ∀ pa mt, p.spot = .mem pa mt → tagSeen t c (pa / 8) = t4))

/-! ### Reset, bring-up and modes -/

/-- A fall of SYS_RST_N or PWRGOOD and a rail out of range put the device in Reset, with every register at its reset value but the three that stand
until PWRGOOD falls, no core, transaction or world, and the count at 0; a rise of the last of the two pins ends Reset with the straps sampled and the
fuses loaded (R7, R24, R435 to R437, R464). -/
def Obligations.ResetAndRelease : Prop :=
  ∀ (s : State) (pin slot : Nat) (pair : Bool),
    let inReset (t : State) : Prop := t.w.cur = mRESET ∧ t.now = 0 ∧ t.fuse = s.fuse ∧ t.pending = s.pending ∧ t.dev.cores = [] ∧ t.dev.txns = [] ∧
      t.dev.worlds = [] ∧ t.dev.irqs = [] ∧ ∀ r i, i < 65536 → r ≠ .MOR_FATAL → r ≠ .BOOT_CTL → r ≠ .PWR_THERM → t.w.reg r i = t.w.regRst r i
    let loaded (t : State) : Prop := t.dev.mode.fusesLoaded = true ∧ t.dev.mode.rootKey = s.fuse.rootKey ∧ t.w.reg .IDREV_IDREV = s.fuse.idrev ∧
      field t F.DBG_STAT_LOCK = b2n s.fuse.dbgLock ∧ field t F.PLK_SEG_HOME = t.dev.mode.strapSlot % 2 ∧
      field t F.SYS_MODE_PAIRSTRAP = b2n t.dev.mode.strapPair
    (∃ t, exec (.resetAssert pin) s = .next t ∧ inReset t ∧ (if pin = 0 then t.mem = s.mem ∧ t.dev.mode.rstN = false
      else t.mem = {} ∧ t.dev.mode.pwrgood = false ∧ ∀ r i, t.w.reg r i = t.w.regRst r i)) ∧
    (s.dev.mode.pwrgood = true → ∃ t, exec .railOutOfRange s = .next t ∧ inReset t ∧ t.mem = s.mem ∧ t.dev.mode.railBad = true) ∧
    (s.dev.mode.rstN = false → ∃ t, exec (.resetRelease pair slot) s = .next t ∧ t.now = 0 ∧ t.mem = s.mem ∧ t.fuse = s.fuse ∧ t.pending = s.pending ∧
      t.dev.mode.rstN = true ∧ t.dev.mode.railBad = false ∧ t.dev.mode.strapPair = pair ∧ t.dev.mode.strapSlot = slot % 4 ∧
      (s.dev.mode.pwrgood = true → loaded t ∧ t.w.cur = field s F.SYS_MODE_CUR)) ∧
    (s.dev.mode.pwrgood = false → ∃ t, exec .pwrgoodRise s = .next t ∧ t.mem = s.mem ∧ t.fuse = s.fuse ∧ t.pending = s.pending ∧
      t.dev.mode.pwrgood = true ∧ t.dev.mode.railBad = false ∧ t.dev.mgmt.daaWait = true ∧
      (s.dev.mode.rstN = true → t.now = 0 ∧ loaded t ∧ t.w.cur = field s F.SYS_MODE_CUR))

/-- Bring-up: the keepers' self-test picks the active one; the boot ROM sends the regulators their set points and picks a slot whose image checks, FIRST
first; each step of R444 completes
after those before it, with what it tests in or out of service; the memory of what has completed is BOOT.STAT.STEP and the steps themselves
(R356, R437 to R447, R463). -/
def Obligations.BringUp : Prop :=
  ∀ (s : State) (a b ok : Bool) (cores failed passed : List Nat) (kind gib crnAddr engAddr addr pc : Nat) (img0 img1 crnSet engSet : List Byte),
    let w := s.w
    let img (k : Nat) : List Byte := [img0, img1].getD k []
    let first := field s F.BOOT_CTL_FIRST
    let good (k : Nat) : Prop := nbit (field s F.BOOT_STAT_SLOTFAIL) k = false ∧ w.slotOk (img k) = true
    let booted (t : State) (k : Nat) : Prop := field t F.BOOT_STAT_BOOTED = 1 ∧ field t F.BOOT_STAT_SLOT = k
    let stepped (t : State) (n : Nat) : Prop := t.w.hasStep n = true ∧ field t F.BOOT_STAT_STEP = n
    let served (t : State) (u : Nat) (yes : Bool) : Prop := (w.unitOf u).out = false → (t.w.unitOf u).svc = yes
    (w.bringing = true → s.dev.mode.keeperOk = [false, false] → field s F.BOOT_STAT_FAIL ≠ 1 →
      Acts s (.keeperSelftestDone a b) fun t => t.dev.mode.keeperOk = [a, b] ∧ (a = false → b = false → field t F.BOOT_STAT_FAIL = 1) ∧
        (a = true ∨ b = true → t.dev.kpr.running = true ∧ field t F.KPR_KSTAT_FSTATE = (if a = true ∧ b = true then 0 else 3)) ∧
        (a = true → b = false → field t F.KPR_KSTAT_ACTIVE = 0) ∧ (a = false → b = true → field t F.KPR_KSTAT_ACTIVE = 1)) ∧
    (w.bringing = true → s.dev.kpr.running = true → field s F.BOOT_STAT_BOOTED = 0 → field s F.BOOT_STAT_FAIL ≠ 2 →
      Acts s (.bootSlotSelect img0 img1) fun t => t.dev.mode.flash = [img0, img1] ∧
        t.dev.out = .vout 0x41 (500 + 5 * field s F.PWR_VID_MESH) :: .vout 0x40 (500 + 5 * field s F.PWR_VID_CORE) :: s.dev.out ∧ (good first → booted t first) ∧
        (¬ good first → good (1 - first) → booted t (1 - first)) ∧
        (¬ good first → ¬ good (1 - first) → field t F.BOOT_STAT_FAIL = 2 ∧ field t F.BOOT_STAT_BOOTED = 0)) ∧
    (w.staging = true →
      (w.hasStep 1 = false → Acts s (.pllLock ok) fun t => if ok = true then stepped t 1 else Fatal t ∧ Latched t 8) ∧
      (w.hasStep 1 = true → w.hasStep 3 = false → Acts s (.knownAnswerTests a b cores) fun t => stepped t 3 ∧ t.w.hasStep 2 = true ∧
        served t (source 8 24) a ∧ served t (source 8 25) b ∧ ∀ u < w.xm 24 12, served t (source 8 u) (cores.contains u)) ∧
      (w.hasStep 3 = true → w.hasStep 4 = false → Acts s (.unitSelftestDone failed) fun t => stepped t 4 ∧
        ∀ u ∈ w.testUnits, u ∈ failed → (t.w.unitOf u).svc = false) ∧
      (w.hasStep 3 = true → kind ≤ 2 → w.hasStep (50 + kind) = false → Acts s (.trainingDone kind passed gib) fun t => t.w.hasStep (50 + kind) = true ∧
        (kind = 0 → ∀ u < w.xm 6 4, served t (source 12 u) (passed.contains u))) ∧
      (w.hasStep 4 = true → w.hasStep 5 = true → w.hasStep 6 = false → Does s (.patchSetLoad crnAddr engAddr crnSet engSet) fun t => stepped t 6 ∧
        (crnSet = [] → engSet = [] → t.mem = s.mem)) ∧
      (w.hasStep 6 = true → w.hasStep 7 = false → Does s (.cirqueStart ok cores addr pc) fun t =>
        if ok = true then stepped t 7 ∧ t.dev.mode.cirque = (cores, addr, pc) ∧
          ∀ l ∈ cores, ∀ p, w.physCore l = some p → (t.w.core (.crn p)).active = true ∧ (t.w.core (.crn p)).pc = BitVec.ofNat 64 pc ∧
            (t.w.core (.crn p)).cworld = 0
        else t.mem = s.mem ∧ nbit (field t F.BOOT_STAT_SLOTFAIL) (field s F.BOOT_STAT_SLOT) = true))

/-- The end of bring-up: GO is taken once step 7 has completed and is an error before; the wait for the partner ends after PWAIT; Thaw is left for
Degraded, serving the home segment, where no partner is fitted, and is kept, with BOOT.STAT.FAIL, without a root key or the smallest working set;
SYS.READY.SUBSYS, as taken with no transaction under way, shows a subsystem exactly when it is up with all that it depends on; a root key is burnt once, in
Thaw, while the fuses are blank (R13, R24, R443, R448 to R452). -/
def Obligations.LeavingThaw : Prop :=
  ∀ (s : State) (src pwait : Nat) (first ok : Bool),
    let w := s.w
    let m := s.dev.mode
    let fail := field s F.BOOT_STAT_FAIL
    let ripe : Prop := w.bringing = true ∧ w.hasStep 7 = true ∧ m.goDone = true ∧ fail ≠ 1 ∧ fail ≠ 2 ∧ fail ≠ 5
    (Reaches s src .BOOT_CTL 0 → ¬ (w.cur = mTHAW ∧ field s F.SYS_MODE_FATAL = 1) →
      Acts s (.bootGo src first pwait) fun t => field t F.BOOT_CTL_FIRST = b2n first ∧ field t F.BOOT_CTL_PWAIT = pwait % 2 ^ 16 ∧
        if w.bringing = true ∧ w.hasStep 7 = true then t.dev.mode.goDone = true ∧ t.dev.mode.goAt = s.now ∧ t.w.hasStep 8 = true else field t F.BOOT_CTL_ERR = 1) ∧
    (w.bringing = true → m.goDone = true → w.paired = false → m.goAt + field s F.BOOT_CTL_PWAIT * 1000000 ≤ s.now →
      Acts s .pwaitExpiry fun t => t.dev.mode.pwaitDone = true) ∧
    (ripe →
      (m.rootKey = none → Acts s .thawExit fun t => field t F.BOOT_STAT_FAIL = 4) ∧
      (m.rootKey ≠ none → w.minSet = false → Acts s .thawExit fun t => field t F.BOOT_STAT_FAIL = 3) ∧
      (m.rootKey ≠ none → w.minSet = true → field s F.SYS_READY_PARTNER = 0 → s.dev.plk.present = false → LinkIdle s →
        Does s .thawExit fun t => field t F.SYS_MODE_CUR = mDEGRADED ∧ field t F.SYS_MODE_PREV = field s F.SYS_MODE_CUR ∧
          field t F.PLK_SEG_SERVE = 2 ^ w.home ∧ field t F.BOOT_STAT_FAIL = 0)) ∧
    (Reaches s src .KDF_RKCMD 0 → Acts s (.rootKeyBurn src) fun t =>
      if w.cur = mTHAW ∧ field s F.KDF_RKCMD_BLANK = 1 then field t F.KDF_RKCMD_BUSY = 1 ∧ t.dev.mode.rkBurn.isSome = true else field t F.KDF_RKCMD_ERR = 1) ∧
    (∀ key, m.rkBurn = some key → ∃ t, exec (.rootKeyBurnDone ok) s = .next t ∧ t.mem = s.mem ∧ t.now = s.now ∧ t.pending = s.pending ∧
      t.fuse = { s.fuse with rootKey := some (if ok then key else (Config.failedBurn key).1), rootid := if ok then rootId key else (Config.failedBurn key).2 } ∧ t.dev.mode.rkBurn = none ∧ field t F.KDF_RKCMD_BUSY = 0 ∧
      field t F.KDF_RKCMD_BLANK = 0 ∧
      (∀ i < 4, t.w.reg .KDF_RKDATA i = 0) ∧ (ok = false → field t F.KDF_RKCMD_ERR = 1)) ∧
    (w.cur ≠ mRESET → s.dev.txns = [] → Acts s .subsysReadyChange fun t => ∀ n, 1 ≤ n → n ≤ 12 →
      nbit (field t F.SYS_READY_SUBSYS) (n - 1) = (w.subsysUp n && (subsysDeps n).all fun d => nbit (field t F.SYS_READY_SUBSYS) (d - 1)))

/-- A SYS.MODEREQ request that no transition of its MGMT cycle outranks (R23, R25) and that a row of R24 allows is taken: Standby from a service mode, with no
channel left resident; Recovery from a service mode, Standby, Degraded or Maintenance; Maintenance from a service mode or Standby; the return from
Maintenance to its origin while no exchange runs; and the return from a requested Recovery, at once while no restart and no pair self-test runs, and held
while one does. A mode change records PREV, CHG and the count TRANS. Every other request sets REFUSED and leaves the mode and every other register. -/
def Obligations.ModeRequests : Prop :=
  ∀ (s : State) (src target : Nat), Reaches s src .SYS_MODEREQ 0 → target < 256 →
    let w := s.w
    let m := w.cur
    let x := s.dev.mode
    let leaves (n : Nat) : Prop := (m = mRECOVERY ∧ x.recFrom = some n) ∨ (m = mMAINT ∧ x.maintFrom = some n)
    let first (n : Nat) : Prop := w.outranked (if leaves n then 7 else modeRank n) = false
    let row (n : Nat) : Prop := (isService m = true ∧ n = mSTANDBY) ∨ (Running s ∧ n = mRECOVERY ∧ ¬ leaves n) ∨
      ((isService m = true ∨ m = mSTANDBY) ∧ n = mMAINT) ∨ (m = mMAINT ∧ x.maintFrom = some n ∧ w.exchanging = false) ∨
      (m = mRECOVERY ∧ x.recFrom = some n ∧ x.recReq = true)
    let here (t : State) (n : Nat) : Prop := field t F.SYS_MODE_CUR = n ∧ field t F.SYS_MODE_PREV = m ∧ field t F.SYS_MODE_CHG = 1 ∧
      field t F.SYS_MODE_TRANS = (field s F.SYS_MODE_TRANS + 1) % 256
    let refusal (n : Nat) (i : Instr) : Prop := first n → ¬ row n → Acts s i fun t => field t F.SYS_MODE_REFUSED = 1 ∧ t.w.cur = m ∧
      ∀ r e, e < 65536 → r ≠ .SYS_MODE → t.w.reg r e = w.reg r e
    let late (n : Nat) (i : Instr) : Prop := ¬ first n → Acts s i fun t => field t F.SYS_MODE_REFUSED = 1 ∧ t.w.cur = m ∧
      ∀ r e, e < 65536 → r ≠ .SYS_MODE → t.w.reg r e = w.reg r e
    let works : Prop := field s F.KPR_RSTCTL_RUN = 1 ∨ x.pairTests ≠ []
    (first mSTANDBY → isService m = true → Does s (.modereqStandby src) fun t => here t mSTANDBY ∧ t.dev.chans = []) ∧
    (first mRECOVERY → Running s → ¬ leaves mRECOVERY → Acts s (.modereqRecovery src) fun t =>
      here t mRECOVERY ∧ t.dev.mode.recFrom = some m ∧ t.dev.mode.recReq = true) ∧
    (first mMAINT → isService m = true ∨ m = mSTANDBY → Acts s (.modereqMaint src) fun t => here t mMAINT ∧ t.dev.mode.maintFrom = some m) ∧
    (first target → m = mMAINT → x.maintFrom = some target → w.exchanging = false → isService target = true ∨ target = mSTANDBY → NoWork s →
      Acts s (.modereqReturn src target) fun t => here t target ∧ t.dev.mode.maintFrom = none) ∧
    (first target → m = mRECOVERY → x.recFrom = some target → x.recReq = true →
      (works → Acts s (.modereqReturn src target) fun t => t.w.cur = mRECOVERY ∧ t.dev.mode.recHeld = true ∧
        field t F.SYS_MODE_REFUSED = field s F.SYS_MODE_REFUSED) ∧
      (¬ works → isService target = true ∨ target = mSTANDBY ∨ target = mMAINT ∨ (target = mDEGRADED ∧ w.paired = false) → NoWork s →
        Acts s (.modereqReturn src target) fun t => here t target ∧ t.dev.mode.recFrom = none)) ∧
    refusal mSTANDBY (.modereqStandby src) ∧ refusal mRECOVERY (.modereqRecovery src) ∧ refusal mMAINT (.modereqMaint src) ∧
    refusal target (.modereqReturn src target) ∧
    late mSTANDBY (.modereqStandby src) ∧ late mRECOVERY (.modereqRecovery src) ∧ late mMAINT (.modereqMaint src) ∧
    late target (.modereqReturn src target)

/-- A fault of the active keeper hands over to the follower, whose claim then carries the higher generation and 1, and a fault without a ready follower, or of
both keepers, is fatal (R357); the former keeper becomes follower through its self-test and hold-off, and takes over again where its claim wins (R358).
KPR.RSTCTL.GO and the keeper watchdog start a restart in Recovery; DONE ends it and returns to the mode of origin; LIMIT makes it fatal (R185, R186).
Only MEAS[3] may be extended by a Cornice core (R442). -/
def Obligations.KeepersAndRestart : Prop :=
  ∀ (s : State) (src limit index n : Nat) (ok : Bool) (img0 img1 : List Byte),
    let w := s.w
    let k := s.dev.kpr
    let x := s.dev.mode
    let act := field s F.KPR_KSTAT_ACTIVE
    let fs := field s F.KPR_KSTAT_FSTATE
    let run := field s F.KPR_RSTCTL_RUN
    let claimed : Nat := w.kprClaim (1 - act) (w.claimOf (1 - act))
    let live : Prop := w.cur ≠ mRESET ∧ k.running = true
    let handed (t : State) : Prop := field t F.KPR_KSTAT_ACTIVE = 1 - act ∧ Latched t 1 ∧
      t.w.claimOf (1 - act) % 4096 = (max (w.claimOf act % 4096) (w.claimOf (1 - act) % 4096) + 1) % 4096
    let restarts (t : State) : Prop := field t F.KPR_RSTCTL_RUN = 1 ∧ t.dev.mode.restartAt = s.now ∧
      (Running s → t.w.cur = mRECOVERY ∧ t.dev.mode.recFrom = some w.cur ∧ t.dev.mode.recReq = false)
    (live → act < 2 →
      (fs = 0 → Acts s (.keeperFault false) handed) ∧
      (fs ≠ 0 → Acts s (.keeperFault false) fun t => t.dev.kpr.running = false ∧ Fatal t ∧ Latched t 1) ∧
      Acts s (.keeperFault true) (fun t => t.dev.kpr.running = false ∧ Fatal t ∧ Latched t 1) ∧
      (fs = 0 → run = 0 → Does s (.keeperWatchdog img0 img1) fun t => t.dev.mode.flash = [img0, img1] ∧ Latched t 2 ∧ handed t ∧ restarts t) ∧
      (fs = 0 → run = 1 → Does s (.keeperWatchdog img0 img1) fun t => t.dev.mode.flash = [img0, img1] ∧ Latched t 2 ∧ handed t ∧
        field t F.KPR_RSTCTL_RUN = 1) ∧
      (fs ≠ 0 → Does s (.keeperWatchdog img0 img1) fun t => t.dev.mode.flash = [img0, img1] ∧ Latched t 2 ∧ Fatal t ∧ field t F.KPR_RSTCTL_RUN = 1)) ∧
    (fs = 1 → Acts s (.keeperSelftestAfterHandover ok) fun t =>
      if ok = true then field t F.KPR_KSTAT_FSTATE = 2 ∧ t.dev.kpr.holdAt = s.now
      else field t F.KPR_KSTAT_FSTATE = 3 ∧ (t.w.unitOf (source 1 (1 - act))).out = true) ∧
    (fs = 2 → k.holdAt + field s F.KPR_KCTL_HOLD * 1000000000 ≤ s.now → act < 2 → Acts s .keeperReturn fun t =>
      field t F.KPR_KSTAT_ACTIVE = if claimWins claimed (w.claimOf act) (1 - act) = true then 1 - act else act) ∧
    (Reaches s src .KPR_KCMD 0 → Acts s (.kcmdHandover src) fun t =>
      if fs = 0 ∧ k.running = true then field t F.KPR_KCMD_BUSY = 1 else field t F.KPR_KCMD_ERR = 1) ∧
    (w.cur ≠ mRESET → act < 2 → (Tab.find? s.dev.busy (regKey .KPR_KCMD 0)).isSome = true → Acts s (.commandComplete .KPR_KCMD 0) fun t =>
      handed t ∧ field t F.KPR_KCMD_BUSY = 0) ∧
    (Reaches s src .KPR_EXTEND 0 → index < 4 → Acts s (.measExtend src index) fun t => field t F.KPR_EXTEND_INDEX = index ∧
      if index = 3 ∨ src / 128 = 1 then field t F.KPR_EXTEND_BUSY = 1 else field t F.KPR_EXTEND_ERR = 1) ∧
    (Reaches s src .KPR_RSTCTL 0 →
      (run = 0 → Does s (.restartGo src limit) restarts) ∧
      (run = 1 → NoWork s → Does s (.restartDone src limit) fun t => field t F.KPR_RSTCTL_RUN = 0 ∧
        field t F.KPR_RSTCNT_COUNT = satAdd 32 (field s F.KPR_RSTCNT_COUNT) 1 ∧
        (w.cur = mRECOVERY → x.recFrom = some n → n < 256 → x.recReq = false → x.pairTests = [] → (n = mDEGRADED → w.paired = false) →
          field t F.SYS_MODE_CUR = n ∧ field t F.SYS_MODE_RECOV = 0))) ∧
    (w.cur ≠ mRESET → run = 1 → x.restartAt + field s F.KPR_RSTCTL_LIMIT * 1000000 ≤ s.now → field s F.SYS_MODE_FATAL = 0 →
      Acts s .restartLimit fun t => Fatal t ∧ Latched t 3 ∧ field t F.SYS_MODE_CUR = mTHAW ∧ t.dev.mode.aliveStop = true)

/-- An accepted fall of PWR_FAIL_N freezes the journal and issues the write of every slot in use to its place on its namespace, or, in a Thaw with no slot in
use, ends bring-up; when the slot writes are done the header of each namespace is issued with the content of R87; the last header sets FLUSHED; a flush that
misses 3 ms is an error (R86, R87, R450, R465). ALIVE rises at whole milliseconds outside Reset and Thaw while no level 3 record stands, and falls 500 µs
later (R354). A temperature sample sets TMAX, warns once and trips at 115 °C (R472); VR_ALERT_N is fatal, and the rails' currents are kept (R463). -/
def Obligations.PowerAndAlive : Prop :=
  ∀ (s : State) (rails : List Nat) (temp : Int) (port tag : Nat) (c : NvmeCmd),
    let w := s.w
    let j := s.dev.jour
    let ms := s.now % 1000000
    let flushing : Prop := field s F.CHN_JSTAT_FLUSHING = 1
    let at_ (ix n : Nat) (P : NvmeCmd → Prop) (t : State) : Prop := w.jns[ix]? = some n →
      Issued t (field s F.CHN_JNS_PORT n) fun c => c.nsid = field s F.CHN_JNS_NSID n ∧ P c
    let slotAt (i n : Nat) : State → Prop := at_ (i % w.jns.length) n fun c => c.kind = 5 ∧ c.lba = 3 + i / w.jns.length ∧
      c.data = w.bytes (w.base F.CHN_JBASE_BASE + i * 4096) 4096
    let headAt (ix n : Nat) : State → Prop := at_ ix n fun c => c.kind = 6 ∧ c.lba = 0 ∧ c.data.length = 4096 ∧ leAt c.data 0 4 = 0x4649524E ∧
      leAt c.data 4 1 = w.jns.length ∧ leAt c.data 5 1 = ix ∧ leAt c.data 8 8 = s.fuse.serno % 2 ^ 64 ∧ leAt c.data 0x10 8 = j.fell % 2 ^ 64 ∧
      leAt c.data 0x18 4 = (j.slots.filter fun i => decide (i % w.jns.length = ix)).length % 2 ^ 32 ∧ leAt c.data 0x20 8 = j.top % 2 ^ 64 ∧
      leAt c.data 0xFF8 8 = crc64 (c.data.take 0xFF8) % 2 ^ 64
    let ends (kind : Nat) : Prop := flushing ∧ Tab.find? (w.pciPort port).tags tag = some c ∧ c.aborted = false ∧ c.kind = kind ∧ s.dev.nvmeq = []
    (w.cur ≠ mRESET → s.dev.mode.pwrFailN = true → j.frozen = false → Acts s .powerFailAccept fun t =>
      t.dev.mode.pwrFailN = false ∧ t.dev.jour.frozen = true ∧ t.dev.jour.fell = s.now ∧
        if w.cur = mTHAW ∧ field s F.CHN_JSTAT_INUSE = 0 then field t F.BOOT_STAT_FAIL = 5
        else field t F.CHN_JSTAT_FLUSHING = 1 ∧ t.dev.jour.slots = s.dev.jslots.keys ∧
          (w.jns ≠ [] → t.dev.jour.slotWrites = s.dev.jslots.length + w.jns.length) ∧ ∀ i ∈ s.dev.jslots.keys, ∀ n < 4, slotAt i n t) ∧
    (flushing → j.slotWrites = 0 → j.headWrites = none → w.jns ≠ [] → Acts s .flushWritesDone fun t =>
      t.dev.jour.headWrites = some w.jns.length ∧ ∀ ix < 4, ∀ n < 4, headAt ix n t) ∧
    (flushing → j.slotWrites ≠ 0 ∨ j.headWrites.isSome = true ∨ w.jns = [] → Acts s .flushWritesDone fun t => t.dev = s.dev) ∧
    (ends 5 → Does s (.nvmeCompletion port tag 0) fun t => t.dev.jour.slotWrites = j.slotWrites - 1) ∧
    (ends 6 → j.headWrites = some 1 → Does s (.nvmeCompletion port tag 0) fun t => field t F.CHN_JSTAT_FLUSHED = 1 ∧ field t F.CHN_JSTAT_FLUSHING = 0) ∧
    (w.cur ≠ mRESET → flushing → j.fell + 3000000 ≤ s.now → Acts s .flushMissed fun t => field t F.CHN_JSTAT_FLUSHERR = 1 ∧ Latched t 6) ∧
    (w.cur ≠ mRESET → w.cur ≠ mTHAW → field s F.SYS_MODE_FATAL = 0 → s.dev.mode.aliveStop = false → s.dev.mode.alive = false → ms ≤ 40 →
      Acts s .aliveRise fun t => t.dev.mode.alive = true ∧ t.dev.out = .pin 1 0 1 :: s.dev.out) ∧
    (w.cur = mRESET ∨ w.cur = mTHAW ∨ field s F.SYS_MODE_FATAL = 1 ∨ s.dev.mode.aliveStop = true → Acts s .aliveRise fun t => t.dev = s.dev) ∧
    (s.dev.mode.alive = true → 500000 ≤ ms → ms ≤ 500040 → Acts s .aliveFall fun t => t.dev.mode.alive = false ∧ t.dev.out = .pin 1 0 0 :: s.dev.out) ∧
    (w.cur ≠ mRESET → Acts s (.thermalSample temp) fun t => field t F.PWR_THERM_TMAX = (temp % 2048).toNat ∧
      (sext 11 (field s F.PWR_THERM_WARNTH) ≤ temp → s.dev.pwr.warned = false → field t F.PWR_THERM_WARN = 1 ∧ t.dev.pwr.warned = true ∧ Latched t 7) ∧
      (temp ≤ sext 11 (field s F.PWR_THERM_WARNTH) - 10 → t.dev.pwr.warned = false) ∧
      (230 ≤ temp → field s F.PWR_THERM_TRIP = 0 → field t F.PWR_THERM_TRIP = 1 ∧ t.dev.pwr.tripPin = true ∧ Fatal t ∧ Latched t 7)) ∧
    (w.cur ≠ mRESET → Acts s .vrAlert fun t => Fatal t ∧ Latched t 5) ∧
    Acts s (.vrCurrentPoll rails) (fun t => t.dev.mgmt.rails = rails)

/-! ### Registers and their commands -/

/-- Registers by address. A write of MOR.CTL, PLK.RETCTL, CHN.TOCTL, CHN.DISPCTL, WLD.SEL or TIM.PPSOUT gives its fields the bits written, where none is a
reserved encoding, and leaves every other register (R8); PLK.RETCTL.HOLD keeps its value where it receives its reserved encoding, with a REG.REFUSE record
(R11); a refused or absent access changes no register but those of the record (R477); in Reset a write does nothing. A clearing read of an event counter
returns it and clears it, and one of NEVE.ALLOCSTAT restarts MINFREE from FREE (R8, R10); a read of word 0 of IDREV.SERNO or ETH.ADDR latches the register's
words, one of ETH.TXTS pops its head, and a write of word 0 of ETH.ADDR takes the MAC and drops the words staged for it (R478); a read of CIO.CAP by the
Cirque pops the head where world 0x0000 may sense the pin (R381). -/
def Obligations.RegisterAccess : Prop :=
  ∀ (s : State) (src off n v i : Nat) (r : RegName),
    let w := s.w
    let who : Who := { world := 0, src := src }
    let reads (q : RegName) (m : Nat) : Prop := w.cur ≠ mRESET ∧ w.physOk who .rd (devBase + regOff q i) = true ∧ fullSlot q = decide (m = 8) ∧
      w.devSpot (regOff q i) m false = .bits q i (8 * m - 1) 0
    let counters := [RegName.MOR_DROPCNT, .SAS_DISCCNT, .SAS_VICTCNT, .SAS_DRIFTCNT, .SAS_CRCERR, .PLK_REPLAYCNT, .PLK_NAKCNT, .PLK_HBMISS, .KDF_HITCNT,
      .KDF_MISSCNT, .NEVE_SPILLFULL, .NEVE_NOBUFCNT, .CMP_RAWCNT, .CMP_SUSPCNT, .CMP_EXTNOBUF, .CMP_DECFAIL, .CIP_AUTHFAIL, .CIP_SUSPCNT, .CIP_SUSPFULL,
      .FLO_SEGCNT, .FLO_SWITCHCNT, .FLO_KFAULTCNT, .FLO_PFDROP, .CRN_RETRYCNT, .CRN_PFDROP, .COH_DIRCNT, .COH_VBFULL, .ETH_QPDROP, .MEMH_ECCCNT,
      .MEMH_UECNT, .MEMB_ECCCNT, .MEMB_UECNT]
    let good : Prop := ∀ f ∈ r.fields, ∀ q ∈ f.resv, ¬ (q.1 ≤ nbits v f.hi f.lo ∧ nbits v f.hi f.lo ≤ q.2)
    (r ∈ [RegName.MOR_CTL, .PLK_RETCTL, .CHN_TOCTL, .CHN_DISPCTL, .WLD_SEL, .TIM_PPSOUT] → Reaches s src r 0 → good →
      Acts s (.registerWrite src 0 (regOff r 0) 4 v) fun t =>
        (∀ f ∈ r.fields, field t f = nbits v f.hi f.lo) ∧ ∀ q j, regKey q j ≠ regKey r 0 → t.w.reg q j = w.reg q j) ∧
    (Reaches s src .PLK_RETCTL 0 → nbits v 30 16 = 0 → Acts s (.registerWrite src 0 (regOff .PLK_RETCTL 0) 4 v) fun t =>
      field t F.PLK_RETCTL_HOLD = field s F.PLK_RETCTL_HOLD ∧ field t F.PLK_RETCTL_DRAIN = nbits v 15 0 ∧ Latched t 9) ∧
    (w.cur ≠ mRESET → w.physOk who .wr (devBase + off) = true → w.devSpot off n true = .refused ∨ w.devSpot off n true = .absent →
      Acts s (.registerWrite src 0 off n v) fun t => Latched t 9 ∧
        ∀ q j, q ≠ .MOR_CLS → q ≠ .MOR_CLSTS → q ≠ .MOR_SUMMARY → q ≠ .MOR_DROPCNT → t.w.reg q j = w.reg q j) ∧
    (w.cur = mRESET → exec (.registerWrite src 0 off n v) s = .next s) ∧
    (r ∈ counters → reads r 4 → Acts s (.clearingRead src 0 r i) fun t =>
      (∀ f ∈ r.fields, field t f i = 0) ∧ t.dev.out = .regRead true (nbits (w.reg r i).toNat 31 0) :: s.dev.out) ∧
    (i = 0 → reads .NEVE_ALLOCSTAT 4 → Acts s (.clearingRead src 0 .NEVE_ALLOCSTAT i) fun t =>
      field t F.NEVE_ALLOCSTAT_MINFREE = field s F.NEVE_ALLOCSTAT_FREE) ∧
    (r = .IDREV_SERNO_W0 ∨ r = .ETH_ADDR_W0 → reads r 8 → Acts s (.wideRegisterLatch src r i) fun t =>
      ∀ x ∈ wideWords r, Tab.find? t.dev.latch (regKey x i) = some (BitVec.ofNat 64 (w.regView x i))) ∧
    (reads .ETH_TXTS_W0 8 → Acts s (.txtsRead src i) fun t => (t.w.ethPort i).txts = (w.ethPort i).txts.drop 1 ∧
      ∀ x rest, (w.ethPort i).txts = x :: rest → t.dev.out = .regRead true (x.1 % 2 ^ 64) :: s.dev.out) ∧
    (i < 48 → reads .CIO_CAP 8 → Does s (.capRead src 0 i) fun t =>
      if field s F.OWN_PINOWN_SENSE i = 1 then (t.w.ch i).fifo = (w.ch i).fifo.drop 1 ∧ t.dev.out = .regRead true (field s F.CIO_CAP_TS i) :: s.dev.out
      else (t.w.ch i).fifo = (w.ch i).fifo ∧ t.dev.out = .regRead true 0 :: s.dev.out) ∧
    (n < 4 → Reaches s src .ETH_ADDR_W0 (i * 4 + n) → Acts s (.addrWord0Write src i n v) fun t =>
      field t F.ETH_ADDR_W0_MAC (i * 4 + n) = v % 2 ^ 48 ∧
      ∀ x ∈ [RegName.ETH_ADDR_W1, .ETH_ADDR_W2, .ETH_ADDR_W3], Tab.find? t.dev.latch (stageKey x (i * 4 + n)) = none)

/-- Moraine: the first record of an episode latches its level, source, subcode and time, and clears OVERFLOW and ESC; a later one sets OVERFLOW and raises
LEVEL where its own is higher (R349); a record of an escalating class in an open episode counts one level higher (R350). Every record counts and goes to the log
FIFO, or counts as dropped. A record of level 2 in a class of units takes its source out of service, and one of level 3 is Thaw with FATAL, copied to MOR.FATAL
(R348, R352); a 1 to PEND ends the episode of its class alone (R351). -/
def Obligations.Moraine : Prop :=
  ∀ (s : State) (cls level src sub world chid detail : Nat),
    let w := s.w
    let i : Instr := .faultReport cls level src sub world chid detail
    let pend := field s F.MOR_CLS_PEND cls
    let kind := src / 128
    let esc : Prop := pend = 1 ∧ escalates cls = true ∧ level ≠ 0
    let lv := w.levelOf cls level
    let entry : LogRec := ⟨s.now, s.dev.mor.seq, cls, lv + (if esc then 4 else 0) + (if pend = 1 then 0 else 8), src, sub, world, chid, detail⟩
    let full : Prop := 256 ≤ s.dev.mor.fifo.length ∨ (field s F.MOR_CTL_LOGEN = 1 ∧ w.logFull = true)
    let counted (t : State) : Prop := Latched t cls ∧ field t F.MOR_CLS_COUNT cls = satAdd 32 (field s F.MOR_CLS_COUNT cls) 1 ∧
      nbit (field t F.MOR_SUMMARY_PEND) cls = true
    let logged (t : State) : Prop := t.dev.mor.seq = (s.dev.mor.seq + 1) % 2 ^ 32 ∧
      (¬ full → t.dev.mor.fifo = s.dev.mor.fifo ++ [entry]) ∧
      (full → t.dev.mor.fifo = s.dev.mor.fifo ∧ field t F.MOR_DROPCNT_COUNT = satAdd 32 (field s F.MOR_DROPCNT_COUNT) 1)
    let outOf (t : State) : Prop := lv = 2 → unitClass cls = true → (t.w.unitOf src).out = true
    let known : Prop := w.cur ≠ mRESET ∧ levelOk cls level = true ∧ kind < 26 ∧ cls ≠ 0x26 ∧ cls ≠ 0x2C
    -- a level 2 record whose action reaches beyond the unit's service
    let wide : Prop := lv = 2 ∧ (kind ∈ [2, 6, 9, 10, 11] ∨ cls ∈ [0x19, 0x30, 0x31])
    (known →
      (pend = 0 → lv ≤ 2 → ¬ wide → Acts s i fun t => counted t ∧ logged t ∧ outOf t ∧ field t F.MOR_CLS_LEVEL cls = level ∧
        field t F.MOR_CLS_SOURCE cls = src ∧ field t F.MOR_CLS_SUBCODE cls = sub % 256 ∧ field t F.MOR_CLSTS_TS cls = s.now % 2 ^ 64 ∧
        field t F.MOR_CLS_OVERFLOW cls = 0 ∧ field t F.MOR_CLS_ESC cls = 0) ∧
      (pend = 1 → lv ≤ 2 → ¬ wide → Acts s i fun t => counted t ∧ logged t ∧ outOf t ∧ field t F.MOR_CLS_OVERFLOW cls = 1 ∧
        field t F.MOR_CLS_SOURCE cls = field s F.MOR_CLS_SOURCE cls ∧ field t F.MOR_CLS_SUBCODE cls = field s F.MOR_CLS_SUBCODE cls ∧
        t.w.reg .MOR_CLSTS cls = w.reg .MOR_CLSTS cls ∧ field t F.MOR_CLS_LEVEL cls = max lv (field s F.MOR_CLS_LEVEL cls) ∧
        (esc → field t F.MOR_CLS_ESC cls = 1)) ∧
      (wide → Does s i fun t => Latched t cls ∧ outOf t) ∧
      (lv = 3 → Acts s i fun t => counted t ∧ logged t ∧ Fatal t ∧ field t F.MOR_CLS_LEVEL cls = 3 ∧ t.dev.mode.aliveStop = true ∧
        (∀ k < 4, t.w.reg .MOR_FATAL k = BitVec.ofNat 64 (leAt entry.bytes (8 * k) 8)) ∧
        (field s F.SYS_MODE_FATAL = 0 → field t F.SYS_MODE_CUR = mTHAW ∧ field t F.SYS_MODE_PREV = field s F.SYS_MODE_CUR ∧
          field t F.SYS_MODE_TRANS = (field s F.SYS_MODE_TRANS + 1) % 256))) ∧
    (w.cur ≠ mRESET → levelOk cls level = true → kind < 26 → cls = 0x2C → Does s i (Latched · cls)) ∧
    (cls < 64 → Reaches s src .MOR_CLS cls → Acts s (.moraineAck src cls) fun t => field t F.MOR_CLS_PEND cls = 0 ∧
      ∀ c < 64, (c ≠ cls → t.w.reg .MOR_CLS c = w.reg .MOR_CLS c) ∧ nbit (field t F.MOR_SUMMARY_PEND) c = decide (field t F.MOR_CLS_PEND c = 1))

/-- The end of a command of CHN.CTXCMD, KDF.CMD, WLD.CMD, OWN.CMD, PLK.CMD or ETH.QPCMD (R484): BUSY clears, with ERR where its change can no longer be made;
a CHN.CTXCMD command whose block may not be read ends with ERR and a CHN.CONFIG record (R29); a revocation takes effect when it is taken, and its BUSY clears
once its sweep has ended (R139); the commands of R186 wait while a Cirque restart runs; and a register that runs nothing is not touched. -/
def Obligations.CommandEnds : Prop :=
  ∀ (s : State) (r : RegName) (e op : Nat) (busy err : Fld), cmdFields r = some (busy, err) →
    let w := s.w
    let here := Tab.find? s.dev.busy (regKey r e)
    let held : Prop := waitsRestart r = true ∧ field s F.KPR_RSTCTL_RUN = 1
    let unread : Prop := r = .CHN_CTXCMD ∧ w.ctxUnread op (field s F.CHN_CTXCMD_CHID) = true
    let isOver (t : State) : Prop := field t busy = 0 ∧ Tab.find? t.dev.busy (regKey r e) = none
    let sweeping : Prop := w.revoking r ∈ s.dev.cip.sweep
    let i := Instr.commandComplete r e
    (here = none ∨ held → exec i s = .next s) ∧
    (here = some op → ¬ held → op ≠ revokeTaken → revokes r op = false →
      (¬ unread → (w.cmdDo r op).isSome = true → Does s i isOver) ∧
      (¬ unread → w.cmdDo r op = none → Acts s i fun t => isOver t ∧ field t err = 1) ∧
      (unread → w.cur ≠ mRESET → Acts s i fun t => isOver t ∧ field t err = 1 ∧ Latched t 0x1D)) ∧
    (here = some op → ¬ held → e = 0 → revokes r op = true →
      ((w.cmdDo r op).isSome = true → Does s i fun t => field t busy = 1 ∧ Tab.find? t.dev.busy (regKey r e) = some revokeTaken) ∧
      (w.cmdDo r op = none → Acts s i fun t => isOver t ∧ field t err = 1)) ∧
    (here = some revokeTaken → ¬ held → (sweeping → exec i s = .next s) ∧ (¬ sweeping → Acts s i isOver))

/-- CHN.CTXCMD, each opcode's start and end. A write starts where the resident channel's state permits the operation, or the channel is not resident, and
is ERR at once elsewhere: OPEN from CLOSED, QUIESCE from ACTIVE, ABORT from ACTIVE, QUIESCING and FAILED, CLOSE from QUIESCED and FAILED with nothing in
flight, no load and no exchange of the channel, WRITEBACK always. At its end OPEN of a non-resident channel makes a valid CLOSED block, whose program is
valid and for which the store has room, ACTIVE with every credit available, and is ERR for a block that is not; QUIESCE of a resident channel leaves it
QUIESCED where nothing is in flight, else QUIESCING; ABORT of one without transactions leaves it QUIESCED; CLOSE evicts it; WRITEBACK leaves it clean. An audit
snapshot is latched 256 ns ahead; the books of a CHANNEL snapshot are SUBCRED, AVAIL and INFLIGHT, and one that does not balance is reported (R30 to R33,
R38, R55, R56). -/
def Obligations.ChannelCommands : Prop :=
  ∀ (s : State) (src chid scope port index t0 : Nat) (x : Chan),
    let w := s.w
    let begun (op : Nat) (t : State) : Prop := field t F.CHN_CTXCMD_BUSY = 1 ∧ field t F.CHN_CTXCMD_CHID = chid ∧
      Tab.find? t.dev.busy (regKey .CHN_CTXCMD 0) = some op
    let err (t : State) : Prop := field t F.CHN_CTXCMD_ERR = 1
    let live : Prop := x.state = 1 ∨ x.state = 2 ∨ x.state = 4
    let shut : Prop := (x.state = 3 ∨ x.state = 4) ∧ x.inflight = 0
    let free : Prop := (∀ i u, w.txn i = some u → u.chid = chid → u.load = none) ∧
      ¬ (field s F.FLO_XCHG_BUSY = 1 ∧ field s F.FLO_XCHG_CHID = chid)
    let ends (op : Nat) : Prop := Tab.find? s.dev.busy (regKey .CHN_CTXCMD 0) = some op ∧ field s F.CHN_CTXCMD_CHID = chid ∧ field s F.KPR_RSTCTL_RUN = 0
    let fin := Instr.commandComplete .CHN_CTXCMD 0
    let b := w.bytes (w.ctxAddr chid) 512
    let good : Prop := Chan.valid b chid = true ∧ (Chan.parse b).fix.state = 0 ∧ w.progOk (Chan.parse b) = true
    (chid < 2 ^ 20 → Reaches s src .CHN_CTXCMD 0 →
      (w.chan chid = none → Acts s (.ctxOpen src chid) (begun 1) ∧ Acts s (.ctxQuiesce src chid) (begun 2) ∧ Acts s (.ctxAbort src chid) (begun 3) ∧
        Acts s (.ctxClose src chid) (begun 4)) ∧ Acts s (.ctxWriteback src chid) (begun 5) ∧
      (w.chan chid = some x →
        Acts s (.ctxOpen src chid) (fun t => if x.state = 0 then begun 1 t else err t) ∧
        Acts s (.ctxQuiesce src chid) (fun t => if x.state = 1 then begun 2 t else err t) ∧
        Acts s (.ctxAbort src chid) (fun t => if live then begun 3 t else err t) ∧
        (shut → free → Acts s (.ctxClose src chid) (begun 4)) ∧ (¬ (shut ∧ free) → Acts s (.ctxClose src chid) err))) ∧
    (ends 1 → w.chan chid = none → w.rangeOk (cirqueWho (source 21 0)) .rd (w.ctxAddr chid) 512 = true →
      (good → (w.ctxRoom (Chan.parse b).prio).isSome = true →
        Does s fin fun t => ∃ y, t.w.chan chid = some y ∧ y.state = 1 ∧ y.inflight = 0 ∧ y.crpver = 0 ∧ y.subcred = (Chan.parse b).subcred ∧
          y.avail = y.subcred) ∧
      (¬ good → Acts s fin err)) ∧
    (ends 2 → w.chan chid = some x → x.state = 1 → Acts s fin fun t => ∃ y, t.w.chan chid = some y ∧ y.state = if x.inflight = 0 then 3 else 2) ∧
    (ends 3 → w.chan chid = some x → live → x.inflight = 0 → w.txnsOf chid = [] → Acts s fin fun t => ∃ y, t.w.chan chid = some y ∧ y.state = 3) ∧
    (ends 4 → w.chan chid = some x → shut → free → Does s fin fun t => t.w.chan chid = none) ∧
    (ends 5 → w.chan chid = some x → w.rangeOk (cirqueWho (source 21 0)) .wr (w.ctxAddr chid) 512 = true →
      Does s fin fun t => t.w.chan chid = some { x with dirty := false }) ∧
    (Reaches s src .CHN_AUDCMD 0 → scope < 6 → port < 32 → index < 2 ^ 24 → scope ≠ 1 ∨ w.portOn port = true →
      Acts s (.auditSnap src scope port index) fun t => field t F.CHN_AUDSTAT_BUSY = 1 ∧ field t F.CHN_AUDCMD_SCOPE = scope ∧
        field t F.CHN_AUDCMD_INDEX = index ∧ Tab.find? t.dev.busy (regKey .CHN_AUDCMD 0) = some (s.now + 256)) ∧
    (Tab.find? s.dev.busy (regKey .CHN_AUDCMD 0) = some t0 → t0 ≤ s.now → Acts s .auditLatch fun t =>
      field t F.CHN_AUDSTAT_BUSY = 0 ∧ field t F.CHN_AUDSTAT_DONE = 1 ∧ field t F.CHN_AUDTS_T = t0 % 2 ^ 64 ∧
      (field s F.CHN_AUDCMD_SCOPE = 2 → w.chan (field s F.CHN_AUDCMD_INDEX) = some x →
        field t F.CHN_AUDV_V 0 = x.subcred % 2 ^ 64 ∧ field t F.CHN_AUDV_V 1 = x.avail % 2 ^ 64 ∧ field t F.CHN_AUDV_V 2 = x.inflight % 2 ^ 64 ∧
        (w.cur ≠ mRESET → x.avail + x.inflight ≠ x.subcred → field t F.CHN_AUDSTAT_IMBAL = 1 ∧ Latched t 0x1B) ∧
        (x.avail + x.inflight = x.subcred → field t F.CHN_AUDSTAT_IMBAL = 0)))

/-- KDF.CMD, each opcode's start and end. A write starts for a tenant world, with purpose STORE or TRANSIT for ROLL and STORE for RETIRE, and is ERR at
once elsewhere. A REVOKE waits while a Cirque restart runs; else, with no cipher job in the device, it takes effect with the write: the world's keys are
refused from then on, its derivations are discarded and its sweep is to come. At its end ACTIVATE of an entry that is not initialised ends a revocation and
sets SCUR, SMIN and TCUR to EPOCH with REVOKED 0 and INIT 1; where no automatic roll is set, ROLL of purpose STORE takes SCUR up by one, and RETIRE of an
epoch above SMIN and not above SCUR sets SMIN, and each is ERR elsewhere; FLUSH removes the world's keys from the cache (R134, R137 to R139, R186). -/
def Obligations.KeyCommands : Prop :=
  ∀ (s : State) (src world purp epoch : Nat), world < 2 ^ 16 → purp < 256 → epoch < 2 ^ 16 →
    let w := s.w
    let tenant : Prop := world ≠ 0 ∧ world ≠ 0xFFFF
    let begun (op : Nat) (t : State) : Prop := field t F.KDF_CMD_BUSY = 1 ∧ field t F.KDF_CMD_WORLD = world ∧ field t F.KDF_CMD_PURP = purp ∧
      field t F.KDF_CMD_EPOCH = epoch ∧ Tab.find? t.dev.busy (regKey .KDF_CMD 0) = some op
    let go (op : Nat) (may : Prop) (i : Instr) : Prop :=
      (tenant ∧ may → Acts s i (begun op)) ∧ (¬ (tenant ∧ may) → Acts s i fun t => field t F.KDF_CMD_ERR = 1)
    let ends (op : Nat) : Prop := Tab.find? s.dev.busy (regKey .KDF_CMD 0) = some op ∧ field s F.KDF_CMD_WORLD = world ∧ field s F.KDF_CMD_PURP = purp ∧
      field s F.KDF_CMD_EPOCH = epoch ∧ field s F.KPR_RSTCTL_RUN = 0
    let fin := Instr.commandComplete .KDF_CMD 0
    let e := w.epRead world
    let a := w.epAddr world
    let writable : Prop := w.rangeOk kdWho .wr a 16 = true
    (Reaches s src .KDF_CMD 0 →
      go 1 True (.kdfActivate src world purp epoch) ∧ go 2 (purp = 1 ∨ purp = 2) (.kdfRoll src world purp epoch) ∧
      go 3 (purp = 1) (.kdfRetire src world purp epoch) ∧ go 5 True (.kdfFlush src world purp epoch) ∧
      (¬ tenant → Acts s (.kdfRevoke src world purp epoch) fun t => field t F.KDF_CMD_ERR = 1) ∧
      (tenant → field s F.KPR_RSTCTL_RUN = 1 → Acts s (.kdfRevoke src world purp epoch) (begun 4)) ∧
      (tenant → field s F.KPR_RSTCTL_RUN = 0 → s.dev.cip.jobs = [] → Does s (.kdfRevoke src world purp epoch) fun t =>
        begun revokeTaken t ∧ world ∈ t.dev.cip.revoked ∧ world ∈ t.dev.cip.sweep ∧ ∀ d ∈ t.dev.cip.derivs, d.world = world → d.dead = true)) ∧
    (ends 1 → e.init = false → Does s fin fun t => world ∉ t.dev.cip.revoked ∧
      (writable → t.w.le (a + 8) 2 = epoch ∧ t.w.le (a + 10) 2 = epoch ∧ t.w.le (a + 12) 2 = epoch ∧ t.w.le (a + 14) 1 = 2)) ∧
    (ends 2 → field s F.KDF_PURPCTL_PERIOD 1 = 0 → purp = 1 →
      (e.init = false ∨ e.revoked = true ∨ e.scur = 0xFFFF → Acts s fin fun t => field t F.KDF_CMD_ERR = 1) ∧
      (e.init = true → e.revoked = false → e.scur ≠ 0xFFFF → writable → Does s fin fun t => t.w.le (a + 8) 2 = e.scur + 1)) ∧
    (ends 3 → field s F.KDF_PURPCTL_PERIOD 1 = 0 → purp = 1 →
      (e.init = false ∨ e.revoked = true ∨ epoch ≤ e.smin ∨ e.scur < epoch → Acts s fin fun t => field t F.KDF_CMD_ERR = 1) ∧
      (e.init = true → e.revoked = false → e.smin < epoch → epoch ≤ e.scur → writable → Does s fin fun t => t.w.le (a + 10) 2 = epoch)) ∧
    (ends 5 → Acts s fin fun t => AllVals (fun k => labelWorld k.label ≠ world) t.dev.cip.cache)

/-- WLD.CMD, each opcode's start and end. A write for a tenant world starts from the states that R165 gives the operation and is ERR at once elsewhere; a REVOKE
waits while a Cirque restart runs and else takes effect with the write. At its end ACTIVATE maps the entry's world ACTIVE with ROOT, RATE, DEPTH, AKMASK
of the entry and a full bucket, or is ERR where the entry names another world; SUSPEND, with no transaction in the device, and RESUME move the world; RELOAD takes ROOT, RATE and
AKMASK again and drops its translations; DEACTIVATE removes it. REVOKE, with no transaction and no cipher job in the device, leaves it REVOKING, its keys refused, its
translations dropped and BUSY set until its sweep ends (R139, R162 to R165, R181, R186, R484). -/
def Obligations.WorldCommands : Prop :=
  ∀ (s : State) (src slot world : Nat) (r : WorldRec), slot < 4096 → world < 2 ^ 16 →
    let w := s.w
    let found := Tab.find? s.dev.worlds world
    let tenant : Prop := world ≠ 0 ∧ world ≠ 0xFFFF
    let begun (op : Nat) (t : State) : Prop := field t F.WLD_CMD_BUSY = 1 ∧ field t F.WLD_CMD_SLOT = slot ∧ field t F.WLD_CMD_WORLD = world ∧
      Tab.find? t.dev.busy (regKey .WLD_CMD 0) = some op
    let err (t : State) : Prop := field t F.WLD_CMD_ERR = 1
    let go (op : Nat) (may : Prop) (i : Instr) : Prop := (tenant ∧ may → Acts s i (begun op)) ∧ (¬ (tenant ∧ may) → Acts s i err)
    let ends (op : Nat) : Prop := Tab.find? s.dev.busy (regKey .WLD_CMD 0) = some op ∧ field s F.WLD_CMD_SLOT = slot ∧ field s F.WLD_CMD_WORLD = world ∧
      field s F.KPR_RSTCTL_RUN = 0
    let fin := Instr.commandComplete .WLD_CMD 0
    let a := w.wldAddr slot
    let inState (n : Nat) (t : State) : Prop := ∃ y, Tab.find? t.dev.worlds world = some y ∧ y.state = n
    let noTlb (t : State) : Prop := AllVals (fun x => ∀ e ∈ x.tlb, e.world ≠ world) t.dev.cores
    let revoked (t : State) : Prop := inState 3 t ∧ world ∈ t.dev.cip.revoked ∧ world ∈ t.dev.cip.sweep ∧ noTlb t ∧ field t F.WLD_CMD_BUSY = 1 ∧
      Tab.find? t.dev.busy (regKey .WLD_CMD 0) = some revokeTaken
    let mayRevoke : Prop := tenant ∧ (r.state = 1 ∨ r.state = 2)
    let alone : Prop := s.dev.txns = [] ∧ s.dev.cip.jobs = []
    (Reaches s src .WLD_CMD 0 →
      (found = none → go 1 (w.worldAt slot = none) (.wldActivate src slot world) ∧ Acts s (.wldSuspend src slot world) err ∧
        Acts s (.wldResume src slot world) err ∧ Acts s (.wldRevoke src slot world) err ∧ Acts s (.wldDeactivate src slot world) err ∧
        Acts s (.wldReload src slot world) err) ∧
      (found = some r → Acts s (.wldActivate src slot world) err ∧ go 2 (r.state = 1) (.wldSuspend src slot world) ∧
        go 3 (r.state = 2) (.wldResume src slot world) ∧
        go 5 ((r.state = 2 ∨ r.state = 3) ∧ w.openCh world = 0 ∧ r.pages = 0) (.wldDeactivate src slot world) ∧
        go 6 (r.state = 1 ∨ r.state = 2) (.wldReload src slot world) ∧
        (¬ mayRevoke → Acts s (.wldRevoke src slot world) err) ∧
        (mayRevoke → field s F.KPR_RSTCTL_RUN = 1 → Acts s (.wldRevoke src slot world) (begun 4)) ∧
        (mayRevoke → field s F.KPR_RSTCTL_RUN = 0 → alone → Does s (.wldRevoke src slot world) revoked))) ∧
    (ends 1 → tenant → found = none → w.worldAt slot = none → w.rangeOk wldWho .rd a 64 = true →
      (w.le a 2 = world → Does s fin fun t => ∃ y, Tab.find? t.dev.worlds world = some y ∧ y.state = 1 ∧ y.slot = slot ∧ y.depth = w.le (a + 0x14) 4 ∧
        y.tokens = y.depth ∧ y.rate = w.le (a + 0x10) 4 ∧ y.akmask = w.le (a + 4) 2 ∧ y.root = nbits (w.le (a + 8) 8) 45 12 * 4096) ∧
      (w.le a 2 ≠ world → Acts s fin err)) ∧
    (found = some r →
      (ends 2 → r.state = 1 → s.dev.txns = [] → Does s fin (inState 2)) ∧ (ends 3 → r.state = 2 → Does s fin (inState 1)) ∧
      (ends 4 → r.state = 1 ∨ r.state = 2 → alone → Does s fin revoked) ∧
      (ends 5 → r.state = 2 ∨ r.state = 3 → w.openCh world = 0 → r.pages = 0 → Does s fin fun t => Tab.find? t.dev.worlds world = none) ∧
      (ends 6 → r.state = 1 ∨ r.state = 2 → w.rangeOk wldWho .rd (w.wldAddr r.slot) 64 = true → Acts s fin fun t =>
        ∃ y, Tab.find? t.dev.worlds world = some y ∧ y.state = r.state ∧ y.root = nbits (w.le (w.wldAddr r.slot + 8) 8) 45 12 * 4096 ∧
          y.rate = w.le (w.wldAddr r.slot + 0x10) 4 ∧ y.depth = w.le (w.wldAddr r.slot + 0x14) 4 ∧ y.akmask = w.le (w.wldAddr r.slot + 4) 2 ∧ noTlb t))

/-- OWN.CMD, OWN.CTL and OWN.PINOWN. A command with a nonzero COUNT of pages that all lie in regions, and for ASSIGN a world other than 0xFFFF, starts with its
operands, and another is ERR at once. At its end, judged on the entries once the stores into its pages that passed their check have finished, a command of which one page is not in the
operation's "From" state is ERR and stores nothing; on one page that is, ASSIGN and SETRIGHTS give the entry its world, rights and key, SHARE and UNSHARE move its state, and RELEASE and
SCRUB, where the page's memory unit has not failed, leave it zeros and FREE. OWN.CTL.EN is set; PINOWN takes a world 0x0000, 0xFFFF or with FLAGS.CTRL, and resets the channel, and it is refused for
another world and for a change while the pin drives (R172, R176, R177, R183, R385). -/
def Obligations.OwnerCommands : Prop :=
  ∀ (s : State) (src rights ksel world count pin : Nat) (drive sense : Bool) (e : OwnEntry),
    rights < 16 → ksel < 16 → world < 2 ^ 16 → count < 2 ^ 20 → pin < 48 →
    let w := s.w
    let begun (op : Nat) (t : State) : Prop := field t F.OWN_CMD_BUSY = 1 ∧ field t F.OWN_CMD_RIGHTS = rights ∧ field t F.OWN_CMD_KSEL = ksel ∧
      field t F.OWN_CMD_WORLD = world ∧ field t F.OWN_CMD_COUNT = count ∧ Tab.find? t.dev.busy (regKey .OWN_CMD 0) = some op
    let p := w.base F.OWN_CMDADDR_ADDR
    let mapped : Prop := 0 < count ∧ ∀ k < count, (w.region (p + k * 4096)).isSome = true
    let err (t : State) : Prop := field t F.OWN_CMD_ERR = 1
    let go (op : Nat) (may : Prop) (i : Instr) : Prop := (mapped ∧ may → Acts s i (begun op)) ∧ (¬ (mapped ∧ may) → Acts s i err)
    let ends (op n : Nat) : Prop := Tab.find? s.dev.busy (regKey .OWN_CMD 0) = some op ∧ field s F.OWN_CMD_RIGHTS = rights ∧ field s F.OWN_CMD_KSEL = ksel ∧
      field s F.OWN_CMD_WORLD = world ∧ field s F.OWN_CMD_COUNT = n ∧ field s F.KPR_RSTCTL_RUN = 0
    let fin := Instr.commandComplete .OWN_CMD 0
    let entry (x : OwnEntry) (t : State) : Prop := t.w.ownEntry p = some x
    let given : OwnEntry := ⟨world, nbit rights 3, nbit rights 2, nbit rights 1, nbit rights 0, 1, ksel⟩
    let mine : Prop := e.owner = world
    let mayOwn : Prop := world = 0 ∨ world = 0xFFFF ∨ ∃ r, Tab.find? s.dev.worlds world = some r ∧ nbit r.flags 1 = true
    let change : Prop := field s F.OWN_PINOWN_WORLD pin ≠ world ∨ field s F.OWN_PINOWN_DRIVE pin ≠ b2n drive ∨ field s F.OWN_PINOWN_SENSE pin ≠ b2n sense
    (Reaches s src .OWN_CMD 0 →
      go 1 (world ≠ 0xFFFF) (.ownAssign src rights ksel world count) ∧ go 2 True (.ownSetrights src rights ksel world count) ∧
      go 3 True (.ownShare src rights ksel world count) ∧ go 4 True (.ownUnshare src rights ksel world count) ∧
      go 5 True (.ownRelease src rights ksel world count) ∧ go 6 True (.ownScrub src rights ksel world count)) ∧
    (∀ op k n, ends op n → k < n → (∀ x, (w.drainPages p n).ownEntry (p + k * 4096) = some x → ownFrom op world x = false) → Acts s fin err) ∧
    ((w.drainPages p 1).ownEntry p = some e →
      (ends 1 1 → e.st = 0 → world ≠ 0xFFFF → Does s fin (entry given)) ∧
      (ends 2 1 → e.st = 1 → mine → Does s fin (entry given)) ∧
      (ends 3 1 → e.st = 1 → mine → Does s fin (entry { e with st := 2 })) ∧
      (ends 4 1 → e.st = 2 → mine → Does s fin (entry { e with st := 1 })) ∧
      ((ends 5 1 ∧ (e.st = 1 ∨ e.st = 2) ∧ mine) ∨ (ends 6 1 ∧ e.st = 4) → (w.drainPages p 1).unitFailed p = false → Does s fin fun t =>
        entry ⟨0xFFFF, false, false, false, false, 0, 0⟩ t ∧
        ∀ i < 4096, (∀ a, w.ownAddr p = some a → p + i < a ∨ a + 4 ≤ p + i) → t.mem.byte (p + i) = 0)) ∧
    (Reaches s src .OWN_CTL 0 → Acts s (.ownEnable src) fun t => field t F.OWN_CTL_EN = 1) ∧
    (Reaches s src .OWN_PINOWN pin → mayOwn → ¬ (w.pinOn pin = true ∧ change) → Acts s (.pinownWrite src pin world drive sense) fun t =>
      field t F.OWN_PINOWN_WORLD pin = world ∧ field t F.OWN_PINOWN_DRIVE pin = b2n drive ∧ field t F.OWN_PINOWN_SENSE pin = b2n sense ∧
      t.w.reg .CIO_CFG pin = 0 ∧ t.w.reg .CIO_BIND pin = 0 ∧ t.w.ch pin = { pin := (w.ch pin).pin }) ∧
    (Reaches s src .OWN_PINOWN pin → ¬ mayOwn ∨ (w.pinOn pin = true ∧ change) → Acts s (.pinownWrite src pin world drive sense) fun t =>
      t.w.reg .OWN_PINOWN pin = w.reg .OWN_PINOWN pin ∧ Latched t 9)

/-- Cache and scratchpad commands. A slice or L2 takes CLEANALL and INVALL, INVALL leaving it without a line, and EN: falling, it sets STALE; rising with STALE
set, it is recorded; an L1 takes INVALL of either side or both, which leaves it without a line. Their completion frees the register, and that of INVALL clears STALE,
of an L1 its side's. SCRWAYS other than the present begins to move with SCRRDY 0, and is refused where it would be lowered over pages that are not FREE; at its completion it stands with
SCRRDY 1. An IPI sets line 10 of the core's IPEND. A Floe L2 mask entry is taken or refused by the rule for way masks, which refuses a world without a way
(R158, R236, R271 to R277, R484). -/
def Obligations.CacheCommands : Prop :=
  ∀ (s : State) (src core slice ways cluster entry world p : Nat) (c : CacheId),
    let w := s.w
    let (reg, i, en, stale) := cacheCtl c
    let running (r : RegName) (e op : Nat) (t : State) : Prop := Tab.find? t.dev.busy (regKey r e) = some op
    let freed (r : RegName) (e : Nat) (t : State) : Prop := Tab.find? t.dev.busy (regKey r e) = none
    let noL1 (d : Bool) (t : State) : Prop := if d then (t.w.core (.crn core)).dl1 = [] else (t.w.core (.crn core)).il1 = []
    let pages : Prop := ∀ k, ways * 64 ≤ k → k < field s F.SNP_SLICECTL_SCRWAYS slice * 64 →
      ∃ e, w.ownEntry (scratchBase slice + k * 4096) = some e ∧ e.st = 0
    let l2 := cluster * 16 + entry
    (Reaches s src reg i →
      Does s (.cacheCleanall src c) (running reg i 1) ∧
      Does s (.cacheInvall src c) (fun t => running reg i 2 t ∧ cacheLines t.w c = []) ∧
      (field s en i = 1 → Does s (.cacheDisable src c) fun t => field t en i = 0 ∧ field t stale i = 1) ∧
      (field s en i = 0 → Does s (.cacheEnable src c) fun t => field t en i = 1 ∧ (field s stale i = 1 → Latched t 0x2D))) ∧
    (Reaches s src .CRN_L1CMD core →
      Acts s (.l1InvallI src core) (fun t => running .CRN_L1CMD core 1 t ∧ noL1 false t) ∧
      Does s (.l1InvallD src core) (fun t => running .CRN_L1CMD core 2 t ∧ noL1 true t) ∧
      Does s (.l1InvallBoth src core) (fun t => running .CRN_L1CMD core 3 t ∧ noL1 true t ∧ noL1 false t)) ∧
    (∀ op, 1 ≤ op → op ≤ 3 → Tab.find? s.dev.busy (regKey .CRN_L1CMD core) = some op → Acts s (.commandComplete .CRN_L1CMD core) fun t =>
      freed .CRN_L1CMD core t ∧ field t F.CRN_L1CMD_BUSY core = 0 ∧ (op ≠ 2 → field t F.CRN_L1CMD_ISTALE core = 0) ∧
      (op ≠ 1 → field t F.CRN_L1CMD_DSTALE core = 0)) ∧
    (∀ op, op = 1 ∨ op = 2 → (reg = .CRN_L2CTL → i < 16) → Tab.find? s.dev.busy (regKey reg i) = some op → Acts s (.commandComplete reg i) fun t =>
      freed reg i t ∧ (op = 2 → field t stale i = 0)) ∧
    (Reaches s src .SNP_SLICECTL slice → ways ≤ 8 → ways ≠ field s F.SNP_SLICECTL_SCRWAYS slice →
      (pages → Does s (.scrwaysChange src slice ways) fun t => Tab.find? t.dev.coh.scrNew slice = some ways ∧
        field t F.SNP_SLICECTL_SCRRDY slice = 0 ∧ running .SNP_SLICECTL slice 3 t) ∧
      (¬ pages → Acts s (.scrwaysChange src slice ways) fun t => Latched t 9 ∧ t.w.reg .SNP_SLICECTL slice = w.reg .SNP_SLICECTL slice)) ∧
    (Tab.find? s.dev.busy (regKey .SNP_SLICECTL slice) = some 3 → Tab.find? s.dev.coh.scrNew slice = some ways → ways ≤ 8 →
      Acts s (.commandComplete .SNP_SLICECTL slice) fun t => field t F.SNP_SLICECTL_SCRWAYS slice = ways ∧ field t F.SNP_SLICECTL_SCRRDY slice = 1 ∧
        field t F.SNP_SLICECTL_BUSY slice = 0) ∧
    (Reaches s src .CRN_IPI 0 → core < w.crnLogs → w.physCore core = some p → Acts s (.ipi src core) fun t =>
      (t.w.core (.crn p)).ipend = (w.core (.crn p)).ipend ||| 1024) ∧
    (Reaches s src .FLO_L2MASK l2 → entry < 16 → world < 2 ^ 16 → ways < 2 ^ 16 →
      (w.l2maskBad cluster entry world ways = false → Does s (.l2maskWrite src cluster entry world ways) fun t =>
        field t F.FLO_L2MASK_WORLD l2 = world ∧ field t F.FLO_L2MASK_WAYS l2 = ways) ∧
      (w.l2maskBad cluster entry world ways = true → Acts s (.l2maskWrite src cluster entry world ways) fun t =>
        Latched t 9 ∧ t.w.reg .FLO_L2MASK l2 = w.reg .FLO_L2MASK l2) ∧ (world ≠ 0xFFFF → ways = 0 → w.l2maskBad cluster entry world ways = true))

/-! ### Time, buses and pins -/

/-- Time. TIM.SET loads a value not below the count in Thaw and is refused elsewhere. With SRC PPS an edge gives the sample of the count less its nearest whole second; the
first edge of Thaw, with LOCKED 0, also steps the count up to a whole second, and its sample is taken whatever its size. A sample of the reference in use, while EN is 1, by its size
against STEPTHR is rejected and counted, or moves ff by q / 2^GAIN and TIM.FREQ to ff less q, within the bound; LOCKED rises with 8 small ones and falls with one above 1 µs. Four
rejections, or no sample for as long as R363 says, are a reference fault: the fallback reference takes over, else holdover at ff; TREF_10M lost under PPS, the TIME clock falls back. TPPS_OUT
rises at a whole second while its gate is open and falls after WIDTH or with the gate (R359 to R363, R365; the first edge's sample is taken from the count before the step, assumption 108). -/
def Obligations.Timebase : Prop :=
  ∀ (s : State) (src ns interval error : Nat), ns < 2 ^ 64 → 0 < interval → interval < 2 ^ 15 → error < 2 ^ 40 →
    let w := s.w
    let v := s.dev.servo
    let sec : Nat := 1000000000
    let thaw : Prop := w.cur = mTHAW
    let bound (f : Int) : Int := max (-(2 ^ 21 : Int)) (min (2 ^ 21 : Int) f)
    let sampling (ref : Nat) : Prop := field s F.TIM_CTL_EN = 1 ∧ field s F.TIM_STAT_ACTIVE = ref
    let unlocked (e : Int) : Nat := if 1000 < e.natAbs then 0 else field s F.TIM_STAT_LOCKED
    let taken (e : Int) (i : Nat) (t : State) : Prop :=
      let q : Int := (e * (2 ^ 32 : Int)) / (i : Int)
      let ff : Int := v.ff - q / ((2 ^ field s F.TIM_CTL_GAIN : Nat) : Int)
      let good := if e.natAbs ≤ 100 then v.good + 1 else 0
      t.dev.servo.rejected = 0 ∧ t.dev.servo.ff = ff ∧ t.w.freq = bound (ff - q) ∧ field t F.TIM_STAT_HOLDOVER = 0 ∧ t.dev.servo.good = good ∧
        field t F.TIM_STAT_LOCKED = if 8 ≤ good then 1 else unlocked e
    let took (e : Int) (i : Nat) (t : State) : Prop := t.dev.servo.last = some s.now ∧
      if field s F.TIM_CTL_STEPTHR * 1000 < e.natAbs then
        t.dev.servo.rejected = v.rejected + 1 ∧ t.dev.servo.good = 0 ∧ t.dev.servo.ff = v.ff ∧ field t F.TIM_STAT_LOCKED = unlocked e
      else taken e i t
    let off : Int := let r := s.now % sec; if r < sec / 2 then (r : Int) else (r : Int) - sec
    let steps : Prop := thaw ∧ v.stepped = false ∧ field s F.TIM_STAT_LOCKED = 0
    let silent (n : Nat) : Prop := n ≤ s.now - v.last.getD 0
    let lost : Prop := field s F.TIM_CTL_EN = 1 ∧ field s F.TIM_STAT_HOLDOVER = 0 ∧
      ((field s F.TIM_STAT_ACTIVE ≠ 0 ∧ 4 ≤ v.rejected) ∨ (field s F.TIM_STAT_ACTIVE = 1 ∧ silent 2500000000) ∨
        (field s F.TIM_STAT_ACTIVE = 3 ∧ silent 25000000) ∨ (field s F.TIM_STAT_ACTIVE = 2 ∧ silent (4 * field s F.TIM_OFFSET_INTERVAL * 1000000)))
    let fallback : Prop := field s F.TIM_CTL_SRC2 ≠ 0 ∧ field s F.TIM_STAT_ACTIVE = field s F.TIM_CTL_SRC ∧ field s F.TIM_CTL_SRC2 ≠ field s F.TIM_CTL_SRC
    let level (b : Bool) (t : State) : Prop := t.dev.servo.ppsOut = b ∧ t.dev.out = .pin 2 0 (b2n b) :: s.dev.out
    (Reaches s src .TIM_SET 0 →
      (thaw → s.now ≤ ns → ∃ t, exec (.timSet src ns) s = .next t ∧ t.now = ns ∧ t.mem = s.mem ∧ t.fuse = s.fuse ∧ t.pending = s.pending) ∧
      (¬ (thaw ∧ s.now ≤ ns) → Acts s (.timSet src ns) fun t => Latched t 9)) ∧
    (field s F.TIM_CTL_SRC = 1 →
      (steps → ∃ t, exec .ppsEdge s = .next t ∧ t.now = ceilDiv s.now sec * sec % 2 ^ 64 ∧ t.dev.servo.stepped = true ∧ t.mem = s.mem ∧
        t.fuse = s.fuse ∧ t.pending = s.pending ∧ (sampling 1 → t.dev.servo.last = some t.now ∧ taken off sec t)) ∧
      (¬ steps → Acts s .ppsEdge fun t => (thaw → t.dev.servo.stepped = true) ∧ (sampling 1 → took off sec t))) ∧
    (Reaches s src .TIM_OFFSET 0 → sampling 2 → Acts s (.ptpSample src interval error) (took (sext 40 error) (interval * 1000000))) ∧
    (sampling 3 → 1000 ≤ v.hbCount → Acts s .partnerSample fun t => took (v.hbSum / (v.hbCount : Int)) 10000000 t ∧
      t.dev.servo.hbSum = 0 ∧ t.dev.servo.hbCount = 0) ∧
    (lost → w.cur ≠ mRESET → Acts s .referenceFault fun t => field t F.TIM_STAT_REFFAULT = 1 ∧ Latched t 0x39 ∧ t.dev.servo.rejected = 0 ∧
      (fallback → field t F.TIM_STAT_ACTIVE = field s F.TIM_CTL_SRC2) ∧
      (¬ fallback → field t F.TIM_STAT_HOLDOVER = 1 ∧ t.w.freq = bound v.ff)) ∧
    (field s F.TIM_STAT_ACTIVE = 1 → Acts s .trefLoss fun t => t.dev.servo.tref = false) ∧
    (w.gateTpps = true → field s F.TIM_PPSOUT_EN = 1 → s.now % sec ≤ 2 → v.ppsOut = false → Acts s .ppsOutRise (level true)) ∧
    (v.ppsOut = true → field s F.TIM_PPSOUT_WIDTH * 1000 ≤ s.now % sec ∨ w.gateTpps = false → Acts s .ppsOutFall (level false))

/-- Control pins and loops. A filtered edge that CFG.EDGE selects enters the FIFO of four with the time of its transition, or counts as lost. A compare unit whose time has come reloads or disarms, sets CMPF, or leaves
it pending while the loop of its core is held, and acts on the pin in COMPARE mode. A PWM period starts with the value written before it. A level timer sets TMRF, or leaves it pending while held, goes off with PER 0 and else advances past the count, counting what
it missed. At a whole µs the request of the one bound channel, its loop not held, is applied with DRIVE (kinds 1 to 3) or SENSE (kind 4) and reported without. EXCHANGE in Maintenance and HOLD in a service mode post a new
request; ACK is seen at a whole µs; GO ends an acknowledged handshake, and one that no ACK answers within LIMIT ends with ERR and its REQ cleared (R380 to R384, R387, R389 to R391; HOLD elsewhere and an operation while BUSY are ERR, assumption 35). -/
def Obligations.PinsAndLoops : Prop :=
  ∀ (s : State) (src n l limit hsoff : Nat) (up : Bool), n < 48 → l < 32 → 0 < limit → limit < 256 → hsoff / 16 < 2 ^ 13 →
    let w := s.w
    let c := w.ch n
    let held := w.chHeld n
    let edge : Prop := nbit (field s F.CIO_CFG_EDGE n) (if up then 0 else 1) = true
    let cmp := field s F.CIO_CMP_TIME n
    let per := field s F.CIO_CMPPER_NS n
    let act := field s F.CIO_CFG_CMPACT n
    let p := if c.pwmNow.1 = 0 then (c.pwmNext.getD c.pwmNow).1 else c.pwmNow.1
    let lv := field s F.CIO_TMRCTL_LEVEL n
    let due := field s F.CIO_TMRNEXT_COUNT n
    let cnt := levelCount lv s.now
    let tper := field s F.CIO_TMRCTL_PER n
    let ctl := w.tcmLe (field s F.CIO_BIND_CORE n) (field s F.CIO_BIND_OFF n * 64 + 0x30) 8
    let val := w.tcmLe (field s F.CIO_BIND_CORE n) (field s F.CIO_BIND_OFF n * 64 + 0x38) 8
    let asks (kind : Nat) : Prop := s.now % 1000 ≤ 1 ∧ field s F.CIO_BIND_EN n = 1 ∧ held = false ∧ nbit ctl 63 = true ∧ nbits ctl 62 60 = kind ∧
      ∀ m < 48, m ≠ n → field s F.CIO_BIND_EN m = 0
    let drives : Prop := field s F.OWN_PINOWN_DRIVE n = 1
    let senses : Prop := field s F.OWN_PINOWN_SENSE n = 1
    let posted (op : Nat) (t : State) : Prop := field t F.CIO_LOOP_BUSY l = 1 ∧ field t F.CIO_LOOP_LIMIT l = limit ∧
      field t F.CIO_LOOP_HSOFF l = hsoff / 16 ∧ t.w.loop l = { req := ((w.loop l).req + 1) % 2 ^ 32, op := op, since := s.now } ∧
      t.w.tcmLe l (hsoff / 16 * 16) 8 = ((w.loop l).req + 1) % 2 ^ 32 * 2 ^ 32 + op
    let err (t : State) : Prop := field t F.CIO_LOOP_ERR l = 1
    let mayPost : Prop := field s F.CIO_LOOP_BUSY l = 0 ∧ w.physCore l ≠ none
    let waiting : Prop := field s F.CIO_LOOP_BUSY l = 1 ∧ field s F.CIO_LOOP_ACKED l = 0
    let noReq (t : State) : Prop := w.physCore l ≠ none → t.w.tcmLe l (w.hsOff l) 8 = 0
    (c.pin ≠ up → Does s (.pinEdge n up) fun t => (t.w.ch n).pin = up ∧ field t F.CIO_STAT_PIN n = b2n up ∧
      (¬ edge → (t.w.ch n).fifo = c.fifo) ∧
      (edge → c.fifo.length < 4 → (t.w.ch n).fifo = c.fifo ++ [(s.now - field s F.CIO_CFG_FILT n, if up then 1 else 2)]) ∧
      (edge → 4 ≤ c.fifo.length → (t.w.ch n).fifo = c.fifo ∧ field t F.CIO_STAT_OVF n = 1 ∧
        field t F.CIO_STAT_LOST n = satAdd 16 (field s F.CIO_STAT_LOST n) 1)) ∧
    (cmp ≠ 0 → cmp ≤ s.now → Does s (.compareFire n) fun t => field t F.CIO_CMP_TIME n = (if per = 0 then 0 else (cmp + per) % 2 ^ 64) ∧
      (if held = true then (t.w.ch n).heldCmp = true else field t F.CIO_STAT_CMPF n = 1) ∧
      (field s F.CIO_CFG_MODE n = 3 → (t.w.ch n).level = if act = 1 then true else if act = 2 then false else if act = 3 then !c.level else c.level)) ∧
    (field s F.CIO_CFG_MODE n = 4 → p ≠ 0 → s.now % p = 0 → Acts s (.pwmPeriodStart n) fun t =>
      (t.w.ch n).pwmNow = c.pwmNext.getD c.pwmNow ∧ (t.w.ch n).pwmNext = none) ∧
    (lv = 0 ∨ cnt < due → Acts s (.levelTimerFire n) fun t => t.dev = s.dev) ∧
    (lv ≠ 0 → due ≤ cnt → Does s (.levelTimerFire n) fun t => (if held = true then (t.w.ch n).heldTmr = true else field t F.CIO_STAT_TMRF n = 1) ∧
      if tper = 0 then field t F.CIO_TMRCTL_LEVEL n = 0
      else field t F.CIO_TMRNEXT_COUNT n = (due + ((cnt - due) / tper + 1) * tper) % 2 ^ 64 ∧
        field t F.CIO_TMRCTL_MISSED n = satAdd 16 (field s F.CIO_TMRCTL_MISSED n) ((cnt - due) / tper)) ∧
    (asks 1 → drives → Does s .ctrlRequestPoll fun t => field t F.CIO_CFG_OUTVAL n = val % 2) ∧
    (asks 2 → drives → Does s .ctrlRequestPoll fun t => field t F.CIO_PWM_HIGH n = val % 2 ^ 32 ∧
      (t.w.ch n).pwmNext = some (field s F.CIO_PWM_PERIOD n, val % 2 ^ 32)) ∧
    (asks 3 → drives → Does s .ctrlRequestPoll fun t => field t F.CIO_CMP_TIME n = val) ∧
    (asks 4 → senses → Does s .ctrlRequestPoll fun t => (t.w.ch n).fifo = c.fifo.drop (val % 8) ∧
      field t F.CIO_STAT_CMPF n = (if nbit val 8 then 0 else field s F.CIO_STAT_CMPF n) ∧
      field t F.CIO_STAT_TMRF n = if nbit val 9 then 0 else field s F.CIO_STAT_TMRF n) ∧
    (w.cur ≠ mRESET → ((asks 1 ∨ asks 2 ∨ asks 3) ∧ ¬ drives) ∨ (asks 4 ∧ ¬ senses) → Does s .ctrlRequestPoll fun t => Latched t 0x3B) ∧
    (Reaches s src .CIO_LOOP l →
      (mayPost → w.cur = mMAINT → Does s (.loopExchange src l limit hsoff) (posted 1)) ∧
      (mayPost → isService w.cur = true → Does s (.loopHold src l limit hsoff) (posted 2)) ∧
      (¬ mayPost ∨ w.cur ≠ mMAINT → Acts s (.loopExchange src l limit hsoff) err) ∧
      (¬ mayPost ∨ isService w.cur = false → Acts s (.loopHold src l limit hsoff) err) ∧
      (field s F.CIO_LOOP_ACKED l = 1 → Does s (.loopGo src l limit hsoff) fun t =>
        field t F.CIO_LOOP_ACKED l = 0 ∧ field t F.CIO_LOOP_BUSY l = 0 ∧ field t F.CIO_LOOP_DONE l = 1) ∧
      (field s F.CIO_LOOP_ACKED l = 0 → Acts s (.loopGo src l limit hsoff) err)) ∧
    (waiting → s.now % 1000 ≤ 1 → w.tcmLe l (w.hsOff l + 8) 8 = (w.loop l).req * 2 ^ 32 + (w.loop l).op → Acts s (.loopAcked l) fun t =>
      field t F.CIO_LOOP_ACKED l = 1) ∧
    (waiting → (w.loop l).since + field s F.CIO_LOOP_LIMIT l * 1000000 ≤ s.now → Does s (.loopAckTimeout l) fun t =>
      err t ∧ field t F.CIO_LOOP_BUSY l = 0 ∧ noReq t)

/-- A Sastrugi bus, while SAS.CTL.EN is 1. Out of Reset and Thaw a new cycle starts with nothing heard, the beacon sent where the gate then is open, and STAT.BEACON of the last one;
a module that is not master sends its WITNESS frame on a witness bus. A beacon or frame of a wrong length or CRC counts in CRCERR. A good beacon gives the partner's claim, mode and SERVE, and one whose
claim wins takes mastership away. A DATA frame within its guards, in a slot that is not suspended and not overlapped by an offender, clears DISC and is kept, and beyond half of them sets DRIFT, counts and is reported, with a
correction from the master; one that an offender overlaps counts as a victim; one outside, and one in a suspended slot, counts in DISCCNT, and the third in a row suspends the slot under the master. A JOIN, the first in its
cycle, is kept for the next beacon, and a WITNESS frame gives the partner's claim and mode. The record goes to the ring after the join slot; a slot without frames for IDLELIM cycles becomes FREE under the master; CMDQ takes 64
entries and refuses the next (R325, R327, R368 to R378). -/
def Obligations.Sastrugi : Prop :=
  ∀ (s : State) (src n k code index value : Nat) (d : Int) (bs : List Byte), n < 4 → 1 ≤ k → k ≤ 60 →
    let w := s.w
    let b := w.bus n
    let i := slotIx n k
    let on : Prop := field s F.SAS_CTL_EN n = 1
    let awake : Prop := w.cur ≠ mRESET
    let live : Prop := awake ∧ w.cur ≠ mTHAW
    let c := w.cycleOf n
    let word (o m : Nat) : Nat := ofBE ((bs.drop o).take m)
    let up (f : Fld) (t : State) : Prop := field t f n = satAdd 32 (field s f n) 1
    let broken (len : Nat) : Prop := bs.length ≠ len ∨ sasCrcOk bs = false
    let whole (len type : Nat) : Prop := bs.length = len ∧ sasCrcOk bs = true ∧ word 1 1 = type
    let f : SasFrame := { slot := k, d := d, bytes := bs, crcOk := true, discarded := false, oldDisc := field s F.SAS_SLOT_DISC i,
                          oldCorr := Tab.find? b.corr k, oldDrift := w.flag F.SAS_SLOT_DRIFT i }
    let alone (slot : Nat) : Prop := w.overlapped n { f with slot := slot } = false
    let wins := claimWins (word 4 2) (field s F.PLK_CLAIM_OWN) (1 - w.home)
    let ring := w.base F.SAS_SMP_BASE n + b.cycle % 2 ^ field s F.SAS_SMP_SIZE n * 2048
    let idle := Tab.getD b.idle k 0
    (on → live → (b.running = false ∨ b.cycle < c) → field s F.SAS_CTL_PHASE n ≤ s.now / 1000 → Acts s (.sasCycleStart n) fun t =>
      (t.w.bus n).cycle = c ∧ (t.w.bus n).start = (c * 1000 + field s F.SAS_CTL_PHASE n) * 1000 ∧ (t.w.bus n).running = true ∧
      (t.w.bus n).frames = [] ∧ (t.w.bus n).joins = [] ∧ (t.w.bus n).heardBeacon = false ∧ (t.w.bus n).sent = t.w.gateSas n ∧
      field t F.SAS_STAT_BEACON n = b2n (b.sent || b.heardBeacon)) ∧
    (on → live → w.isWit n = true → w.gateSas n = false → b.running = true → Acts s (.witnessSend n) fun t =>
      ∃ x, t.dev.out = .sas n (b.start + 61200) x :: s.dev.out ∧ x.length = 28 ∧ sasCrcOk x = true ∧ x.getD 1 0 = 3) ∧
    (on → broken 140 → Acts s (.sasBeacon n bs) (up F.SAS_CRCERR_COUNT)) ∧
    (on → whole 140 0x10 → bs.headD 0 = 0xBE → word 2 1 = n → Acts s (.sasBeacon n bs) fun t =>
      field t F.PLK_CLAIM_PARTNER = word 4 2 ∧ t.dev.plk.pMode = word 6 1 ∧ t.dev.plk.pServe = word 7 1 ∧ (t.w.bus n).heardBeacon = true ∧
      (wins = true → field t F.SAS_STAT_MASTER n = 0 ∧ (t.w.bus n).winningHeard = true)) ∧
    (on → broken 28 → Acts s (.sasDataFrame n k d bs) (fun t => up F.SAS_CRCERR_COUNT t ∧ field t F.SAS_SLOT_DISC i = field s F.SAS_SLOT_DISC i) ∧
      Acts s (.sasJoinFrame n d bs) (up F.SAS_CRCERR_COUNT) ∧ Acts s (.sasWitnessFrame n d bs) (up F.SAS_CRCERR_COUNT)) ∧
    (on → whole 28 1 → d.natAbs ≤ 1200 → field s F.SAS_SLOT_STATE i ≠ 2 →
      (alone k → Acts s (.sasDataFrame n k d bs) fun t =>
        field t F.SAS_SLOT_DISC i = 0 ∧ (t.w.bus n).frames = b.frames ++ [f] ∧
        (600 < d.natAbs → field t F.SAS_SLOT_DRIFT i = 1 ∧ up F.SAS_DRIFTCNT_COUNT t ∧ (awake → Latched t 0x3A) ∧
          (w.gateSas n = true → Tab.find? (t.w.bus n).corr k = some (corrOf d)))) ∧
      (¬ alone k → Acts s (.sasDataFrame n k d bs) fun t => up F.SAS_VICTCNT_COUNT t ∧ field t F.SAS_SLOT_DISC i = field s F.SAS_SLOT_DISC i)) ∧
    (on → whole 28 1 → d.natAbs ≤ 1200 → field s F.SAS_SLOT_STATE i = 2 → Acts s (.sasDataFrame n k d bs) (up F.SAS_DISCCNT_COUNT)) ∧
    (on → whole 28 1 → 1200 < d.natAbs → Acts s (.sasDataFrame n k d bs) fun t => up F.SAS_DISCCNT_COUNT t ∧
      ((∀ g ∈ b.frames, g.slot ≠ k) → field t F.SAS_SLOT_DISC i = min 3 (field s F.SAS_SLOT_DISC i + 1) ∧
        (2 ≤ field s F.SAS_SLOT_DISC i → w.gateSas n = true → field t F.SAS_SLOT_STATE i = 2))) ∧
    (on → whole 28 2 → d.natAbs ≤ 1200 → alone 61 → (∀ g ∈ b.frames, g.slot ≠ 61) → Acts s (.sasJoinFrame n d bs) fun t =>
      (t.w.bus n).joins = b.joins ++ [(d, word 6 6)]) ∧
    (on → whole 28 3 → d.natAbs ≤ 1200 → alone 0 → Acts s (.sasWitnessFrame n d bs) fun t =>
      field t F.PLK_CLAIM_PARTNER = word 4 2 ∧ t.dev.plk.pMode = word 6 1 ∧ (t.w.bus n).pStandby = decide (word 6 1 = mSTANDBY)) ∧
    (b.running = true → b.start + 990000 ≤ s.now → field s F.SAS_SMP_EN n = 1 → field s F.SAS_TCMB_EN n = 0 →
      w.rangeOk (cirqueWho (source 18 n)) .wr ring 2048 = true → Does s (.sasRecordWrite n) fun t =>
        t.w.le ring 4 = b.cycle % 2 ^ 32 ∧ t.w.le (ring + 8) 8 = b.start % 2 ^ 64) ∧
    (field s F.SAS_CTL_IDLELIM n ≠ 0 → field s F.SAS_CTL_IDLELIM n ≤ idle → field s F.SAS_SLOT_STATE i ≠ 0 → w.gateSas n = true →
      Acts s (.slotIdleExpiry n k) fun t => field t F.SAS_SLOT_STATE i = 0 ∧ Tab.find? (t.w.bus n).notices k = some 2) ∧
    (Reaches s src .SAS_CMDQ n → k < 256 → code < 256 → index < 256 → value < 2 ^ 32 →
      (b.cmdq.length < 64 → Acts s (.cmdqWrite src n k code index value) fun t =>
        (t.w.bus n).cmdq = b.cmdq ++ [k * 2 ^ 56 + code * 2 ^ 48 + index * 2 ^ 40 + value]) ∧
      (64 ≤ b.cmdq.length → Acts s (.cmdqWrite src n k code index value) fun t =>
        field t F.SAS_STAT_QFULL n = 1 ∧ Latched t 9 ∧ (t.w.bus n).cmdq = b.cmdq))

/-! ### Ports, counters and the debug port -/

/-- The fabric ports. On an enabled port whose link is up a damaged frame is recorded, one that is too long, not served or for no queue pair is counted, and ICMP goes to the firmware; a whole SEND in sequence on a service queue
pair with a free receive buffer is acknowledged with its credits and handed on. PFC pauses and resumes a priority, and its watchdog records a pause that lasts and discards what waited. A congestion notification cuts a rate to three quarters, and 50 µs
without one raise it. A timeout and an RNR NAK count up to their limits, at which a queue pair without transactions is lost, and an RNR wait ends. GARP repeats that are due leave the list. A link goes down, recorded, and up. ETH.QPCMD starts on a queue pair that the port has and is ERR at once
for another; LOAD takes the next state or ERROR from the context, RESET forgets the queue pair, STORE writes its state and sequence numbers (R394 to R401). -/
def Obligations.FabricPorts : Prop :=
  ∀ (s : State) (src p prio len heldB qpn psn a : Nat) (bs : List Byte) (frame : EthFrame) (x : Qp) (r : RdmaReq) (rest : List RdmaReq),
    let w := s.w
    let q := qpKey p qpn
    let e := w.ethPort p
    let awake : Prop := w.cur ≠ mRESET
    let linked : Prop := w.portOn p = true ∧ e.up = true
    let rx (bad : Bool) (f : EthFrame) : Instr := .ethFrameReceive p prio len heldB bad f
    let dropped (t : State) : Prop := field t F.ETH_QPDROP_COUNT = satAdd 32 (field s F.ETH_QPDROP_COUNT) 1
    let here (t : State) (P : Qp → Prop) : Prop := ∃ y, t.w.qp q = some y ∧ P y
    let have_ : Prop := w.qp q = some x ∧ x.up = true
    let free : Prop := x.chid = none ∨ s.dev.txns = []
    let wd := field s F.ETH_PORTCFG_PFCWD (p / 2)
    let pfc : Prop := linked ∧ nbit (field s F.ETH_PORTCFG_PFCEN (p / 2)) prio = true
    let lim := if field s F.ETH_PORTCFG_SPLIT (p / 2) = 1 then 131072 else 262144
    let known : Prop := w.portOn p = true ∧ 2 ≤ qpn ∧ qpn < lim
    let begun (op : Nat) (t : State) : Prop := field t F.ETH_QPCMD_BUSY = 1 ∧ field t F.ETH_QPCMD_PORT = p ∧ field t F.ETH_QPCMD_QPN = qpn ∧
      Tab.find? t.dev.busy (regKey .ETH_QPCMD 0) = some op
    let go (op : Nat) (may : Prop) (i : Instr) : Prop := (may → Acts s i (begun op)) ∧ (¬ may → Acts s i fun t => field t F.ETH_QPCMD_ERR = 1)
    let ctx := w.base F.ETH_QPBASE_BASE p + qpn * 64
    let agent := cirqueWho (source 14 (p / 2))
    let ends (op : Nat) : Prop := Tab.find? s.dev.busy (regKey .ETH_QPCMD 0) = some op ∧ field s F.ETH_QPCMD_PORT = p ∧ field s F.ETH_QPCMD_QPN = qpn
    let fin := Instr.commandComplete .ETH_QPCMD 0
    let img := w.bytes ctx 64
    p < 32 → qpn < 2 ^ 24 → psn < 2 ^ 24 → prio < 8 →
    (linked → awake → Acts s (rx true frame) fun t => Latched t 0x34) ∧
    (linked → 9216 < len → Acts s (rx false frame) dropped) ∧ (linked → len ≤ 9216 → Acts s (rx false .other) dropped) ∧
    (linked → len ≤ 9216 → (∀ y, w.qp q = some y → y.up = false) → Acts s (rx false (.roce a qpn psn false .ack)) dropped) ∧
    (linked → len ≤ 9216 → Acts s (rx false (.icmp bs)) fun t => t.dev.out.head? = some (.toFirmware p 3 s.now bs)) ∧
    (linked → len ≤ 9216 → have_ → x.chid = none → w.worldActive x.world = true → a = x.byte 42 % 4 → w.entryOpen p a = true → psn = x.epsn →
      w.recvHeld q < x.credmax → bs.length ≤ 4160 → Acts s (rx false (.roce a qpn psn false (.send true true bs))) fun t =>
        here t (fun y => y.epsn = (x.epsn + 1) % 2 ^ 24 ∧ y.inbox = []) ∧ t.dev.out.head? = some (.toService q bs) ∧
        (Tab.has e.paused (field s F.ETH_PORTCFG_ROCEPRIO (p / 2)) = false →
          t.dev.out.take 2 = [.toService q bs, .ack q 0 psn (x.credmax - w.recvHeld q)])) ∧
    (pfc → Acts s (.pfcReceive p prio true) (fun t => Tab.has (t.w.ethPort p).paused prio = true) ∧
      Acts s (.pfcReceive p prio false) fun t => Tab.has (t.w.ethPort p).paused prio = false) ∧
    (wd ≠ 0 → Tab.find? e.paused prio = some a → a + wd * 1000000 ≤ s.now → Acts s (.pfcWatchdog p prio) fun t => (awake → Latched t 0x34) ∧
      ∀ o ∈ (t.w.ethPort p).queued, o.1 ≠ prio) ∧
    (have_ → Acts s (.cnpReceive p qpn) fun t => here t fun y => y.rate = max 1000000000 (x.rate * 3 / 4) ∧ y.rateAt = s.now) ∧
    (have_ → x.rateAt + 50000 ≤ s.now → x.rate < w.portRate p → Acts s (.cnpRateIncrease p qpn) fun t =>
      here t fun y => y.rate = min (w.portRate p) (x.rate + 5000000000)) ∧
    (have_ → x.unacked ≠ [] → x.rnrWait = false →
      (x.retries < x.byte 13 % 8 → Acts s (.qpRetryTimeout p qpn) fun t => here t fun y => y.retries = x.retries + 1 ∧ y.state = x.state) ∧
      (x.byte 13 % 8 ≤ x.retries → free → Acts s (.qpRetryTimeout p qpn) fun t => here t fun y => y.state = 4)) ∧
    (have_ → x.unacked = r :: rest → r.psn = psn → 1 ≤ r.n → r.n ≤ 2 ^ 23 →
      (x.rnr < x.byte 13 / 16 % 8 → Acts s (.rnrNakReceive p qpn psn) fun t => here t fun y => y.rnrWait = true) ∧
      (x.byte 13 / 16 % 8 ≤ x.rnr → free → Acts s (.rnrNakReceive p qpn psn) fun t => here t fun y => y.state = 4)) ∧
    (have_ → x.rnrWait = true → Acts s (.rnrWaitExpiry p qpn) fun t => here t fun y => y.rnrWait = false ∧ y.rnr = x.rnr + 1) ∧
    Acts s (.garpRepeat p) (fun t => (t.w.ethPort p).garp = e.garp.filter fun g => s.now < g.2 + 1000000000) ∧
    (e.up = true → Acts s (.ethLinkDown p) fun t => (t.w.ethPort p).up = false ∧ (t.w.ethPort p).paused = [] ∧ (awake → Latched t 0x34)) ∧
    (w.portOn p = true → e.up = false → Acts s (.ethLinkUp p) fun t => (t.w.ethPort p).up = true) ∧
    (Reaches s src .ETH_QPCMD 0 → go 1 known (.qpLoad src p qpn) ∧ go 2 known (.qpReset src p qpn) ∧
      go 3 (known ∧ w.rangeOk agent .wr ctx 64 = true) (.qpStore src p qpn)) ∧
    (ends 1 → known → qpCtxOk img = true → w.rangeOk agent .rd ctx 64 = true →
      (leAt img 0 1 = ((w.qp q).getD {}).state + 1 → leAt img 0 1 ≤ 3 →
        Acts s fin fun t => here t fun y => y.state = leAt img 0 1 ∧ y.epsn = leAt img 36 3 ∧ y.npsn = leAt img 32 3 ∧ y.credmax = leAt img 40 2) ∧
      (leAt img 0 1 = 4 → s.dev.txns = [] → Acts s fin fun t => here t fun y => y.state = 4)) ∧
    (ends 2 → known → Does s fin fun t => t.w.qp q = none) ∧
    (ends 3 → known → w.qp q = some x → w.rangeOk agent .wr ctx 64 = true → Does s fin fun t =>
      t.w.le ctx 1 = x.state % 256 ∧ t.w.le (ctx + 0x20) 4 = x.npsn % 2 ^ 32 ∧ t.w.le (ctx + 0x24) 4 = x.epsn % 2 ^ 32)

/-- The PCIe ports. EN takes BIFUR and CXL and drives PERST low, refused CXL where the port has none, and PERST rises 100 ms later. A link of the port's bifurcation comes up in FLIT mode, with the capacity of a CXL.mem device, recorded where it is too narrow; without FLIT mode it is
recorded and not used; one that goes down, with no command or no controller behind it, is recorded and the port's queues are gone. A read outside the command windows, and one that its window's command does not admit, gets Unsupported Request and is recorded; an admitted one reads
the window, a HELD buffer as zeros with a record, and an admitted write goes to the page or the metadata. The completion of an aborted command, which an MSI-X write announces, frees its tag (R125, R402 to R408, R459). -/
def Obligations.PciePorts : Prop :=
  ∀ (s : State) (src p bifur link width cap rid addr len vector tag st b : Nat) (cxl : Bool) (ctrls : List Nat) (c : NvmeCmd) (bs : List Byte),
    p < 16 → bifur < 4 →
    let w := s.w
    let x := w.pciPort p
    let awake : Prop := w.cur ≠ mRESET
    let idle : Prop := s.dev.nvmeq = [] ∧ s.dev.txns = []
    let up := bifurLinks x.bifur
    let trains : Prop := field s F.PCI_PORTCFG_EN p = 1 ∧ x.perst = true ∧ x.links.contains link = false
    let base := 0x4000000000000000
    let off := (addr - base) % 0x200000
    let window : Prop := base ≤ addr ∧ (addr - base) / 0x200000 = tag ∧ tag < 16384
    let serves (n : Nat) (write : Bool) : Prop := c.aborted = false ∧ rid = field s F.PCI_CTRLMAP_RID (p * 32 + c.ctrl) ∧ c.admits off n write = true
    let answer (ok : Bool) (d : List Byte) (t : State) : Prop := t.dev.out = .pcie p ok d :: s.dev.out
    let read := Instr.pcieInboundRequest p rid addr len false false bs
    let write := Instr.pcieInboundRequest p rid addr len true false bs
    let refused (t : State) : Prop := answer false [] t ∧ (awake → Latched t 0x35)
    (Reaches s src .PCI_PORTCFG p → field s F.PCI_PORTCFG_EN p = 0 → idle →
      (cxl = false ∨ (p < 4 ∧ bifur ≠ 2) → Acts s (.pciPortEnable src p bifur cxl) fun t => field t F.PCI_PORTCFG_EN p = 1 ∧
        (t.w.pciPort p).bifur = bifur ∧ (t.w.pciPort p).cxl = cxl ∧ (t.w.pciPort p).enAt = s.now ∧ (t.w.pciPort p).perst = false) ∧
      (cxl = true ∧ (4 ≤ p ∨ bifur = 2) → Acts s (.pciPortEnable src p bifur cxl) fun t => Latched t 9 ∧
        field t F.PCI_PORTCFG_CXL p = field s F.PCI_PORTCFG_CXL p)) ∧
    (field s F.PCI_PORTCFG_EN p = 1 → x.perst = false → x.enAt + 100000000 ≤ s.now → Acts s (.perstRelease p) fun t =>
      (t.w.pciPort p).perst = true ∧ t.dev.out = .pin 4 p 1 :: s.dev.out) ∧
    (trains → (∃ y, (link, y) ∈ up) →
      Acts s (.pcieLinkUp p link width false cap) (fun t => (t.w.pciPort p).links = x.links ∧ (awake → Latched t 0x35)) ∧
      Acts s (.pcieLinkUp p link width true cap) fun t => (t.w.pciPort p).links = link :: x.links ∧
        (link = 0 → x.cxl = true → Tab.getD t.dev.cxl p 0 = min (4 * 2 ^ 40) (cap / 2 ^ 30 * 2 ^ 30)) ∧
        (awake → (∀ y, (link, y) ∈ up → width < y) → Latched t 0x35)) ∧
    (x.links.contains link = true → x.tags = [] ∨ ctrls = [] → Acts s (.pcieLinkDown p link ctrls) fun t =>
      (t.w.pciPort p).links = x.links.filter (fun l => l ≠ link) ∧ (t.w.pciPort p).queues = false ∧ (awake → Latched t 0x35)) ∧
    (x.links ≠ [] →
      (addr < base ∨ base + 16384 * 0x200000 ≤ addr → Acts s read refused) ∧
      (window → (Tab.find? x.tags tag = none ∨ (Tab.find? x.tags tag = some c ∧ ¬ serves len false)) → Acts s read refused) ∧
      (window → (Tab.find? x.tags tag = none ∨ (Tab.find? x.tags tag = some c ∧ ¬ serves bs.length true)) → Acts s write refused) ∧
      (window → Tab.find? x.tags tag = some c → serves len false → Acts s read fun t =>
        if (c.touches off len).any w.isHeld then t.dev.out.head? = some (.pcie p true (w.winRead tag c off len)) ∧ (awake → Latched t 0x23)
        else answer true (w.winRead tag c off len) t) ∧
      (window → Tab.find? x.tags tag = some c → serves bs.length true → off < 0x100000 → c.pages[off / 4096]? = some b →
        off % 4096 + bs.length ≤ 4096 → Acts s write fun t => answer true [] t ∧ ((t.w.buf b).drop (off % 4096)).take bs.length = bs) ∧
      (window → Tab.find? x.tags tag = some c → serves bs.length true → 0x100000 ≤ off → Acts s write fun t =>
        answer true [] t ∧ ∃ y, Tab.find? (t.w.pciPort p).tags tag = some y ∧ (y.mdata.drop (off - 0x100000)).take bs.length = bs) ∧
      (Tab.find? x.tags tag = some c → c.aborted = true → c.ctrl < 32 → vector < 1024 → idle → Acts s (.msixWrite p c.ctrl vector [(tag, st)]) fun t =>
        Tab.find? (t.w.pciPort p).tags tag = none))

/-- The management controller, while power is good and Reset is over, reads the status block and the outgoing mailbox and writes the incoming one once it has an address: the dynamic one that I3C assigns, which ends SMBus, or the
static one of SMBus, which is taken where none was assigned in time. The JTAG instructions become current, BYPASS in place of EXTEST, CLAMP and HIGHZ while SYS_RST_N is high, and IDCODE captures its fields (R409, R412; the layout of the
status block is the model's, assumption 36). -/
def Obligations.Management : Prop :=
  ∀ (s : State) (addr : Nat) (bs : List Byte),
    let w := s.w
    let m := s.dev.mgmt
    let reached : Prop := w.mgmtUp = true ∧ (m.dynAddr.isSome = true ∨ m.smbus = true)
    let scan (i : Nat) (t : State) : Prop := t.dev.mgmt.jtag = if s.dev.mode.rstN = true ∧ 3 ≤ i then 0 else i
    (reached → Acts s (.bmcAccess 0 bs) (fun t => t.dev.out = .bmc w.bmcStatus :: s.dev.out) ∧
      Acts s (.bmcAccess 1 bs) (fun t => t.dev.out = .bmc m.mboxOut :: s.dev.out) ∧
      (bs.length = 64 → Acts s (.bmcAccess 2 bs) fun t => t.dev.mgmt.mboxIn = bs)) ∧
    (w.mgmtUp = true → Acts s (.i3cDaa addr) fun t => t.dev.mgmt.dynAddr = some addr ∧ t.dev.mgmt.smbus = false) ∧
    (s.dev.mode.pwrgood = true → m.daaWait = true → m.dynAddr = none → Acts s .smbusFallback fun t => t.dev.mgmt.smbus = true) ∧
    Acts s .bypass (fun t => scan 0 t ∧ t.dev.out = .jtag 0 :: s.dev.out) ∧
    Acts s .idcode (fun t => scan 1 t ∧ t.dev.out = .jtag (bits s.fuse.idrev 31 24 % 16 * 2 ^ 28 + 0x0487 * 2 ^ 12 + 0x55E * 2 + 1) :: s.dev.out) ∧
    Acts s .samplePreload (scan 2) ∧ Acts s .extest (scan 3) ∧ Acts s .clamp (scan 4) ∧ Acts s .highz (scan 5)

/-- PMU.CMD and the world counters. LOAD and RELEASE start, SNAPW of a slot that holds counters, SNAPU of a unit that the part has, and another snapshot is ERR at once; a snapshot's tick lies 256 ns ahead, and there the slot's or the unit's
counters are latched, after which the command can end. At its end LOAD of a valid entry, readable and within the pool, gives the slot cleared counters and SEQ 0, of one that may not be read ERR; RELEASE takes them away. At a window boundary each MODE 3 counter takes its window's sum, the top-down
ones of a WIDE slot excepted, and the others stand. At a dump tick the record, its window closed first, goes to the world's ring and LOST restarts; where the ring's address does not translate it is counted in LOST and recorded (R413 to R423). -/
def Obligations.Counters : Prop :=
  ∀ (s : State) (src slot kind index b t0 j pa mt wid : Nat) (p : PmuWorld) (r : WorldRec) (rs : List (RegName × Nat)),
    slot < 4096 → kind < 4 → index < 1024 →
    let w := s.w
    let busy := Tab.find? s.dev.busy (regKey .PMU_CMD 0)
    let run (op : Nat) (t : State) : Prop := field t F.PMU_CMD_BUSY = 1 ∧
      Tab.find? t.dev.busy (regKey .PMU_CMD 0) = some (pmuBusy op (s.now + 256))
    let go (op : Nat) (may : Prop) (i : Instr) (P : State → Prop) : Prop :=
      (may → Acts s i fun t => run op t ∧ P t) ∧ (¬ may → Acts s i fun t => field t F.PMU_CMD_ERR = 1)
    let here (t : State) (P : PmuWorld → Prop) : Prop := ∃ y, Tab.find? t.dev.pmu slot = some y ∧ P y
    let ofSlot : Prop := field s F.PMU_CMD_SLOT = slot
    let fin := Instr.commandComplete .PMU_CMD 0
    let a := w.base F.PMU_WBASE_BASE + slot * 256
    let b1 (o : Nat) : Nat := w.le (a + o) 1
    let good : Prop := (b1 0 = 1 ∨ b1 0 = 2) ∧ (b1 1 = 0 ∨ (4 ≤ b1 1 ∧ b1 1 ≤ 20)) ∧ b1 2 ≤ 20 ∧ 4 ≤ b1 3 ∧ b1 3 ≤ 16 ∧
      w.pmuUsed slot + pmuSize (b1 0) ≤ w.xm 16384 8192
    let latched (t : State) : Prop := field t F.PMU_SNAPTS_T = t0 % 2 ^ 64 ∧ Tab.find? t.dev.busy (regKey .PMU_CMD 0) = some (pmuBusy 15 t0)
    let win : Prop := bits (BitVec.ofNat 64 (p.sels.getD j 0)) 62 61 = 3 ∧ ¬ (p.alloc = 2 ∧ j < 4)
    let tick := s.now - s.now % (2 ^ p.dumpk * 1000)
    let seq := (p.seq + 1) % 2 ^ 64
    let q := if tick % (2 ^ p.wink * 1000) = 0 then p.closeWindow tick else p
    let va := p.ringva + seq % 2 ^ p.ringlog * (if p.alloc = 2 then 256 else 64)
    let dumps : Prop := Tab.find? s.dev.pmu slot = some p ∧ w.worldAt slot = some (wid, r) ∧ p.dumpk ≠ 0 ∧ nbit r.flags 0 = true ∧
      (r.state = 1 ∨ r.state = 2) ∧ s.now % (2 ^ p.dumpk * 1000) ≤ 1
    (Reaches s src .PMU_CMD 0 →
      go 1 True (.pmuLoad src slot) (fun t => field t F.PMU_CMD_SLOT = slot) ∧ go 2 True (.pmuRelease src slot) (fun t => field t F.PMU_CMD_SLOT = slot) ∧
      go 3 (Tab.has s.dev.pmu slot = true) (.snapw src slot) (fun t => field t F.PMU_CMD_SLOT = slot) ∧
      go 4 ((w.snapRegs kind index).isSome = true) (.snapu src kind index) (fun t => field t F.PMU_CMD_KIND = kind ∧ field t F.PMU_CMD_INDEX = index)) ∧
    (busy = some (pmuBusy 3 t0) → ofSlot → Tab.find? s.dev.pmu slot = some p → t0 ≤ s.now → Acts s .pmuSnapLatch fun t =>
      latched t ∧ ∀ i < 16, field t F.PMU_SNAPV_COUNT i = p.cnt.getD i 0 % 2 ^ 48) ∧
    (busy = some (pmuBusy 4 t0) → w.snapRegs (field s F.PMU_CMD_KIND) (field s F.PMU_CMD_INDEX) = some rs → t0 ≤ s.now → Acts s .pmuSnapLatch fun t =>
      latched t ∧ ∀ i < 16, field t F.PMU_SNAPV_COUNT i = (rs.map fun x => bits (w.reg x.1 x.2) 47 0).getD i 0) ∧
    (busy = some b → b % 16 = 2 ∨ b % 16 = 15 → ofSlot → Acts s fin fun t =>
      field t F.PMU_CMD_BUSY = 0 ∧ (b % 16 = 2 → Tab.find? t.dev.pmu slot = none)) ∧
    (busy = some b → b % 16 = 1 → ofSlot →
      (w.rangeOk dumpWho .rd a 256 = true → good → Does s fin fun t => field t F.PMU_CMD_BUSY = 0 ∧ here t fun y =>
        y.alloc = b1 0 ∧ y.dumpk = b1 1 ∧ y.wink = b1 2 ∧ y.ringlog = b1 3 ∧ y.seq = 0 ∧ y.cnt = List.replicate (pmuSize (b1 0)) 0) ∧
      (w.rangeOk dumpWho .rd a 256 = false → Acts s fin fun t => field t F.PMU_CMD_BUSY = 0 ∧ field t F.PMU_CMD_ERR = 1)) ∧
    (Tab.find? s.dev.pmu slot = some p → s.now % (2 ^ p.wink * 1000) ≤ 1 → p.winAt ≠ s.now - s.now % (2 ^ p.wink * 1000) → j < p.cnt.length →
      j < p.win.length → Acts s (.pmuWindowBoundary slot) fun t => here t fun y =>
        (win → y.cnt.getD j 0 = p.win.getD j 0 % 2 ^ 48 ∧ y.win.getD j 0 = 0) ∧ (¬ win → y.cnt.getD j 0 = p.cnt.getD j 0)) ∧
    (dumps →
      (w.xlate wid va .wr = .ok (pa, mt) → w.rangeOk { world := wid, src := source 22 0, dma := true } .wr pa
          (q.record seq tick wid).length = true → Does s (.pmuDumpTick slot) fun t =>
        here t (fun y => y.seq = seq ∧ y.lost = 0) ∧ t.w.le pa 8 = seq ∧ t.w.le (pa + 8) 8 = tick % 2 ^ 64 ∧ t.w.le (pa + 0x10) 2 = wid % 2 ^ 16 ∧
        ∀ k < q.cnt.length, t.w.le (pa + 0x20 + 8 * k) 8 = (q.cnt.getD k 0 + b2n (q.wrapped.getD k false) * 2 ^ 63) % 2 ^ 64) ∧
      (∀ f, w.xlate wid va .wr = .error f → Acts s (.pmuDumpTick slot) fun t => here t (fun y => y.seq = seq ∧ y.lost = min 255 (p.lost + 1)) ∧
        (w.cur ≠ mRESET → Latched t 0x3C)))

/-- The debug port. The grant's code opens a session and another one the lockout, recorded, which ends after 1 s; the grant ends with its time, and its session with it. A GRANT write takes its fields and closes a session, and is refused
for FULL while LOCK is set outside Thaw. A scan shows the last result. An access during the lockout, or of memory below FULL, returns nothing and is recorded. Under FULL an aligned word of memory, where the owner check passes, and a general register or the PC of a halted core are read with their tags, and memory and the general registers are
written with them. A halt that the grant allows is taken or waits, RESUME and STEP let the core go on, a breakpoint at which the core may halt halts it, and a halt under TENANT ends at HALTLIM (R428 to R434). -/
def Obligations.DebugPort : Prop :=
  ∀ (s : State) (src code level lim world l p r pa data tag t0 : Nat) (x : TWord), level < 3 → lim < 2 ^ 14 → world < 2 ^ 16 → r < 33 → l < 32 →
    tag < 16 → data < 2 ^ 64 → pa < 2 ^ 46 → pa % 8 = 0 →
    let w := s.w
    let d := s.dev.dbg
    let c := CoreId.crn p
    let noted (cls : Nat) (t : State) : Prop := w.cur ≠ mRESET → Latched t cls
    let full : Prop := field s F.DBG_STAT_LOCKOUT = 0 ∧ w.dbgLevel = 2
    let result (refused : Bool) (tg v : Nat) (t : State) : Prop := t.dev.dbg.result = (true, refused, tg, v)
    let plain : Prop := (∀ off, w.pkind pa ≠ .dev off) ∧ ∀ i off, w.pkind pa ≠ .tcm i off
    let who : Who := { world := 0, src := source 23 1 }
    let core : Prop := w.physCore l = some p ∧ (w.core c).halted = true
    let locked : Prop := level = 2 ∧ field s F.DBG_STAT_LOCK = 1 ∧ w.cur ≠ mTHAW
    let right : Prop := w.grantOn = true ∧ d.code = some (code % 2 ^ 32)
    let mayHalt : Prop := w.tenantGrant = none ∨ field s F.DBG_GRANT_HALTLIM ≠ 0
    (right → Acts s (.dbgauth code) fun t => field t F.DBG_STAT_SESSION = 1) ∧
    (¬ right → Acts s (.dbgauth code) fun t => field t F.DBG_STAT_LOCKOUT = 1 ∧ t.dev.dbg.lockAt = s.now ∧ noted 0x0A t) ∧
    (field s F.DBG_STAT_LOCKOUT = 1 → d.lockAt + 1000000000 ≤ s.now → Acts s .dbgLockoutExpiry fun t => field t F.DBG_STAT_LOCKOUT = 0) ∧
    (d.code.isSome = true → field s F.DBG_EXPIRE_S ≤ w.secs → Acts s .dbgGrantExpiry fun t => t.dev.dbg.code = none ∧ field t F.DBG_STAT_SESSION = 0) ∧
    (Reaches s src .DBG_GRANT 0 →
      (¬ locked → Acts s (.dbgGrantWrite src level lim world code) fun t => field t F.DBG_GRANT_LEVEL = level ∧ field t F.DBG_GRANT_HALTLIM = lim ∧
        field t F.DBG_GRANT_WORLD = world ∧ field t F.DBG_STAT_SESSION = 0 ∧ t.dev.dbg.code = some (code % 2 ^ 32)) ∧
      (locked → Acts s (.dbgGrantWrite src level lim world code) fun t => t.w.reg .DBG_GRANT 0 = w.reg .DBG_GRANT 0 ∧ Latched t 9)) ∧
    Acts s .dbgPoll (fun t => t.dev.mgmt.jtag = 7 ∧
      t.dev.out = .jtag (b2n d.result.1 * 2 ^ 115 + b2n d.result.2.1 * 2 ^ 114 + d.result.2.2.1 % 16 * 2 ^ 64 + d.result.2.2.2 % 2 ^ 64) :: s.dev.out) ∧
    (field s F.DBG_STAT_LOCKOUT = 1 ∨ (w.dbgLevel ≠ 2 ∧ plain) → Acts s (.dbgRead 0 3 pa) (fun t => result true 0 0 t ∧ noted 0x0A t) ∧
      Acts s (.dbgWrite 0 3 pa data tag) fun t => result true 0 0 t ∧ noted 0x0A t) ∧
    (full → plain → w.physOk who .rd pa = true → Does s (.dbgRead 0 3 pa) (result false (w.rdWord (pa / 8)).tag.toNat (w.rdWord (pa / 8)).val.toNat)) ∧
    (full → plain → w.physOk who .wr pa = true → Does s (.dbgWrite 0 3 pa data tag) fun t =>
      result false 0 0 t ∧ t.w.word (pa / 8) = ⟨BitVec.ofNat 4 tag, BitVec.ofNat 64 data⟩) ∧
    (full → core → w.dbgCoreReg c r = some x → Acts s (.dbgRead 2 3 (l * 2 ^ 36 + r)) (result false x.tag.toNat x.val.toNat)) ∧
    (full → core → 0 < r → r < 32 → Does s (.dbgWrite 2 3 (l * 2 ^ 36 + r) data tag) fun t => result false 0 0 t ∧
      t.w.gr c r = ⟨BitVec.ofNat 4 tag, BitVec.ofNat 64 data⟩) ∧
    (Reaches s src .DBG_HALT l → w.physCore l = some p →
      ((w.core c).active = true → (w.core c).halted = false → mayHalt → Does s (.dbgHaltReq src l) fun t =>
        (t.w.core c).halted = true ∨ Tab.has t.dev.dbg.want l = true) ∧
      ((w.core c).halted = true → Acts s (.dbgResume src l) (fun t => (t.w.core c).halted = false ∧ field t F.DBG_HALT_HALTED l = 0) ∧
        Acts s (.dbgStep src l) fun t => (t.w.core c).halted = false ∧ l ∈ t.dev.dbg.stepping)) ∧
    ((w.core c).runs = true → (w.bpHit p).isSome = true → Does s (.breakpointHit p) fun t => (t.w.core c).halted = true) ∧
    (Tab.find? d.tenant l = some t0 → t0 + field s F.DBG_GRANT_HALTLIM * 1000000 ≤ s.now → core → Acts s (.haltLimitExpiry l) fun t =>
      (t.w.core c).halted = false ∧ field t F.DBG_HALT_AUTOREL l = 1)

/-! ### The partner link -/

/-- Flits and messages on the partner link, out of Reset with the link up or in training. Paired, a damaged flit of any type is discarded and the first
one of a gap is NAKed. With nothing waiting for the link: a flit's acknowledgement and credits count; a DATA flit with the expected number is taken into
its channel's message, which waits whole or, with a MTYPE that is not the channel's, is reported under PLK.PROTO; one of the 512 before it is answered
by an IDLE, any other by the gap's NAK; a NAK resends every flit from its number, and the eighth time in a row retrains the link; a HEARTBEAT takes the
partner's claim, mode and segments and ends silence. A HELLO in training that R324 turns down leaves the modules unpaired under PLK.PAIR; one that it
admits pairs a module in Thaw that holds nothing, at the highest common version. The acknowledgement and heartbeat timers send their flits. And with
nothing waiting for the link the oldest message of a channel is consumed: a RECORD of one slot goes to its mirror slot, STATE sets RSTATE and FREE or
VOID ends the record, DATA within the first slot and DIGEST go where they belong, JACK completes the INTENT of its JSN, CTXWB writes the context copy,
HANDBACK and HBACK move a segment where nothing is held, RESYNCDONE ends the copy, MAIL is delivered (R316 to R326, R334, R335). -/
def Obligations.PartnerLink : Prop :=
  ∀ (s : State) (bs m : List Byte) (n slot vc : Nat) (rest : List (List Byte × Nat)) (i : Nat) (x : Txn),
    let w := s.w
    let p := s.dev.plk
    let f := Flit.parse bs
    let e := p.expect
    let h := f.payload
    let be (l : List Byte) (o k : Nat) : Nat := ofBE ((l.drop o).take k)
    let link := field s F.PLK_STAT_LINK
    let hears : Prop := (link = 1 ∨ link = 2) ∧ w.cur ≠ mRESET
    let alone : Prop := field s F.PLK_STAT_RESYNC = 0 ∧ p.waiting = [[], [], [], []] ∧ s.dev.txns.keysWhere (fun _ t => decide (t.wait = .link)) = []
    let got (type : Nat) : Prop := hears ∧ alone ∧ w.paired = true ∧ f.ok = true ∧ f.ftype = type
    let sends (ftype vcf fseq expect : Nat) (pay : List Byte) (t : State) : Prop :=
      t.dev.out = .flit (flitBytes ftype vcf fseq ((expect + 65535) % 65536) p.owes.1 p.owes.2 pay) :: s.dev.out
    let back : PlkSt := { p.ack f.ack with credits := if f.crvc < 4 then p.credits.set f.crvc (p.credits.getD f.crvc 0 + f.crcnt) else p.credits }
    let nak (t : State) : Prop := sends 2 0 e e [] t ∧ t.dev.plk.nakSent = true ∧ field t F.PLK_NAKCNT_COUNT = satAdd 32 (field s F.PLK_NAKCNT_COUNT) 1
    let ahead := (e + 65536 - f.fseq) % 65536
    let c := f.vcf / 16 % 4
    let msg := if nbit f.vcf 3 then h else (p.rx.getD c ([], 0)).1 ++ h
    let cnt := if nbit f.vcf 3 then 1 else (p.rx.getD c ([], 0)).2 + 1
    let again := back.replay.dropWhile fun g => decide (g.seq ≠ f.fseq)
    let key := be m 8 8
    let body := (m.drop 16).take (be m 4 4)
    let g := leAt body 0 1
    let ring := w.base F.CHN_JMBASE_BASE + slot * 4096
    let writer := cirqueWho (source 21 2)
    let here (type v : Nat) : Prop := hears ∧ alone ∧ w.paired = true ∧ p.inbox.getD v [] = (m, n) :: rest ∧ leAt m 0 1 = type
    let used (v : Nat) (t : State) : Prop := t.dev.plk.inbox.getD v [] = rest
    let mine : Prop := (∃ k, Tab.find? p.mirror key = some (slot, k)) ∧ w.rangeOk writer .wr ring 256 = true
    let quiet : Prop := s.dev.txns = [] ∧ w.shns = [] ∧ p.mirror = []
    (hears → w.paired = true → p.nakSent = false → f.ok = false →
      Acts s (.plkDataFlit bs) nak ∧ Acts s (.plkIdleFlit bs) nak ∧ Acts s (.plkNak bs) nak ∧ Acts s (.plkHello bs) nak ∧ Acts s (.plkHeartbeat bs) nak) ∧
    (got 0 → Acts s (.plkIdleFlit bs) fun t => t.dev.plk = back) ∧
    (got 1 → f.fseq = e → c < p.rx.length → c < p.inbox.length → Acts s (.plkDataFlit bs) fun t =>
      t.dev.plk.expect = (e + 1) % 65536 ∧ t.dev.plk.nakSent = false ∧
      (nbit f.vcf 2 = false → t.dev.plk.rx.getD c ([], 0) = (msg, cnt)) ∧
      (nbit f.vcf 2 = true → t.dev.plk.rx.getD c ([], 0) = ([], 0) ∧
        (mtypeOk (leAt msg 0 1) c = true → t.dev.plk.inbox.getD c [] = p.inbox.getD c [] ++ [(msg, cnt)]) ∧
        (mtypeOk (leAt msg 0 1) c = false → Latched t 0x36))) ∧
    (got 1 → 1 ≤ ahead → ahead ≤ 512 → Acts s (.plkDataFlit bs) fun t => sends 0 0 0 e [] t ∧ t.dev.plk.expect = e) ∧
    (got 1 → 512 < ahead → p.nakSent = false → Acts s (.plkDataFlit bs) nak) ∧
    (got 2 → again ≠ [] → Acts s (.plkNak bs) fun t => field t F.PLK_REPLAYCNT_COUNT = satAdd 32 (field s F.PLK_REPLAYCNT_COUNT) 1 ∧
      (∃ o, t.dev.out = o ++ s.dev.out ∧ o.length = again.length) ∧ (8 ≤ back.replays + 1 → field t F.PLK_STAT_LINK = 3 ∧ Latched t 0x38)) ∧
    (hears → w.paired = false → f.ok = true → f.ftype = 0x10 → p.fec = true → p.helloSeen = false →
      (w.pairFail h ≠ 0 → Acts s (.plkHello bs) fun t => field t F.PLK_STAT_PAIRFAIL = 1 ∧ field t F.PLK_STAT_PAIRED = 0 ∧ Latched t 0x37) ∧
      (w.pairFail h = 0 → quiet → w.cur = mTHAW → Acts s (.plkHello bs) fun t => field t F.PLK_STAT_PAIRED = 1 ∧ field t F.PLK_STAT_LINK = 2 ∧
        field t F.PLK_CLAIM_PARTNER = be h 32 2 ∧ field t F.PLK_STAT_VERSEL = min (be h 1 1) (field s F.PLK_CTL_VMAX) % 8 ∧
        field t F.SYS_READY_PARTNER = 1)) ∧
    (got 0x11 → Acts s (.plkHeartbeat bs) fun t => field t F.PLK_CLAIM_PARTNER = be h 0 2 ∧ field t F.PLK_STAT_SILENT = 0 ∧
      t.dev.plk.pMode = be h 2 1 ∧ t.dev.plk.pServe = be h 3 1 ∧ t.dev.plk.lastHb = some s.now ∧ t.dev.plk.judged = none) ∧
    (p.sinceAck ≠ 0 → link = 2 → w.paired = true → Acts s .plkAckTimer fun t => sends 0 0 0 e [] t ∧ t.dev.plk.sinceAck = 0) ∧
    (w.cur ≠ mRESET → w.cur ≠ mTHAW → w.paired = true → link = 2 → Acts s .heartbeatTimer fun t => ∃ pay, sends 0x11 0 0 e pay t ∧
      be pay 0 2 = field s F.PLK_CLAIM_OWN ∧ be pay 2 1 = w.cur ∧ be pay 6 8 = s.now % 2 ^ 64) ∧
    (here 1 vc → leAt body 62 2 = 0 → body.length = 256 → w.rangeOk writer .wr (w.base F.CHN_JMBASE_BASE + be m 2 2 * 4096) 256 = true →
      Does s (.plkRecord vc) fun t => used vc t ∧ Tab.find? t.dev.plk.mirror key = some (be m 2 2, 1) ∧
        t.w.bytes (w.base F.CHN_JMBASE_BASE + be m 2 2 * 4096) 256 = body) ∧
    (here 2 vc → mine → Does s (.plkState vc) fun t => used vc t ∧ t.w.le (ring + 8) 1 = leAt body 0 1 ∧
      (leAt body 0 1 = 0 ∨ leAt body 0 1 = 2 → Tab.find? t.dev.plk.mirror key = none)) ∧
    (here 3 vc → mine → be body 0 4 + body.length ≤ 3840 → 8 < body.length → w.rangeOk writer .wr (ring + 256 + be body 0 4) (body.length - 8) = true →
      Does s (.plkDataMsg vc) fun t => used vc t ∧ t.w.bytes (ring + 256 + be body 0 4) (body.length - 8) = body.drop 8) ∧
    (here 4 vc → mine → body.length = 8 → Does s (.plkDigest vc) fun t => used vc t ∧ t.w.le (ring + 88) 8 = ofBE body ∧ nbit (t.w.le (ring + 11) 1) 2 = true) ∧
    (here 0x10 2 → Tab.first? s.dev.txns (fun _ t => decide (t.jsn = key) && !t.slots.isEmpty && !t.intentOk) = some (i, x) →
      Acts s .jack fun t => used 2 t ∧ ∃ y, t.w.txn i = some y ∧ y.intentOk = true ∧ (x.wait = .ack → y.wait = .none)) ∧
    (here 0x11 2 → body.length = 193 → Does s .ctxwb fun t => used 2 t ∧
      (t.w.bytes (w.ctxAddr (key % 2 ^ 20) + 0x80) 192 = body.drop 1 ∨ Latched t 0x28)) ∧
    (here 0x12 2 → g = w.home → quiet → Acts s .handback fun t => used 2 t ∧ field t F.PLK_SEG_SERVE = (field s F.PLK_SEG_SERVE ||| 2 ^ g) % 4 ∧
      t.w.gen = (w.gen + 1) % 4096) ∧
    (here 0x13 2 → p.returning = some g → s.dev.txns = [] → s.dev.chans = [] → Acts s .hback fun t => used 2 t ∧ t.dev.plk.returning = none) ∧
    (hears → w.paired = true → p.inbox.getD 2 [] = (m, n) :: rest → leAt m 0 1 = 0x14 → w.cur ≠ mDEGRADED → p.waiting = [[], [], [], []] → s.dev.txns = [] →
      Acts s .resyncdone fun t => used 2 t ∧ field t F.PLK_STAT_RESYNC = 0) ∧
    (here 0x20 3 → Acts s .mail fun t => used 3 t ∧ t.dev.out = .mail body :: s.dev.out)

/-- Losing and regaining the partner. PTN_PRES_N takes the link down or, enabled, into training; FEC lock starts the HELLOs, and lock loss, the eighth
replay in a row and PLK.CMD RETRAIN retrain a link that is up, which keeps the replay buffer and E; a retrain brings it up, back to training or down,
and 1 ms later it is tried again (R315, R317, R318, R323). Out of Reset, 50 µs without a HEARTBEAT is silence, reported; the witness buses judge the
partner (R326, R327); and a silent link out of Reset and Thaw, with nothing held and no return under way, is decided by the table of R328: lost or
without a witness to lose against, or winning, the module serves both segments in Degraded with GEN raised; losing against a live partner it stands by;
losing without a witness it serves its home segment only. A module in Standby stays there unless the partner is lost, and one in Degraded stays
Degraded (R24). A return stops admission after HOLD, hands the segment back when nothing of it is held, and PLK.CMD FORCE, RETURN and RETRAIN do what
R328, R335 and R318 say in the states that admit them, and set ERR in the others. -/
def Obligations.PartnerLossAndReturn : Prop :=
  ∀ (s : State) (src delay t0 g : Nat) (high : Bool),
    let w := s.w
    let p := s.dev.plk
    let awake : Prop := w.cur ≠ mRESET
    let link := field s F.PLK_STAT_LINK
    let lk (n : Nat) (t : State) : Prop := field t F.PLK_STAT_LINK = n
    let retrains (t : State) : Prop := lk 3 t ∧ Latched t 0x38 ∧ t.dev.plk.replay = p.replay ∧ t.dev.plk.expect = p.expect
    let bare : Prop := s.dev.txns = [] ∧ w.shns = [] ∧ p.mirror = [] ∧ s.dev.qps = [] ∧ s.dev.chans = []
    let serve := field s F.PLK_SEG_SERVE
    let decided (mode reason srv : Nat) (t : State) : Prop := field t F.SYS_MODE_CUR = mode ∧ field t F.PLK_STAT_DECIDE = 1 ∧
      field t F.PLK_STAT_REASON = reason ∧ field t F.PLK_SEG_SERVE = srv ∧ field t F.PLK_STAT_PAIRED = 0 ∧ Latched t 0x38
    let takes (reason : Nat) (t : State) : Prop := decided mDEGRADED reason 3 t ∧ t.w.gen = (w.gen + 1) % 4096
    let judges : Prop := field s F.PLK_STAT_SILENT = 1 ∧ p.lastHb.isSome = true ∧ awake ∧ w.cur ≠ mTHAW ∧ p.returning = none ∧ bare ∧
      ∀ l < 32, field s F.CIO_LOOP_BUSY l = 0
    let alive : Prop := p.judged = some true ∧ w.witBuses ≠ []
    let alone : Prop := p.judged ≠ some false ∧ w.witBuses = []
    let moves : Prop := w.cur ≠ mSTANDBY ∧ w.cur ≠ mDEGRADED
    let held : Prop := p.doneAt + field s F.PLK_RETCTL_HOLD * 1000000000 ≤ s.now
    let mayReturn : Prop := field s F.PLK_RETCTL_AUTO = 0 ∧ w.mayReturn = true ∧ held
    let mayForce : Prop := p.lastRow = true ∧ awake ∧ w.cur ≠ mTHAW
    let go (op : Nat) (may : Prop) (i : Instr) : Prop :=
      (may → Acts s i fun t => field t F.PLK_CMD_BUSY = 1 ∧ Tab.find? t.dev.busy (regKey .PLK_CMD 0) = some op) ∧
      (¬ may → Acts s i fun t => field t F.PLK_CMD_ERR = 1)
    let ends (op : Nat) : Prop := Tab.find? s.dev.busy (regKey .PLK_CMD 0) = some op
    let fin := Instr.commandComplete .PLK_CMD 0
    Acts s (.ptnPresChange high) (fun t => t.dev.plk.present = !high ∧ (high = true → lk 0 t ∧ field t F.PLK_STAT_PAIRED = 0) ∧
      (high = false → field s F.PLK_CTL_EN = 1 → link = 0 → lk 1 t)) ∧
    (w.linkOn = true → awake → link = 1 → Acts s (.fecLock delay) fun t =>
      t.dev.plk.fec = true ∧ t.dev.plk.helloSeen = false ∧ t.dev.plk.delay = delay) ∧
    (p.fec = true → p.helloSeen = false → w.linkOn = true → Acts s .plkHelloTimer fun t => t.dev.out =
      .flit (flitBytes 0x10 0 0 ((p.expect + 65535) % 65536) p.owes.1 p.owes.2 w.helloPayload) :: s.dev.out) ∧
    (link = 2 → p.replay ≠ [] → Acts s .plkReplayTimeout fun t => field t F.PLK_REPLAYCNT_COUNT = satAdd 32 (field s F.PLK_REPLAYCNT_COUNT) 1 ∧
      (p.replays < 7 → lk 2 t ∧ t.dev.plk.replays = p.replays + 1) ∧ (7 ≤ p.replays → awake → retrains t)) ∧
    (link = 2 → awake → Acts s .fecLockLoss retrains) ∧
    (link = 1 → Acts s .fecLockLoss fun t => t.dev.plk.fec = false) ∧
    (link = 3 → Acts s (.retrainDone false) (lk 0) ∧
      (w.paired = false → Acts s (.retrainDone true) fun t => lk 1 t ∧ t.dev.plk.fec = true) ∧
      (w.paired = true → s.dev.txns = [] → p.waiting = [[], [], [], []] → field s F.PLK_STAT_RESYNC = 0 → Acts s (.retrainDone true) fun t =>
        lk 2 t ∧ t.dev.plk.replay = p.replay ∧ t.dev.plk.expect = p.expect ∧ ∃ o, t.dev.out = o ++ s.dev.out ∧ o.length = p.replay.length)) ∧
    (w.linkOn = true → link = 0 → Acts s .retrainRetry (lk 3)) ∧
    (p.lastHb = some t0 → t0 + 50000 ≤ s.now → field s F.PLK_STAT_SILENT = 0 → awake → Acts s .linkSilence fun t =>
      field t F.PLK_STAT_SILENT = 1 ∧ Latched t 0x38) ∧
    (field s F.PLK_STAT_SILENT = 1 → w.witBuses ≠ [] → Acts s .witnessJudge fun t =>
      ((∃ n ∈ w.witBuses, n ∈ p.heard) → t.dev.plk.judged = some true) ∧
      ((∀ n ∈ w.witBuses, n ∉ p.heard ∧ n ∈ p.missed) → t.dev.plk.judged = some false)) ∧
    (judges →
      (p.judged = some false ∨ (w.witBuses = [] ∧ w.weWin = true) → Acts s .linkDecision (takes 1)) ∧
      (alive → w.cur ≠ mSTANDBY → w.weWin = true → Acts s .linkDecision (takes 2)) ∧
      (alive → moves → w.weWin = false → Acts s .linkDecision (decided mSTANDBY 3 0)) ∧
      (alone → moves → w.weWin = false → Acts s .linkDecision fun t => decided mDEGRADED 4 (serve &&& 2 ^ w.home) t ∧ t.dev.plk.lastRow = true) ∧
      (alive → w.cur = mSTANDBY → Acts s .linkDecision (decided mSTANDBY 3 serve)) ∧
      (alone → w.cur = mSTANDBY → w.weWin = false → Acts s .linkDecision fun t => decided mSTANDBY 4 serve t ∧ t.dev.plk.lastRow = true) ∧
      (alive ∨ alone → w.cur = mDEGRADED → w.weWin = false → Acts s .linkDecision fun t =>
        field t F.SYS_MODE_CUR = mDEGRADED ∧ field t F.PLK_STAT_PAIRED = 0 ∧ field t F.PLK_SEG_SERVE = serve)) ∧
    (w.mayReturn = true → field s F.PLK_RETCTL_AUTO = 1 ∨ p.returnAsked = true → held → Acts s .returnHoldExpiry fun t =>
      t.dev.plk.returning = some (1 - w.home) ∧ t.dev.plk.returnAt = s.now ∧ t.dev.plk.returnAsked = false) ∧
    (p.returning = some g → g < 2 → p.handbackSent = false → bare → Acts s .returnDrainEnd fun t =>
      t.dev.plk.handbackSent = true ∧ field t F.PLK_SEG_SERVE = (serve &&& (3 - 2 ^ g))) ∧
    (Reaches s src .PLK_CMD 0 → go 1 mayForce (.plkForce src) ∧ go 2 mayReturn (.plkReturn src) ∧ go 3 (link = 2) (.plkRetrain src)) ∧
    (ends 1 → mayForce → bare → Acts s fin fun t => takes 5 t ∧ t.dev.plk.forced = true ∧ field t F.PLK_CMD_BUSY = 0) ∧
    (ends 2 → mayReturn → Acts s fin fun t => t.dev.plk.returnAsked = true ∧ field t F.PLK_CMD_BUSY = 0) ∧
    (ends 3 → link = 2 → awake → Acts s fin fun t => retrains t ∧ field t F.PLK_CMD_BUSY = 0)

/-! ### Channels and their programs -/

/-- Client messages, on a connected queue pair in state RTS whose port, segment and world are up. HELLO: another version is NACKed, a channel it may not
use is refused, and on a new connection the highest common version is agreed (R63, R64). SUBMIT in the order of R68, for a channel whose block is
resident: no HELLO or another version is NACKed; a check of R34 that fails ends it NOACCESS and a body rule BADREQ (R34, R36, R66, R67); a number below
the window, or in it and no longer held, is NACKed; a repeat gets the stored COMPLETE or the ACCEPT; a new one without a credit is NACKed, and with one
is QUEUED under the next number with its deadline (R38, R48, R69 to R71, R78). CACK frees a completion-cache entry, PING is echoed, PONG clears the misses,
and waits where its channel's block is not resident (R30, R73, R75). The block is then loaded, or reported as unreadable, or counted in NOCTX while there
is no room (R29, R30). IDLE ms of silence bring a PING, and MISS of them unanswered the loss of the queue pair (R75). Each new µs refills the buckets
(R37), and the first QUEUED transaction of its priority that admission lets in goes to its engine (R39, R78, R90). -/
def Obligations.ClientMessages : Prop :=
  ∀ (s : State) (q chid i e a n : Nat) (bs b : List Byte) (x : Qp) (c : Chan) (y : Txn) (r : WorldRec),
    let w := s.w
    let m := Msg.parse bs
    let live : Prop := w.qp q = some x ∧ x.chid = some chid ∧ x.state = 3 ∧ s.dev.jour.frozen = false ∧ w.gateFabric (w.chSeg chid) = true ∧
      w.worldActive x.world = true ∧ (w.ethPort (q / 2 ^ 24)).up = true ∧
      Tab.has (w.ethPort (q / 2 ^ 24)).paused (field s F.ETH_PORTCFG_ROCEPRIO (q / 2 ^ 24 / 2)) = false
    let whole (type : Nat) : Prop := live ∧ m.type = type ∧ m.len = bs.length
    let agreed : Prop := x.ver ≠ 0 ∧ m.ver = x.ver ∧ m.chan = chid
    let unbound : Prop := c.state ≠ 1 ∨ c.port * 2 ^ 24 + c.qp ≠ q ∨ c.world ≠ x.world
    let replies (type : Nat) (k : List Byte → Prop) (t : State) : Prop :=
      ∃ a, t.dev.out = .crp q a :: s.dev.out ∧ a.getD 1 0 = BitVec.ofNat 8 type ∧ k a
    let nack (reason : Nat) : State → Prop := replies 0x14 fun a => a.getD 16 0 = BitVec.ofNat 8 reason
    let ends (status : Nat) : State → Prop := replies 0x12 fun a => a.getD 16 0 = BitVec.ofNat 8 status
    let qpIs (t : State) (P : Qp → Prop) : Prop := ∃ z, t.w.qp q = some z ∧ P z
    let v := min (m.be 17 1) (field s F.CHN_CRPCTL_VMAX)
    let common : Prop := m.be 16 1 ≠ 0 ∧ m.be 16 1 ≤ m.be 17 1 ∧ m.be 16 1 ≤ v
    let greets : Prop := m.ver = 1 ∧ m.len = 32
    let op := m.be 16 1
    let here : Prop := agreed ∧ w.chan chid = some c ∧ m.len = 64 ∧ nbit (m.be 17 1) 0 = false
    let barred : Prop := unbound ∨ (op = 1 ∧ c.wrok = false) ∨ (op = 2 ∧ c.rdok = false) ∨ c.extentOk (m.be 24 8) (m.be 32 8) = false ∨
      w.worldActive c.world = false
    let good : Prop := here ∧ ¬ barred ∧ w.bodyOk c m = true
    let seen : Prop := m.seq ≤ c.seqhi ∧ c.seqhi ≤ m.seq + 1023 ∧ nbit c.winmap (m.seq % 1024) = true
    let unseen : Prop := c.seqhi ≤ m.seq + 1023 ∧ (c.seqhi < m.seq ∨ nbit c.winmap (m.seq % 1024) = false) ∧ w.seqTxn chid m.seq = none ∧
      m.seq ≤ w.lowSeq chid c.seqhi + 1023 ∧ m.seq ≠ 2 ^ 48 - 1
    let rel := if m.be 20 4 ≠ 0 then m.be 20 4 else c.dldef
    let hers : Prop := w.chan chid = none ∧ s.dev.ctxq.filter (fun p => w.msgChan p = some chid) = [⟨q, a, n, bs⟩] ∧ w.qp q = some x ∧ x.chid = some chid ∧
      m.type = 0x21 ∧ s.dev.jour.frozen = false ∧ w.cur ≠ mRESET
    let prio := (Chan.parse b).fix.prio
    let idle := field s F.CHN_KACTL_IDLE
    (whole 1 →
      (m.ver ≠ 1 → Acts s (.crpHello q bs) (nack 3)) ∧
      (greets → m.chan = chid → w.chan chid = some c → ¬ unbound → s.dev.txns = [] → x.ver = 0 →
        (common → Acts s (.crpHello q bs) fun t => replies 2 (fun a => a.getD 16 0 = BitVec.ofNat 8 v ∧ a.getD 18 0 = 0) t ∧
          qpIs t (fun z => z.ver = v) ∧ ∃ d, t.w.chan chid = some d ∧ d.crpver = v) ∧
        (¬ common → Acts s (.crpHello q bs) fun t => replies 2 (fun a => a.getD 18 0 = 2) t ∧ qpIs t fun z => z.ver = 0)) ∧
      (greets → m.chan ≠ chid ∨ (m.chan = chid ∧ w.chan chid = some c ∧ unbound) → Acts s (.crpHello q bs) fun t =>
        replies 2 (fun a => a.getD 18 0 = 1) t ∧ Latched t 0x1A)) ∧
    (whole 0x10 →
      (x.ver = 0 → Acts s (.crpSubmit q bs) (nack 5)) ∧ (x.ver ≠ 0 → m.ver ≠ x.ver → Acts s (.crpSubmit q bs) (nack 3)) ∧
      (here → barred → Acts s (.crpSubmit q bs) fun t => ends 1 t ∧ Latched t 0x1A) ∧
      (here → ¬ barred → w.bodyOk c m = false → Acts s (.crpSubmit q bs) (ends 8)) ∧
      (good → m.seq + 1023 < c.seqhi ∨ (seen ∧ w.seqTxn chid m.seq = none) → Acts s (.crpSubmit q bs) (nack 1)) ∧
      (good → seen → w.seqTxn chid m.seq = some (i, y) →
        (y.cached = true → y.wait ≠ .link → Acts s (.crpSubmit q bs) (ends (y.status.getD 0))) ∧
        (y.cached = false → y.accepted = true → Acts s (.crpSubmit q bs) (replies 0x11 fun _ => True))) ∧
      (good → unseen → c.avail = 0 → Acts s (.crpSubmit q bs) (nack 2)) ∧
      (good → unseen → c.avail ≠ 0 → Acts s (.crpSubmit q bs) fun t => t.dev.nextTxn = s.dev.nextTxn + 1 ∧
        (∃ z, t.w.txn s.dev.nextTxn = some z ∧ z.st = .queued ∧ z.seq = m.seq ∧ z.chid = chid ∧ z.length = m.be 32 8 ∧
          z.deadline = (if rel = 0 then 0 else s.now + rel * 1000) ∧ (z.wait = .tokens ∨ z.wait = .engine)) ∧
        ∃ d, t.w.chan chid = some d ∧ d.avail = c.avail - 1 ∧ d.inflight = c.inflight + 1)) ∧
    (whole 0x13 → agreed → m.len = 32 → w.chan chid = some c → 1 < x.ver ∨ m.be 16 2 ≤ 1 → 1 ≤ m.be 16 2 → m.be 16 2 ≤ 1024 → w.txn i = some y →
      y.cached = true → y.wait ≠ .link →
      s.dev.txns.keysWhere (fun _ t => decide (t.chid = chid) && decide (m.seq ≤ t.seq) && decide (t.seq < m.seq + m.be 16 2) && !t.gone && t.load.isNone) = [i] →
      Does s (.crpCack q bs) fun t => t.w.txn i = none) ∧
    (whole 0x20 → agreed → 2 ≤ x.ver → m.len = 24 → w.chan chid = some c → Acts s (.crpPing q bs) (replies 0x21 fun a => a.drop 16 = bs.drop 16)) ∧
    (whole 0x21 → agreed → 2 ≤ x.ver → m.len = 24 →
      (w.chan chid = some c → Acts s (.crpPong q bs) fun t => qpIs t fun z => z.misses = 0) ∧
      (w.chan chid = none → Acts s (.crpPong q bs) fun t => t.dev.ctxq = s.dev.ctxq ++ [⟨q, s.now, s.dev.nextTxn, bs⟩])) ∧
    (live → 2 ≤ x.ver → idle ≠ 0 → max x.lastAt x.pingAt + idle * 1000000 ≤ s.now →
      Tab.exists? s.dev.txns (fun _ t => decide (t.chid = chid) && !t.gone && t.load.isNone) = true →
      Acts s (.keepaliveIdle q) fun t => replies 0x20 (fun _ => True) t ∧ qpIs t fun z => z.misses = x.misses + 1 ∧ z.pingAt = s.now) ∧
    (w.qp q = some x → x.up = true → field s F.CHN_KACTL_MISS ≤ x.misses → x.pingAt + idle * 1000000 ≤ s.now → s.dev.txns = [] →
      Acts s (.keepaliveMiss q) fun t => qpIs t fun z => z.state = 4) ∧
    (hers → w.ctxRead chid = some b → (w.ctxRoom prio).isSome = true → Does s (.contextLoad chid) fun t => (t.w.chan chid).isSome = true ∧
      qpIs t (fun z => z.misses = 0) ∧ t.dev.ctxq = s.dev.ctxq.filter fun p => w.msgChan p ≠ some chid) ∧
    (hers → w.ctxRead chid = none → Acts s (.contextLoad chid) fun t => Latched t 0x1D ∧ t.w.chan chid = none) ∧
    (hers → w.ctxRead chid = some b → w.ctxRoom prio = none → Tab.find? s.dev.worlds x.world = some r → Acts s (.noctxRetry chid) fun t =>
      Tab.find? t.dev.worlds x.world = some { r with cnt := r.cnt.set 2 (satAdd 64 (r.cnt.getD 2 0) 1) }) ∧
    (s.now / 1000 ≠ s.dev.refillAt → s.dev.txns.keysWhere (fun _ t => decide (t.wait = .tokens)) = [] → Acts s .tokenRefill fun t =>
      t.dev.refillAt = s.now / 1000 ∧ ∀ k z, Tab.find? s.dev.worlds k = some z → Tab.find? t.dev.worlds k = some z.refill) ∧
    (w.txn i = some y → y.st = .queued → y.wait = .engine → w.admits y = true → w.chooseEngine y.prio = some e →
      Tab.exists? s.dev.txns (fun j u => decide (u.wait = .engine) && decide (u.st = .queued) && w.admits u &&
        (decide (u.prio < y.prio) || (decide (u.prio = y.prio) && decide (j < i)))) = false →
      Acts s (.engineAssign i) fun t => ∃ z, t.w.txn i = some z ∧ z.engine = some e ∧ z.wait = .none ∧
        z.st = if y.replayed then .accepted else if y.slots.isEmpty then .admitted else .intent)

/-- A channel program, in a device out of Reset: the engine that holds a transaction runs the command at its index (R40, R41). RESERVE asks for its
buffers; INTENT takes its slots and the next JSN and waits for its copy, or waits for slots, or goes on where it has completed (R80, R81); ACCEPT needs
it, sets SEQHI and goes on (R43, R70). A data command is queued behind the segment's others, and without ASYNC the transaction waits for it; where
none is before it, nothing stalls and its subsystem is ready, FETCH and STREAD start with reserved buffers, DELIVER and STWRITE with the segment's chain,
KERNEL in segment order, COMPRESS and INFLATE ask for their output buffers, and SEAL and UNSEAL queue their job (R41, R101, R120, R144, R146). DIGEST
goes on, waits for the FETCHes, or writes the CRC-64 of the data (R83); WAITIO waits for ASYNC commands; COMMIT and FAIL decide the status (R43, R46);
SEGLOOP, JUMP and NOTIFY steer, RELEASE frees reserved buffers. DELIVER, COMMIT and ACCEPT before their time, a bad attachment, profile, cipher mode or
status are program faults under CHN.PROGRAM that leave the channel FAILED (R43, R44, R97, R114, R144); so are a RESERVE above 256 and a reserved JUMP
condition (the model's choice, assumption 100). -/
def Obligations.ChannelPrograms : Prop :=
  ∀ (s : State) (i e : Nat) (wr : Wrr) (y : Txn) (c : Chan) (k : Cmd),
    let w := s.w
    let runs (op : Nat) : Prop := w.txn i = some y ∧ y.engine = some e ∧ w.chan y.chid = some c ∧ w.enginePick e = some (i, wr) ∧ y.idx < c.proglen ∧
      w.cmdAt c.progbase y.idx = some k ∧ k.op = op ∧ y.count < 65536 ∧ y.status = none ∧ y.load = none ∧ w.cur ≠ mRESET
    let is (t : State) (P : Txn → Prop) : Prop := ∃ z, t.w.txn i = some z ∧ P z
    let on (z : Txn) : Prop := z.idx = y.idx + 1 ∧ z.count = y.count + 1
    let waits (z : Txn) (x : TxWait) : Prop := on z ∧ z.wait = if k.async then y.wait else x
    let faults (j : Instr) : Prop := c.quiesceTo = none → Does s j fun t => Latched t 0x19 ∧ ∃ d, t.w.chan y.chid = some d ∧ d.state = 4
    let g := y.segOf y.seg
    let last : Prop := ∀ p ∈ y.segs, p.1 ≤ y.seg
    let starts (o : SegOp) : Prop := last ∧ g.ops = [] ∧ g.running = false ∧ g.busy = false ∧ g.spilled = [] ∧ g.empty = false ∧
      w.subReady o.subsystem = true ∧ w.stopped i y.seg o.stage = false
    let behind (o : SegOp) (j : Instr) : Prop := last → g.busy = true → Acts s j fun t => is t fun z => waits z .io ∧ (z.segOf y.seg).ops = g.ops ++ [o]
    let out (j : Instr) (chain : List Nat) : Prop := Acts s j fun t => is t fun z => on z ∧ (z.segOf y.seg).running = true ∧ (z.segOf y.seg).chain = chain ∧
      z.outstanding = y.outstanding + 1
    let asks (o : SegOp) (j : Instr) (n : Nat) : Prop := starts o → g.outChain = [] → w.asking (.out i y.seg) = false → Acts s j fun t =>
      t.dev.neve.reqs = s.dev.neve.reqs ++ [⟨e, y.prio, n, y.world, .out i y.seg⟩]
    let seals (o : SegOp) (op : Nat) (j : Instr) : Prop := starts o → w.cipCount e < 256 → Acts s j fun t =>
      t.dev.cip.queue = s.dev.cip.queue ++ [s.dev.cip.next] ∧
      ∃ x, Tab.find? t.dev.cip.jobs s.dev.cip.next = some x ∧ x.op = op ∧ x.ref = ⟨i, y.seg⟩ ∧ x.chain = g.chain
    let word := c.kernel.getD k.a 0
    let kid := nbits word 63 52
    let kernelOk : Prop := attBad word = false ∧ 1 ≤ w.kstate kid ∧ w.kstate kid ≤ 3 ∧ w.kworld kid = y.world
    let turn : Prop := ∀ p ∈ y.segs, p.1 < y.seg → p.2.running = false → (p.2.ops.any fun o => o.stage = 1) = true → g.kgiven < p.2.kgiven
    let prof := c.cmpprof.getD k.a 0
    let n := bufsFor (y.segLen c y.seg)
    let lbas := bufsFor ((if k.b = 0 then c.slotLbas else k.b) * 2 ^ c.lbaShift)
    let cond := k.b % 16
    let holds : Prop := cond = 0 ∨ (cond = 1 ∧ y.write = true) ∨ (cond = 2 ∧ y.write = false) ∨ (cond = 3 ∧ y.nsegs c ≤ y.seg + 1)
    let slots := w.pickSlots (w.slotsFor y)
    let room : Prop := s.dev.jslots.length + w.slotsFor y ≤ field s F.CHN_JCTL_SLOTCAP ∧ slots.length = w.slotsFor y
    let live : Prop := s.dev.jour.frozen = false
    let decides (st : Nat) (j : Instr) : Prop := y.st = .accepted → Does s j fun t => is t fun z => z.status = some st ∧
      z.st = if y.issued && decide (0 < y.outstanding) then .decided else .done
    (runs 0x01 → w.stopped i 0 0 = false → (256 < k.a → faults (.reserve i)) ∧
      (k.a ≤ 256 → Acts s (.reserve i) fun t => is t (waits · .nobuf) ∧
        t.dev.neve.reqs = s.dev.neve.reqs ++ [⟨e, y.prio, if k.a = 0 then bufsFor c.segSize else k.a, y.world, .reserve i⟩])) ∧
    (runs 0x02 → live →
      (y.intentOk = true → Acts s (.intent i) fun t => is t on) ∧
      (y.intentOk = false → y.slots = [] → room → s.dev.jsn + 1 < 2 ^ 64 → Does s (.intent i) fun t => is t fun z => on z ∧ z.st = .intent ∧
        z.slots = slots ∧ z.jsn = s.dev.jsn ∧ (k.async = false → z.wait = .ack ∨ z.wait = .flush)) ∧
      (y.intentOk = false → y.slots = [] → ¬ room → Acts s (.intent i) fun t => is t (waits · .noslot)) ∧
      (y.intentOk = false → y.slots ≠ [] → w.degradedWay = false → Acts s (.intent i) fun t => is t (waits · .ack))) ∧
    (runs 0x03 →
      (y.acceptSent = false → y.intentOk = false → faults (.accept i)) ∧
      (y.acceptSent = false → y.intentOk = true → live → Acts s (.accept i) fun t =>
        is t (fun z => on z ∧ z.st = .accepted ∧ z.acceptSent = true ∧ z.tsacc = s.now) ∧ ∃ d, t.w.chan y.chid = some d ∧ d.seqhi = max c.seqhi y.seq)) ∧
    (runs 0x04 → behind .fetch (.fetch i) ∧
      (starts .fetch → n ≤ y.bufs.length → y.inline = none → (y.replayed = true → y.dataFlag = false) → w.clientUp y = true →
        out (.fetch i) (y.bufs.take n))) ∧
    (runs 0x05 → (y.acceptSent = false → faults (.deliver i)) ∧
      (y.acceptSent = true → behind .deliver (.deliver i) ∧ (starts .deliver → w.clientUp y = true → out (.deliver i) g.chain))) ∧
    (runs 0x06 → (¬ kernelOk → faults (.kernel i)) ∧
      (kernelOk → behind (.kernel k.a k.c) (.kernel i) ∧ (turn → asks (.kernel k.a k.c) (.kernel i) (ceilDiv (g.chain.length * nbits word 39 32) 64)))) ∧
    (runs 0x07 → (profBad prof true = true → faults (.compress i)) ∧
      (profBad prof true = false → behind (.compress k.a) (.compress i) ∧
        (w.cmpCount e < 256 → asks (.compress k.a) (.compress i) (ceilDiv (g.chain.length * nbits prof 39 32) 16)))) ∧
    (runs 0x08 → (profBad prof false = true → faults (.inflate i)) ∧
      (profBad prof false = false → behind (.inflate k.a) (.inflate i) ∧ (w.cmpCount e < 256 → asks (.inflate k.a) (.inflate i) n))) ∧
    (runs 0x09 → (cipOk c.cipprof c.lbaShift = false → faults (.seal i)) ∧
      (cipOk c.cipprof c.lbaShift = true → behind .seal (.seal i) ∧ seals .seal 1 (.seal i))) ∧
    (runs 0x0A → (cipOk c.cipprof c.lbaShift = false → faults (.unseal i)) ∧
      (cipOk c.cipprof c.lbaShift = true → behind .unseal (.unseal i) ∧ seals .unseal 2 (.unseal i))) ∧
    (runs 0x0B → behind .stwrite (.stwrite i) ∧ (starts .stwrite → out (.stwrite i) g.chain)) ∧
    (runs 0x0C → behind (.stread k.b) (.stread i) ∧ (starts (.stread k.b) → lbas ≤ y.bufs.length → out (.stread i) (y.bufs.take lbas))) ∧
    (runs 0x0D →
      (y.write = false ∨ y.length ≤ field s F.CHN_JCTL_MIRTHR → Acts s (.digest i) fun t => is t on) ∧
      (y.write = true → field s F.CHN_JCTL_MIRTHR < y.length → y.fetchedSegs < y.nsegs c → Acts s (.digest i) fun t => is t (waits · .fetches)) ∧
      (y.write = true → field s F.CHN_JCTL_MIRTHR < y.length → y.nsegs c ≤ y.fetchedSegs → y.replayed = false → Does s (.digest i) fun t =>
        is t fun z => on z ∧ z.digest = crc64 y.data ∧ z.digested = true)) ∧
    (runs 0x0E → Acts s (.waitio i) fun t => is t fun z => on z ∧
      if y.segs.all (fun p => p.2.ops.isEmpty) && y.bg.isEmpty then z.wait = y.wait else z.wait = .io) ∧
    (runs 0x0F → (y.acceptSent = false → faults (.commit i)) ∧ (y.acceptSent = true → decides 0 (.commit i))) ∧
    (runs 0x10 → Acts s (.segloop i) fun t => is t fun z =>
      if y.seg + 1 < y.nsegs c then z.seg = y.seg + 1 ∧ z.idx = k.a ∧ z.count = 0 else on z ∧ z.seg = y.seg) ∧
    (runs 0x11 → (3 < cond → faults (.jump i)) ∧
      (cond ≤ 3 → Acts s (.jump i) fun t => is t fun z => z.count = y.count + 1 ∧ (holds → z.idx = k.a) ∧ (¬ holds → z.idx = y.idx + 1))) ∧
    (runs 0x12 → Acts s (.notify i) fun t => is t on ∧ t.dev.irqs = s.dev.irqs ++ [.channel y.chid k.b k.c]) ∧
    (runs 0x13 → (8 < k.a → faults (.fail i)) ∧ (k.a ≤ 8 → decides k.a (.fail i))) ∧
    (runs 0x14 → y.segs = [] → Acts s (.release i) fun t => is t (fun z => on z ∧ z.bufs = []) ∧
      ∀ b ∈ y.bufs, Tab.find? t.dev.neve.used b = none)

/-- What happens to transactions beside their programs. With no stall standing, the allocator refuses a request it cannot grant, which counts in NOBUFCNT
and waits to be presented again, and grants a RESERVE the lowest free buffers while LOWWM and the 256 reserved ones stay free (R52 to R54; which buffers
is the model's choice, assumption 39). An INTENT without slots counts in NOSLOT at each retry (R51). A chain of one buffer that has waited STALL cycles is
written to the lowest free slot (assumption 98) and freed; with no slot free, or spilling disabled, the stall counts once and holds its stage; and the
next stage of a spilled chain asks for buffers as requester 127 (R15 to R17). A deadline that has passed decides DEADLINE for a transaction past ACCEPT,
and the wheel takes in the deadlines of its 4,096 µs (R48 to R50). Replayed transactions whose client stays away for WAIT ms take REPLAYFAIL (R91). An
engine that hangs, out of Reset and with no spare, leaves service under CHN.ENGINE (R28). -/
def Obligations.ChannelEvents : Prop :=
  ∀ (s : State) (i k n e chid since : Nat) (y : Txn) (c : Chan) (r : BufReq) (x : WorldRec),
    let w := s.w
    let v := s.dev.neve
    let is (t : State) (P : Txn → Prop) : Prop := ∃ z, t.w.txn i = some z ∧ P z
    let low := field s F.NEVE_SPILLCTL_LOWWM + 256
    let got := pickFree w.neveTotal v.used.keys 0 r.n
    let g := y.segOf k
    let stall := field s F.NEVE_SPILLCTL_STALL
    let slot0 := w.base F.NEVE_SPILLBASE_BASE
    let stage := (g.ops.head?.map SegOp.stage).getD 0
    let ages : Prop := (w.spillable.find? fun p => p.2.1 = i ∧ p.2.2 = k) = some (since, i, k) ∧ stall ≠ 0 ∧ stall * 4 ≤ (s.now - since) * 5 ∧
      w.txn i = some y ∧ g.spilled = []
    let noRoom : Prop := field s F.CHN_JCTL_SLOTCAP < s.dev.jslots.length + w.slotsFor y
    let decided (st : Nat) (t : State) : Prop := is t fun z => z.status = some st ∧
      z.st = if y.issued && decide (0 < y.outstanding) then .decided else .done
    let running : Prop := w.txn i = some y ∧ y.status = none ∧ y.load = none ∧ (y.st = .accepted ∨ (y.st = .queued ∧ y.replayed = true))
    (v.reqs = [r] → v.stalls = [] →
      (grants r w.neveFree = false → low ≤ w.neveFree → Acts s .neveRequest fun t => t.dev.neve.reqs = [] ∧ t.dev.neve.refused = v.refused ++ [r] ∧
        field t F.NEVE_NOBUFCNT_COUNT = satAdd 32 (field s F.NEVE_NOBUFCNT_COUNT) 1) ∧
      (grants r w.neveFree = true → low + r.n ≤ w.neveFree → r.why = .reserve i → w.txn i = some y → y.segs = [] → Acts s .neveRequest fun t =>
        t.dev.neve.reqs = [] ∧ is t (fun z => z.bufs = y.bufs ++ got ∧ (y.wait = .nobuf → z.wait = .none)) ∧
        ∀ b ∈ got, Tab.find? t.dev.neve.used b = some i)) ∧
    (v.refused[n]? = some r → Acts s (.nobufRetry n) fun t => t.dev.neve.reqs = v.reqs ++ [r] ∧ t.dev.neve.refused = v.refused.eraseIdx n) ∧
    (w.txn i = some y → y.wait = .noslot → y.intentOk = false → y.slots = [] → noRoom → s.dev.jour.frozen = false →
      Tab.find? s.dev.worlds y.world = some x → Acts s (.noslotRetry i) fun t => is t (fun z => z.wait = .noslot) ∧
        Tab.find? t.dev.worlds y.world = some { x with cnt := x.cnt.set 3 (satAdd 64 (x.cnt.getD 3 0) 1) }) ∧
    (ages →
      (g.chain = [n] → v.slots = [] → v.spillOff = false → 0 < field s F.NEVE_SPILLSIZE_SLOTS → w.rangeOk (cirqueWho (source 21 1)) .wr slot0 4096 = true →
        Does s (.spillAge i k) fun t => t.dev.neve.slots = [0] ∧ is t (fun z => (z.segOf k).spilled = [(0, 0)]) ∧ t.w.bytes slot0 4096 = w.buf n) ∧
      (w.spillSlot = none ∨ v.spillOff = true → v.stalls = [] → Acts s (.spillAge i k) fun t => t.dev.neve.stalls = [(stage, i, k)] ∧
        field t F.NEVE_SPILLFULL_COUNT = satAdd 32 (field s F.NEVE_SPILLFULL_COUNT) 1)) ∧
    (w.txn i = some y → g.spilled ≠ [] → g.ops ≠ [] → g.running = false ∨ g.queued = true → w.asking (.back i k) = false → Acts s (.spillReadback i k) fun t =>
      t.dev.neve.reqs = v.reqs ++ [⟨127, y.prio, g.spilled.length, y.world, .back i k⟩]) ∧
    (running → (∀ p ∈ s.dev.ctxq, p.num ≠ i) → y.deadline ≠ 0 → y.inWheel = true → ceilDiv y.deadline 1000 * 1000 ≤ s.now →
      Does s (.deadlineExpiry i) (decided 2)) ∧
    Acts s .deadlineWheelSort (fun t => ∀ j z, w.txn j = some z → t.w.txn j = some
      (if z.deadline ≠ 0 ∧ z.deadline / 1000 < s.now / 1000 + 4096 then { z with inWheel := true } else z)) ∧
    (w.chan chid = some c → c.replayWait = some since → since + field s F.CHN_REPLAYCTL_WAIT * 1000000 ≤ s.now →
      (w.txnsOf chid = [] → Acts s (.replayWaitExpiry chid) fun t => ∃ d, t.w.chan chid = some d ∧ d.replayWait = none) ∧
      (w.txnsOf chid = [i] → running → y.wait = .client → Does s (.replayWaitExpiry chid) (decided 7))) ∧
    (e ∈ w.engines → w.cur ≠ mRESET → w.spareEngine = none → s.dev.txns.keysWhere (fun _ t => t.engine = some e) = [] → Acts s (.engineWatchdog e) fun t =>
      Latched t 0x18 ∧ (t.w.unitOf (source 6 e)).out = true ∧ (t.w.unitOf (source 6 e)).svc = false)

/-- Storage and compression, out of Reset. Of the only transaction with its only command, on a namespace with enough metadata: a read that completes
gives the segment its length, its cipher record and, in a compressing program, its descriptor, and a write counts its bytes and frees its buffers (R41,
R67, R99, R115); an error status, too little metadata or, after its time, a timeout with an Abort reports CHN.NVME and decides MEDIA (R45, R51, R486);
and a Reservation Conflict on a shared namespace closes SHARED and keeps the command waiting (R486). An idle engine takes the next job, from its save
slot where SCRC checks, else from its start (R102, R108). In a mode that drains, a job at its next block boundary is saved under SCRC and returns to the
head of its priority, or, where the check of its slot fails, is reported and stays (R104 to R107; the boundary is the model's choice, assumption 103).
With a chain roomy at every boundary, COMPRESS ends with its frame where that is no longer than the input, else raw (R99, R100); INFLATE ends with its
output where every condition of R109 is met, and else its output goes to a scrub that decides INTEGRITY (R110). A refused extension is asked for again
(R104), a cancelled job frees its chains (R111), and an engine fault puts its job back to start anew elsewhere (R112). -/
def Obligations.StorageAndCompression : Prop :=
  ∀ (s : State) (port tag st i k e id n : Nat) (c : NvmeCmd) (y : Txn) (g : Seg) (x : Chan) (op : SegOp) (j : CmpJob) (wr : Wrr) (p : Nat) (r : BufReq)
    (sc : Scrub) (out : List Byte),
    let w := s.w
    let q := s.dev.cmp
    let awake : Prop := w.cur ≠ mRESET
    let has : Prop := Tab.find? (w.pciPort port).tags tag = some c ∧ c.aborted = false ∧ s.dev.nvmeq = [] ∧ awake
    let enough : Prop := w.metaShort port c = false
    let alone : Prop := s.dev.txns = [(i, y)] ∧ y.segs = [(k, g)] ∧ g.ops = [op] ∧ g.running = true ∧ y.load = none
    let live : Prop := alone ∧ y.status = none ∧ y.st = .accepted ∧ y.preacc = false
    let mine : Prop := live ∧ c.txn = some i ∧ c.seg = k
    let is (t : State) (P : Txn → Prop) : Prop := ∃ z, t.w.txn i = some z ∧ P z
    let free (l : List Nat) (t : State) : Prop := ∀ b ∈ l, Tab.find? t.dev.neve.used b = none
    let isOver (t : State) : Prop := Tab.find? (t.w.pciPort port).tags tag = none
    let seg (t : State) (P : Seg → Prop) : Prop := is t fun z => (z.segOf k).ops = [] ∧ (z.segOf k).running = false ∧ P (z.segOf k)
    let takes : Prop := e ∈ w.cmpEngines ∧ w.cmpOn e = none ∧ w.wrr q.wrr (fun a => (w.cmpReady e).any fun b => decide (b.2.prio = a)) = some (p, wr) ∧
      (w.cmpReady e).find? (fun b => decide (b.2.prio = p)) = some (id, j) ∧ s.dev.neve.stalls = []
    let job (t : State) (P : CmpJob → Prop) : Prop := ∃ z, Tab.find? t.dev.cmp.jobs id = some z ∧ P z
    let gone (t : State) : Prop := Tab.find? t.dev.cmp.jobs id = none
    let runs : Prop := w.cmpOn e = some (id, j) ∧ live ∧ j.ref = ⟨i, k⟩ ∧ awake
    let frame := w.cmpFrame j
    let room := j.outChain.length * 4096
    let roomy : Prop := ∀ m < j.count, j.blocks < m → w.cmpSize j m ≤ j.inlen ∧ w.cmpSize j m + 16384 ≤ room
    let slot := w.saveAddr j
    let agent := cirqueWho (source 7 e)
    let mayStop : Prop := (j.inflate = true ∧ j.form = 1) ∨
      (j.inflate = false ∧ j.blocks + 1 < j.count ∧ w.cmpSize j (j.blocks + 1) ≤ j.inlen ∧ w.cmpSize j (j.blocks + 1) ≤ room)
    let drains : Prop := w.cmpOn e = some (id, j) ∧ w.draining = true ∧ j.pinned = false ∧ mayStop ∧ awake
    let saves : Prop := q.saveSet = true ∧ w.rangeOk agent .wr slot 4096 = true
    (has → mine → enough → c.kind = 2 → w.chan y.chid = some x → Acts s (.nvmeCompletion port tag 0) fun t => isOver t ∧
      is t (fun z => z.outstanding = y.outstanding - 1) ∧ seg t fun z => z.record = (c.mdata.drop 8).take 32 ∧
        (w.hasCmp x = false → z.len = y.segLen x k) ∧
        (w.hasCmp x = true → z.desc = leAt c.mdata 0 8 ∧ z.stlen = nbits (leAt c.mdata 0 8) 31 0 ∧ z.len = z.stlen)) ∧
    (has → mine → enough → c.kind = 1 → Acts s (.nvmeCompletion port tag 0) fun t => isOver t ∧ free g.chain t ∧ seg t (fun z => z.chain = []) ∧
      is t fun z => z.bytes = y.bytes + g.len) ∧
    (has → mine → c.kind = 1 ∨ c.kind = 2 → 2 ≤ st ∨ ¬ enough → Does s (.nvmeCompletion port tag st) fun t => Latched t 0x1E ∧
      is t fun z => z.status = some 3) ∧
    (has → enough → c.kind ≠ 4 → w.isShared port c.nsid = true → Acts s (.nvmeCompletion port tag 1) fun t => Latched t 0x38 ∧
      t.dev.plk.conflict = true ∧ t.dev.nvmeq = [(port, c)]) ∧
    (has → c.at_ + field s F.CHN_TOCTL_NVME * 1000000 ≤ s.now →
      (c.kind < 4 → c.txn = none → Acts s (.nvmeTimeout port tag) fun t => t.dev.out = .nvmeAbort port tag :: s.dev.out ∧ Latched t 0x1E ∧
        Tab.find? (t.w.pciPort port).tags tag = some { c with aborted := true }) ∧
      (c.kind = 1 ∨ c.kind = 2 → mine → Does s (.nvmeTimeout port tag) fun t => Latched t 0x1E ∧ is t fun z => z.status = some 3)) ∧
    (takes → awake → Acts s (.cmpJobStart e) fun t => t.dev.cmp.queue = q.queue.filter (fun a => a ≠ id) ∧
      job t fun z => z.engine = some e ∧ z.saved = false ∧ z.avoid = none ∧
        (j.saved = false ∨ crc64 (w.bytes slot 0xFF8) = w.le (slot + 0xFF8) 8 → z.blocks = j.blocks) ∧
        (j.saved = true → crc64 (w.bytes slot 0xFF8) ≠ w.le (slot + 0xFF8) 8 → z.blocks = 0 ∧ Latched t 0x20)) ∧
    (drains →
      (saves → Does s (.cmpSuspend e) fun t =>
        job t (fun z => z.engine = none ∧ z.saved = true ∧ z.blocks = if j.inflate then j.blocks else j.blocks + 1) ∧
        t.dev.cmp.queue = id :: q.queue.filter (fun a => a ≠ id) ∧ field t F.CMP_SUSPCNT_COUNT = satAdd 32 (field s F.CMP_SUSPCNT_COUNT) 1 ∧
        t.w.le (slot + 0xFF8) 8 = (crc64 (t.w.bytes slot 0xFF8)) % 2 ^ 64) ∧
      (¬ saves → Acts s (.cmpSuspend e) fun t => Latched t 0x1D ∧ t.dev.cmp.queue = q.queue ∧ job t fun z => z.engine = some e ∧ z.pinned = true)) ∧
    ((s.dev.neve.refused.find? fun a => decide (a.why = .ext id)) = some r → Acts s (.cmpExtensionRetry id) fun t =>
      t.dev.neve.reqs = s.dev.neve.reqs ++ [r] ∧ ∀ a ∈ t.dev.neve.refused, a.why ≠ .ext id) ∧
    (runs → j.inflate = true → w.cmpVerdict j = (0, out) → Acts s (.cmpJobEnd e) fun t => gone t ∧ free j.inChain t ∧
      seg t fun z => z.chain = j.outChain ∧ z.len = j.explen) ∧
    (runs → j.inflate = false → roomy →
      (frame.length ≤ j.inlen → frame.length ≤ room → Acts s (.cmpJobEnd e) fun t => gone t ∧ seg t fun z =>
        z.chain = j.outChain.take (bufsFor frame.length) ∧ z.len = frame.length ∧ z.desc = segDesc 1 (profFormat j.profile) frame.length) ∧
      (j.inlen < frame.length → Acts s (.cmpJobEnd e) fun t => gone t ∧ field t F.CMP_RAWCNT_COUNT = satAdd 32 (field s F.CMP_RAWCNT_COUNT) 1 ∧
        seg t fun z => z.chain = j.inChain ∧ z.len = j.inlen ∧ z.desc = segDesc 0 0 j.inlen)) ∧
    (runs → j.inflate = true → (w.cmpVerdict j).1 = n → n ≠ 0 → Acts s (.cmpDecodeFail e) fun t => gone t ∧
      t.dev.scrubs = s.dev.scrubs ++ [{ ref := ⟨i, k⟩, bufs := j.outChain, also := j.inChain, decode := n, src := source 7 e }]) ∧
    (s.dev.scrubs[n]? = some sc → sc.ref = ⟨i, k⟩ → live → awake →
      (sc.decode = 0 → sc.rerun = false → Acts s (.bufferScrubDone n) fun t => t.dev.scrubs = s.dev.scrubs.eraseIdx n ∧ free sc.bufs t ∧
        (∀ b ∈ sc.bufs, t.w.buf b = zeros 4096) ∧ seg t fun _ => True) ∧
      (sc.decode ≠ 0 → Does s (.bufferScrubDone n) fun t => Latched t 0x21 ∧ (∀ b ∈ sc.bufs, t.w.buf b = zeros 4096) ∧ is t fun z => z.status = some 4)) ∧
    (Tab.find? q.jobs id = some j → alone → j.ref = ⟨i, k⟩ → y.status = some st → Acts s (.cmpCancel id) fun t => gone t ∧ free (g.here ++ j.outChain) t) ∧
    (w.cmpOn e = some (id, j) → awake → Acts s (.cmpEngineFault e) fun t => Latched t 0x20 ∧ t.dev.cmp.queue = id :: q.queue ∧
      job t fun z => z.engine = none ∧ z.saved = false ∧ z.blocks = 0 ∧ z.avoid = some e)

/-- Ciphers and keys, out of Reset. An idle unit takes the next job that is its to take, with no stall standing: a SEAL gets its IV, an UNSEAL's buffers are
HELD, and a SEAL waits for ARM (R117, R121, R124, R128). A running job's key is refused under CIP.KEY, answered from the cache, or derived; an entry with an
ECC error counts as a miss (R125, R132, R133). A derivation ends with the key of R130, or, once revoked, with a refusal (R139). A job whose record has
another mode ends INTEGRITY under CIP.AUTH; a SEAL of one buffer leaves ciphertext and cipher record, an UNSEAL its plaintext, or INTEGRITY where its
tag fails (R115, R116, R123 to R125). A priority-0 job suspends one of a lower priority while the store has room (R122); a core fault scrubs its job's
buffers and its segment runs again (R123); the job of a transaction with an outcome ends (R111, R123); a sweep invalidates a revoked world's keys (R139).
Kernels: the next segment starts on its core with the registers of R148 and its budget, or ends where its kernel is SUSPENDED (R148, R151, R152, R156); a
budget spent ends it (R151, R152); a core fault takes the core out of service and runs the segment once more, or ends it (R151, R154); the segment of a
transaction with an outcome is removed and its buffers freed (R155). A kernel exchange is refused, waits for the end of a Cirque restart, is held
open by running segments, or commits at once (R159, R160, R186), and CRN.UCLOAD starts (R254). -/
def Obligations.CiphersAndKernels : Prop :=
  ∀ (s : State) (i k u id n b p st d0 addr src att chid : Nat) (y : Txn) (g : Seg) (op : SegOp) (j : CipJob) (wr : Wrr) (d : Deriv) (ke : KeyEntry) (f : KSeg) (x : Chan),
    let w := s.w
    let q := s.dev.cip
    let awake : Prop := w.cur ≠ mRESET
    let still : Prop := s.dev.neve.stalls = []
    let alone : Prop := s.dev.txns = [(i, y)] ∧ y.segs = [(k, g)] ∧ g.ops = [op] ∧ g.running = true ∧ y.load = none
    let live : Prop := alone ∧ y.status = none ∧ y.st = .accepted ∧ y.preacc = false
    let is (t : State) (P : Txn → Prop) : Prop := ∃ z, t.w.txn i = some z ∧ P z
    let ended (c : Nat) (t : State) : Prop := is t fun z => z.status = some c
    let seg (t : State) (P : Seg → Prop) : Prop := is t fun z => (z.segOf k).ops = [] ∧ (z.segOf k).running = false ∧ P (z.segOf k)
    let free (l : List Nat) (t : State) : Prop := ∀ a ∈ l, Tab.find? t.dev.neve.used a = none
    let job (t : State) (P : CipJob → Prop) : Prop := ∃ z, Tab.find? t.dev.cip.jobs id = some z ∧ P z
    let gone (t : State) : Prop := Tab.find? t.dev.cip.jobs id = none
    let scrubbed (rerun : Bool) (t : State) : Prop := gone t ∧ t.dev.scrubs = s.dev.scrubs ++ [{ ref := ⟨i, k⟩, bufs := j.chain, rerun := rerun }]
    let busyRime : Prop := u = 24 ∧ w.rimeDerives = true
    let on : Prop := w.cipOn u = some (id, j) ∧ awake
    let idle : Prop := w.cipOn u = none ∧ ¬ busyRime ∧ still
    let mine : Prop := live ∧ j.ref = ⟨i, k⟩
    let up (F : Fld) (t : State) : Prop := field t F = satAdd 32 (field s F) 1
    let ready := w.cipReady.filter fun a => w.cipFor u a.2 && !w.armWait a.2
    let held : Prop := Tab.find? q.jobs id = some j
    let chain := w.chainNow j.ref j.chain
    -- keys
    let asks : Prop := held ∧ j.core ≠ none ∧ j.key = none ∧ j.asked = false ∧ j.modeBad = false ∧ w.canDerive = true ∧ awake
    let use := if w.flag F.KDF_CTL_EN then w.epUse j.world else (({} : Epoch), w)
    let label := keyLabel j.profile j.world (use.2.jobEpoch j use.1)
    let clean := match q.look label j.mode with | some z => if z.2.ecc then use.2.modCip (fun a => a.drop z.1) else use.2 | none => use.2
    let found := clean.dev.cip.look label j.mode
    let why := clean.keyRefusal use.1 j.world (nbits j.profile 15 8) (use.2.jobEpoch j use.1) label j.mode
    let no := if why = 3 ∧ j.kept = true then 0 else why
    let alive : Prop := (w.unitOf (source 8 25)).svc = true
    let derived : Prop := w.canDerive = true ∧ (n = 0 ∨ alive) ∧ q.derivs[n]? = some d ∧ d.waiters = [id] ∧ held ∧ awake
    let dead : Prop := d.dead = true ∨ d.world ∈ q.revoked
    -- ends
    let len := w.jobLen j
    let iv := if j.op = 1 then j.iv.getD 0 else ofBE ((j.record.drop 4).take 12)
    let plain := (w.chainBytes j.chain j.len ++ zeros len).take len
    let cipher := (w.chainBytes j.chain len ++ zeros len).take len
    let sealed := w.jobRun j d0 iv false plain
    let record := leBytes 1 j.mode ++ [0] ++ leBytes 2 (j.epoch.getD 0) ++ beBytes 12 (if j.xts then 0 else j.iv.getD 0) ++
      beBytes 16 (if j.gcm then gcmTag j.klen d0 iv j.aad sealed else 0)
    let tagBad : Prop := j.gcm = true ∧ gcmTag j.klen d0 iv j.aad cipher ≠ ofBE ((j.record.drop 16).take 16)
    let runs : Prop := on ∧ mine ∧ ¬ busyRime ∧ j.modeBad = false ∧ j.key = some d0 ∧ j.chain = [b] ∧ len ≤ 4096
    let running := (List.range 25).filterMap fun a => (w.cipOn a).map fun z => (a, z.2.prio)
    let yields : Prop := on ∧ (∀ a < 25, w.cipUnitOk a = true → w.cipOn a ≠ none ∨ (a = 24 ∧ w.rimeDerives = true)) ∧
      preempted running (ready.filter fun a => decide (a.2.prio = 0)).length u = true
    let full : Prop := 128 ≤ (q.jobs.filter fun a => a.2.saved).length
    -- kernels
    let fl := s.dev.flo
    let placed : List (Nat × KSeg × Nat) := fl.segs.filterMap fun a => (w.place a.1 a.2).map fun c => (a.1, a.2, c)
    let picks : Prop := w.wrr fl.wrr (fun a => placed.any fun z => decide (z.2.1.prio = a)) = some (p, wr) ∧
      placed.find? (fun z => decide (z.2.1.prio = p)) = some (id, f, n)
    let kid := wordKid f.word
    let left (t : State) : Prop := Tab.find? t.dev.flo.segs id = none
    let calm : Prop := field s F.FLO_XCHG_BUSY = 0 ∧ f.ref = ⟨i, k⟩ ∧ awake
    let core (t : State) : Core := t.w.core (.flo n)
    let inbufs := (w.chainNow f.ref f.inChain).length
    let lost (c : Instr) : Prop := w.segOn n = some (id, f) → awake →
      (f.rerun = false → wordScope f.word ≠ 1 → Acts s c fun t => Latched t 0x26 ∧ (t.w.unitOf (coreSrc (.flo n))).out = true ∧
        (t.w.unitOf (coreSrc (.flo n))).svc = false ∧ ∃ z, Tab.find? t.dev.flo.segs id = some z ∧ z.core = none ∧ z.rerun = true) ∧
      (f.rerun = true ∨ wordScope f.word = 1 → live → calm → Does s c fun t => Latched t 0x26 ∧ left t ∧ ended 5 t)
    let word := (w.reg .FLO_XWORD).toNat
    let may : Prop := w.cur = mMAINT ∧ word ≠ 0 ∧ attBad word = false ∧ w.kstate (wordKid word) = 1 ∧
      ∃ z, w.chanAny chid = some z ∧ (z.state = 1 ∨ z.state = 2) ∧ w.kworld (wordKid word) = z.world
    let waits : Prop := Tab.has s.dev.busy (regKey .FLO_XCHG 0) = true
    let busy : Prop := ∃ a ∈ fl.segs, a.2.chid = chid ∧ a.2.att = att ∧ a.2.held = false
    (idle → w.wrr q.wrr (fun a => ready.any fun z => decide (z.2.prio = a)) = some (p, wr) →
      ready.find? (fun z => decide (z.2.prio = p)) = some (id, j) → Acts s (.cipJobStart u) fun t =>
        job t (fun z => z.core = some u ∧ z.saved = false ∧ z.modeBad = (decide (j.op ≠ 1) && decide (leAt j.record 0 1 ≠ j.mode)) ∧
          (j.op = 1 → j.xts = false → z.iv.isSome = true)) ∧
        t.dev.cip.queue = q.queue.filter (fun a => a ≠ id) ∧
        t.dev.cip.held = (if j.op = 2 then q.held.filter (fun b => !chain.contains b) ++ chain else q.held)) ∧
    (idle → (∃ a ∈ w.cipReady, w.cipFor u a.2 = true ∧ w.armWait a.2 = true) → Acts s (.cipJobStart u) fun t => field t F.CIP_IVCTL_WAITING = 1) ∧
    (asks → no ≠ 0 → mine → Does s (.keyRequest id) fun t => Latched t 0x24 ∧ scrubbed false t ∧ ended 1 t) ∧
    (asks → no = 0 → found = some (n, ke) → ke.valid = true → Does s (.keyRequest id) fun t => up F.KDF_HITCNT_COUNT t ∧
      job t fun z => z.key = some ke.key) ∧
    (asks → no = 0 → found = none → (∀ z ∈ q.derivs, z.label ≠ label) → q.derivs.length < 8 ∨ ¬ alive → Does s (.keyRequest id) fun t =>
      t.dev.cip.derivs = q.derivs ++ [⟨label, j.mode, j.world, false, [id]⟩] ∧ up F.KDF_MISSCNT_COUNT t ∧ job t fun z => z.asked = true) ∧
    (derived → ¬ dead → Acts s (.keyDerivationDone n) fun t => t.dev.cip.derivs = q.derivs.eraseIdx n ∧
      job t fun z => z.key = some (deriveKey (s.dev.mode.rootKey.getD 0) d.label d.mode) ∧ z.asked = false) ∧
    (derived → dead → mine → Does s (.keyDerivationDone n) fun t => Latched t 0x24 ∧ scrubbed false t ∧ ended 1 t) ∧
    (on → mine → ¬ busyRime → j.modeBad = true → Does s (.cipJobEnd u) fun t => up F.CIP_AUTHFAIL_COUNT t ∧ (j.op ≠ 3 → Latched t 0x23) ∧
      scrubbed false t ∧ ended 4 t) ∧
    (runs → j.op = 1 → Acts s (.cipJobEnd u) fun t => gone t ∧ t.w.buf b = (sealed ++ zeros 4096).take 4096 ∧ seg t fun z => z.record = record) ∧
    (runs → j.op = 2 → tagBad → Does s (.cipJobEnd u) fun t => up F.CIP_AUTHFAIL_COUNT t ∧ Latched t 0x23 ∧ scrubbed false t ∧ ended 4 t) ∧
    (runs → j.op = 2 → ¬ tagBad → Acts s (.cipJobEnd u) fun t => gone t ∧ b ∉ t.dev.cip.held ∧ seg t (fun _ => True) ∧
      t.w.buf b = (w.jobRun j d0 iv true cipher ++ zeros 4096).take 4096) ∧
    (yields → (full → Acts s (.cipSuspend u) fun t => up F.CIP_SUSPFULL_COUNT t ∧ t.dev.cip.jobs = q.jobs) ∧
      (¬ full → Acts s (.cipSuspend u) fun t => up F.CIP_SUSPCNT_COUNT t ∧ t.dev.cip.queue = id :: q.queue ∧
        job t fun z => z.core = none ∧ z.saved = true ∧ z.key = none)) ∧
    (u < 25 → on → mine → Acts s (.cipCoreFault u) fun t => Latched t 0x22 ∧ scrubbed true t ∧ is t fun z => (z.segOf k).chain = []) ∧
    (held → alone → j.ref = ⟨i, k⟩ → y.status = some st →
      (j.op = 1 ∨ w.atHand j.ref = false → Acts s (.cipCancel id) fun t => gone t ∧ free g.here t) ∧
      (j.op ≠ 1 → w.atHand j.ref = true → Acts s (.cipCancel id) fun t => gone t ∧
        t.dev.scrubs = s.dev.scrubs ++ [{ ref := ⟨i, k⟩, bufs := chain, rerun := false }])) ∧
    (∀ (o : Nat) (rest : List Nat), q.sweep = o :: rest → Acts s .revokeSweepDone fun t => t.dev.cip.sweep = rest ∧
      ∀ a e, Tab.find? t.dev.cip.cache a = some e → labelWorld e.label = o → e.valid = false) ∧
    (picks → still → w.kstate kid ≠ 2 → Acts s .segmentLoad fun t => (core t).active = true ∧ (core t).cworld = f.world ∧
      (core t).pc = BitVec.ofNat 64 (w.le (w.kte kid) 8 + w.le (w.kte kid + 0xC) 4) ∧ (core t).gr 4 = ⟨tINT, BitVec.ofNat 64 f.param⟩ ∧
      (core t).gr 7 = ⟨tINT, BitVec.ofNat 64 (nbits f.word 51 40 * 64 * inbufs + 4096)⟩ ∧
      ∃ z, Tab.find? t.dev.flo.segs id = some z ∧ z.core = some n) ∧
    (picks → w.kstate kid = 2 → live → calm → Does s .segmentLoad fun t => Latched t 0x27 ∧ left t ∧ ended 5 t) ∧
    (w.segOn n = some (id, f) → live → calm → Does s (.kernelBudget n) fun t => Latched t 0x27 ∧ up F.FLO_KFAULTCNT_COUNT t ∧ left t ∧ ended 5 t ∧
      (core t).active = false) ∧
    lost (.loaderWatchdog n) ∧ ((w.unitOf (coreSrc (.flo n))).svc = true → n < w.xm 288 144 → lost (.floeCoreFault n)) ∧
    (Tab.find? fl.segs id = some f → alone → calm → y.status = some st → Does s (.segmentCancel id) fun t => left t ∧
      free (g.here ++ f.outChain) t) ∧
    (Reaches s src .FLO_XCHG 0 → att < 4 → chid < 2 ^ 20 →
      (¬ may → Acts s (.kernelExchange src att chid) fun t => field t F.FLO_XCHG_ERR = 1 ∧ field t F.FLO_XCHG_BUSY = 0) ∧
      (may → field s F.KPR_RSTCTL_RUN = 1 ∨ busy → Acts s (.kernelExchange src att chid) fun t => field t F.FLO_XCHG_BUSY = 1 ∧
        field t F.FLO_XCHG_ATT = att ∧ field t F.FLO_XCHG_CHID = chid ∧ t.dev.chans = s.dev.chans) ∧
      (may → field s F.KPR_RSTCTL_RUN = 0 → ¬ waits → fl.segs = [] → w.chan chid = some x → Acts s (.kernelExchange src att chid) fun t =>
        field t F.FLO_XCHG_DONE = 1 ∧ field t F.FLO_XCHG_BUSY = 0 ∧ ∃ z, t.w.chan chid = some z ∧ z.kernel = x.kernel.set att word)) ∧
    (Reaches s src .CRN_UCLOAD 0 → addr < 2 ^ 46 → Acts s (.ucodeLoad src addr) fun t => field t F.CRN_UCLOAD_BUSY = 1 ∧
      field t F.CRN_UCLOAD_ADDR = addr / 16 ∧ Tab.find? t.dev.busy (regKey .CRN_UCLOAD 0) = some 1)

/-- Requests on a service queue pair: a malformed one is answered 8 and recorded; QUERY answers the world's counters; KLOAD checks the image and its
place and loads it; KRETIRE retires the world's own kernel; LOAD writes and starts a descriptor for the world's own open channel; administrative
requests serve world 0x0000 alone; a reply leaves HOLD µs after its request. A load is refused by its descriptor, its channel, its cipher profile or
its destination, or starts with its pages; it ends with its interrupt, after zeroing where its pages were frozen. An uncorrectable memory error
poisons what it spoils, counts, and quarantines the page or marks the load that froze it; the scrubber counts what it finds (R114, R125, R126, R142,
R168 to R171, R178, R186, R281, R282, R408). -/
def Obligations.TenantServices : Prop :=
  ∀ (s : State) (q kid base lim desc prio tag n i a st pa u p : Nat) (bytes image answer : List Byte) (x : Qp) (c : Chan) (z : Svc) (d : LoadDesc)
    (pages : List Nat) (y : Txn) (e : OwnEntry),
    let w := s.w
    let v := w.freeRetired
    let be (o k : Nat) : Nat := ofBE ((bytes.drop o).take k)
    let awake : Prop := w.cur ≠ mRESET
    let open_ : Prop := w.qp q = some x ∧ x.chid = none ∧ x.up = true ∧ w.gateFabric (w.qpSeg q) = true ∧ s.dev.svc = [] ∧ field s F.KPR_RSTCTL_RUN = 0
    let headBad : Prop := be 0 1 ≠ 1 ∨ be 2 2 ≠ bytes.length ∨ be 8 8 ≠ 0 ∨ bytes.length < 16 ∨ 4096 < bytes.length
    let asked (op : Nat) : Prop := open_ ∧ leAt bytes 1 1 = op
    let malformed (len : Nat) : Prop := headBad ∨ bytes.length ≠ len
    let sent (op len : Nat) : Prop := open_ ∧ leAt bytes 1 1 = op ∧ ¬ malformed len
    let answered (code : Nat) (body : List Byte) (t : State) : Prop := ∃ r, t.dev.svc = [r] ∧ r.qp = q ∧ r.at_ = s.now ∧ r.work = none ∧
      leAt r.bytes 8 1 = code ∧ r.bytes.drop 16 = body
    let refused (code : Nat) (t : State) : Prop := answered code [] t ∧ Latched t 0x2B
    let imageFits : Prop := x.world ≠ 0 ∧ be 28 4 = image.length ∧ imageOk image = true
    let placeFits : Prop := kid ≠ 0 ∧ kid < 4096 ∧ v.kstate kid = 0 ∧ base % 8 = 0 ∧ v.cirqueOwned base (leAt image 8 4) = true ∧
      v.cirqueOwned (v.kte kid) 128 = true
    let old := be 16 2
    let own : Prop := x.world ≠ 0 ∧ old ≠ 0 ∧ old < 4096 ∧ 1 ≤ v.kstate old ∧ v.kstate old ≤ 3 ∧ v.kworld old = x.world
    let asksLoad : Prop := sent 4 48 ∧ x.world ≠ 0 ∧ be 16 4 < 2 ^ 20
    let chanFits : Prop := v.chanAny (be 16 4) = some c ∧ c.world = x.world ∧ c.state = 1 ∧ c.rdok = true
    let placeOk : Prop := v.loads < 256 ∧ field s F.WLD_LOADCMD_BUSY = 0 ∧ desc % 64 = 0 ∧ v.cirqueOwned desc 64 = true
    let at_ := desc / 64 * 64
    let waits : Prop := s.dev.svc[n]? = some z ∧ z.work = none ∧ z.load = none ∧ field s F.KPR_RSTCTL_RUN = 0
    let due := z.at_ + field s F.WLD_SVCCTL_HOLD * 1000
    let idle : Prop := awake ∧ field s F.WLD_LOADCMD_BUSY = 0 ∧ w.loadDesc at_ = some d ∧ w.loads < 256
    let fits : Prop := idle ∧ w.chan d.chid = some c ∧ c.world = d.world ∧ d.offset % c.segSize = 0
    let key := loadKeyBad c.cipprof
    let begun (P : Txn → Prop) (t : State) : Prop := ∃ r, t.w.txn s.dev.nextTxn = some r ∧ r.load = some at_ ∧ r.chid = d.chid ∧ P r
    let loads : Prop := w.txn i = some y ∧ y.load = some a
    let frozen := y.dest.2.2.2
    let ended (t : State) : Prop := t.w.txn i = none ∧ .load y.dest.2.2.1 ∈ t.dev.irqs
    let hit : Prop := awake ∧ w.memUnit pa = some u
    let poisoned (l : Nat) (t : State) : Prop := ∀ k, k / 8 = l → t.w.tagOf k = tPOISON
    let page (l : Nat) : Nat := l / 64 * 4096
    let counted (r : RegName) (k : Nat) (t : State) : Prop := t.w.reg r k = BitVec.ofNat 64 (satAdd 32 (w.reg r k).toNat 1)
    (asked 1 → malformed 16 → Does s (.svcQuery q bytes) (refused 8)) ∧
    (sent 1 16 → Does s (.svcQuery q bytes) (answered 0 (v.queryBody x.world))) ∧
    (asked 2 → malformed 32 ∨ ¬ imageFits → Does s (.svcKload q bytes image kid base lim) (refused 8)) ∧
    (sent 2 32 → imageFits → ¬ placeFits → Does s (.svcKload q bytes image kid base lim) (refused 0x10)) ∧
    (sent 2 32 → imageFits → placeFits → Does s (.svcKload q bytes image kid base lim) fun t => answered 0 (beBytes 2 kid) t ∧
      t.w.kstate kid = 1 ∧ t.w.kworld kid = x.world % 2 ^ 16 ∧ t.w.le (t.w.kte kid) 8 = base % 2 ^ 64) ∧
    (asked 3 → malformed 18 ∨ x.world = 0 → Does s (.svcKretire q bytes) (refused 8)) ∧
    (sent 3 18 → x.world ≠ 0 → ¬ own → Does s (.svcKretire q bytes) (refused 1)) ∧
    (sent 3 18 → own → v.le (v.kte old + 0x18) 4 ≠ 0 → v.rangeOk (cirqueWho (source 21 0)) .wr (v.kte old + 0x12) 1 = true →
      Does s (.svcKretire q bytes) fun t => answered 0 [] t ∧ t.w.kstate old = 3) ∧
    (asked 4 → malformed 48 ∨ x.world = 0 ∨ 2 ^ 20 ≤ be 16 4 → Does s (.svcLoad q bytes desc prio tag) (refused 8)) ∧
    (asksLoad → (∀ k, v.chanAny (be 16 4) = some k → k.world ≠ x.world ∨ k.state ≠ 1 ∨ k.rdok = false) →
      Does s (.svcLoad q bytes desc prio tag) (refused 1)) ∧
    (asksLoad → chanFits → ¬ placeOk → Does s (.svcLoad q bytes desc prio tag) (refused 0x10)) ∧
    (asksLoad → chanFits → placeOk → field s F.WLD_LOADCMD_ERR = 0 → Does s (.svcLoad q bytes desc prio tag) fun t =>
      (field t F.WLD_LOADCMD_ERR = 1 → refused 8 t) ∧
      (field t F.WLD_LOADCMD_ERR = 0 → ∃ r, t.dev.svc = [r] ∧ r.load = some desc ∧ leAt r.bytes 8 1 = 0)) ∧
    (open_ → leAt bytes 1 1 = 0 ∨ 5 ≤ leAt bytes 1 1 → headBad ∨ leAt bytes 1 1 < 0x40 ∨ 0x80 ≤ leAt bytes 1 1 →
      Does s (.svcAdmin q bytes answer) (refused 8)) ∧
    (asked n → ¬ headBad → 0x40 ≤ n → n < 0x80 → (x.world = 0 → Does s (.svcAdmin q bytes answer) (answered 0 answer)) ∧
      (x.world ≠ 0 → Does s (.svcAdmin q bytes answer) (refused 1))) ∧
    (waits → s.now < due → Acts s (.serviceReplyRelease n) fun t => t.dev = s.dev) ∧
    (waits → due ≤ s.now → w.qp z.qp = some x → x.state = 3 → w.shut = false → (w.ethPort (z.qp / 2 ^ 24)).up = true →
      (w.ethPort (z.qp / 2 ^ 24)).paused = [] → Acts s (.serviceReplyRelease n) fun t => t.dev.svc = s.dev.svc.eraseIdx n ∧
        t.dev.out = .svcReply z.qp z.bytes :: s.dev.out) ∧
    (awake → field s F.WLD_LOADCMD_BUSY = 0 → w.loadDesc at_ = none ∨ 256 ≤ w.loads → Acts s (.loadStart desc) fun t =>
      field t F.WLD_LOADCMD_ERR = 1 ∧ t.dev.txns = s.dev.txns) ∧
    (idle → w.chan d.chid = some c → c.world ≠ d.world ∨ d.offset % c.segSize ≠ 0 → Acts s (.loadStart desc) fun t =>
      field t F.WLD_LOADCMD_ERR = 1 ∧ t.dev.txns = s.dev.txns) ∧
    (fits → w.loadBad c d = true → Acts s (.loadStart desc) (begun fun r => r.status = some 1)) ∧
    (fits → w.loadBad c d = false → key ≠ 0 → Does s (.loadStart desc) fun t => begun (fun r => r.status = some 1) t ∧ Latched t 0x24) ∧
    (fits → w.loadBad c d = false → key = 0 → (∀ l, w.destPages d ≠ .ok l) → Does s (.loadStart desc) (begun fun r => r.status = some 1)) ∧
    (fits → w.loadBad c d = false → key = 0 → w.destPages d = .ok pages → Does s (.loadStart desc) (begun fun r =>
      r.dest = (d.destva, pages, d.tag, decide (2 ^ 20 < d.length)))) ∧
    (loads → y.status = none → (∃ g ∈ y.segs, g.2.ops ≠ []) → Acts s (.loadEnd i) fun t => t.dev = s.dev) ∧
    (loads → y.status = none → (∀ g ∈ y.segs, g.2.ops = []) → s.dev.svc = [z] → z.load = some a → Does s (.loadEnd i) fun t =>
      ended t ∧ t.dev.svc = [z.loaded a 0 y.bytes]) ∧
    (awake → loads → y.status = some st → st ≠ 0 → frozen = false → y.anyBusy = false → Does s (.loadEnd i) fun t => ended t ∧ (st = 1 → Latched t 0x2B)) ∧
    (loads → y.status = some st → st ≠ 0 → frozen = true ∨ y.anyBusy = true → Acts s (.loadEnd i) fun t => t.dev = s.dev) ∧
    (awake → loads → y.status = some st → st ≠ 0 → y.anyBusy = false → frozen = true → Does s (.loadZeroDone i) fun t => Latched t 0x23 ∧
      ∃ r, t.w.txn i = some r ∧ r.dest = (y.dest.1, y.dest.2.1, y.dest.2.2.1, false)) ∧
    (hit → Does s (.memoryUe pa) fun t => Latched t (memRegs u).2.2.2 ∧ counted (memRegs u).2.1 (memRegs u).2.2.1 t ∧
      ∀ l ∈ w.spoiled pa, (w.ownEntry (page l) = none → poisoned l t) ∧
        (w.ownEntry (page l) = some e → e.st ≠ 3 →
          t.w.ownEntry (page l) = if e.owner = 0xFFFF then none else some { e with st := 4 }) ∧
        (w.ownEntry (page l) = some e → e.st = 3 → poisoned l t ∧ t.w.ownEntry (page l) = some e ∧
          ∀ j b, w.txn j = some b → b.load.isSome = true → page l ∈ b.dest.2.1 → ∃ r, t.w.txn j = some r ∧ page l ∈ r.ue)) ∧
    (awake → w.memUnit pa = none → w.pkind pa = .cxl p → Does s (.memoryUe pa) fun t => Latched t 0x35 ∧ poisoned (pa / 64) t) ∧
    (hit → exec (.patrolScrub pa 2) s = exec (.memoryUe pa) s ∧ (Acts s (.patrolScrub pa 0) fun t => t.dev = s.dev) ∧
      Acts s (.patrolScrub pa 1) fun t => Latched t (memRegs u).2.2.2 ∧ counted (memRegs u).1 (memRegs u).2.2.1 t)

/-- Events at Cornice cores. The lowest pending enabled line is entered with its frame; NDEAD fires once; a retry records CORE.RETRY, restores the
checkpoint and counts, an error in a dirty line poisons it instead, and a third trigger ends the core; a mismatch freezes a pair for its self-test, a
repeat stops it and one more is fatal; the self-test resumes what passed from the checkpoint; a spare joins at a checkpoint after 10 µs with the
resumed core's TCM; a nap deepens to a doze, and a pending line ends both (R236 to R240, R252, R258 to R260, R262, R341 to R344, R350, R427). -/
def Obligations.CoreEvents : Prop :=
  ∀ (s : State) (p n k e sub q t0 : Nat) (leadOk trailOk spareOk : Bool),
    let w := s.w
    let c := CoreId.crn p
    let x := w.core c
    let same (t : State) : Prop := t.dev = s.dev
    let awake : Prop := w.cur ≠ mRESET
    let out (u : Nat) (t : State) : Prop := (t.w.unitOf (coreSrc (.crn u))).out = true ∧ (t.w.unitOf (coreSrc (.crn u))).svc = false
    -- interrupts
    let lines := w.ipend p &&& bits x.iena 15 0
    let open_ : Prop := x.runs = true ∧ x.psw.getLsbD 0 = true
    let w1 : W := ({ w with dev := { w.dev with irqs := takeIrq n w.dev.irqs } } : W).checkpoint c
    let switch (y : Core) : Core := if x.cworld = 0 then y else { y with cstk := y.gr 30 }.setG 30 y.cstk
    let w2 := if x.cworld = 0 then w1 else w1.modCore c switch
    let cause := 0x10 + n + (if x.cworld = 0 then 0 else 256)
    let frame : List TWord := [⟨tINT, x.pc⟩, ⟨tINT, x.psw⟩, ⟨tINT, BitVec.ofNat 64 cause⟩, ⟨tINT, 0⟩] ++ (List.range 7).map (fun r => x.gr (r + 1)) ++
      [⟨tINT, BitVec.ofNat 64 (x.cworld * 2 ^ 48)⟩]
    -- retries
    let again (y : Core) : Core := { y with
      pc := y.ckpt.pc, g := y.ckpt.g, psw := y.ckpt.psw, fpsw := y.ckpt.fpsw, cworld := y.ckpt.cworld, cstk := y.ckpt.cstk, waiting := false }
    let retried (t : State) : Prop := Latched t 0x10 ∧
      (x.triggers < 2 → field t F.CRN_RETRYCNT_COUNT p = satAdd 32 (field s F.CRN_RETRYCNT_COUNT p) 1 ∧ arch (t.w.core c) = arch (again x) ∧ (t.w.core c).out = [] ∧ (t.w.core c).triggers = x.triggers + 1 ∧
        (x.undo = [] → t.mem = s.mem)) ∧ (2 ≤ x.triggers → field t F.CRN_RETRYCNT_COUNT p = field s F.CRN_RETRYCNT_COUNT p ∧ out p t)
    let inDirty : Prop := k = 2 ∧ w.dl1Dirty c e = true
    -- pairs
    let a := field s F.CRN_PAIRSTAT_LEAD k
    let b := field s F.CRN_PAIRSTAT_TRAIL k
    let y := w.core (.crn a)
    let state (i : Nat) (t : State) : Prop := field t F.CRN_PAIRSTAT_STATE k = i
    let both : Prop := s.dev.mode.strapPair = true ∧ k < w.crnLogs / 2 ∧ field s F.CRN_PAIRSTAT_STATE k = 0 ∧ y.frozen = false ∧ awake
    let repeats : Prop := k ∈ s.dev.mode.pairRetry ∨ 2 ≤ y.triggers
    let tested : Prop := k ∈ s.dev.mode.pairTests ∧ field s F.CRN_PAIRSTAT_STATE k = 2 ∧ a ≠ b ∧ awake
    let isOver (t : State) : Prop := k ∉ t.dev.mode.pairTests
    let resumes (u : Nat) (t : State) : Prop := (t.w.core (.crn u)).frozen = false ∧ arch (t.w.core (.crn u)) = arch (again y) ∧ Latched t 0x10
    let alone : Prop := Tab.find? s.dev.mode.soloAt k = some t0 ∧ field s F.CRN_PAIRSTAT_STATE k = 1 ∧ t0 + 10000 ≤ s.now ∧ y.since = 0 ∧ awake
    -- low power
    let naps : Prop := x.waiting = true ∧ x.doze = false ∧ field s F.PWR_LPCTL_DOZE ≠ 0 ∧ x.corectl.getLsbD 5 = false
    let due := x.napAt + field s F.PWR_LPCTL_DOZE * 1000
    (¬ open_ ∨ (∀ l < 11, nbit lines l = false) → Acts s (.interruptEntry p) same) ∧
    (open_ → n < 11 → nbit lines n = true → (∀ l < n, nbit lines l = false) →
      ∀ (w3 w4 : W) (spots : List (Nat × Spot)) (h : Word), w2.frameCheck c ((w2.core c).gr 30) = (w3, 0, spots) → w3.vector c (0x10 + n) = (w4, some h) →
        ∃ t, exec (.interruptEntry p) s = .next t ∧
          AfterStore s t c (arch (let z := switch x
            { z.setG 30 ⟨tINT, (z.gr 30).val - 96⟩ with cworld := 0, psw := setBits z.psw 0 0 0, pc := h })) ∧
          (Quiet s.w → OnlyStored s t w4 c (spots.map fun z => ⟨z.2, 0, 8, true⟩) ∧ ∀ z ∈ spots, WordStored t w4 c ⟨z.2, 0, 8, true⟩ (frame.getD z.1 {}))) ∧
    (x.ndead = 0 ∨ s.now < x.ndead.toNat → Acts s (.ndeadFire p) same) ∧
    (x.ndead ≠ 0 → x.ndead.toNat ≤ s.now → Acts s (.ndeadFire p) fun t => t.w.core c = { x with ndead := 0, ipend := x.ipend ||| 64 }) ∧
    (awake → x.runs = true → Does s (.ucodeWaitTimeout p) fun t => Latched t 0x13 ∧ retried t) ∧
    (awake → x.runs = true → ¬ inDirty → Does s (.instructionRetry p k e) retried) ∧
    (awake → x.runs = true → inDirty → Does s (.instructionRetry p k e) fun t => Latched t 0x2C ∧ out p t) ∧
    (x.runs = false → Acts s (.ucodeWaitTimeout p) same ∧ Acts s (.instructionRetry p k e) same) ∧
    (both → (¬ repeats → field s F.MOR_CLS_PEND 0x14 = 0 → Acts s (.pairMismatch k sub) fun t => Latched t 0x14 ∧ state 2 t ∧
        t.w.core (.crn a) = { y with frozen := true } ∧ t.dev.mode.pairTests = s.dev.mode.pairTests ++ [k] ∧ (Running s → t.w.cur = mRECOVERY)) ∧
      ((repeats ↔ field s F.MOR_CLS_PEND 0x14 = 0) → Does s (.pairMismatch k sub) fun t => Latched t 0x14 ∧ out a t ∧ out b t) ∧
      (repeats → field s F.MOR_CLS_PEND 0x14 = 1 → Acts s (.pairMismatch k sub) Fatal)) ∧
    (tested → leadOk = true → trailOk = true → Does s (.pairSelftestDone k leadOk trailOk spareOk) fun t => isOver t ∧ state 0 t ∧ resumes a t ∧
      k ∈ t.dev.mode.pairRetry ∧ (spareOk = false → w.crnSpare = some q → out q t)) ∧
    (tested → leadOk = true → trailOk = false → Does s (.pairSelftestDone k leadOk trailOk spareOk) fun t => isOver t ∧ state 1 t ∧ resumes a t ∧
      out b t ∧ field t F.CRN_PAIRSTAT_LEAD k = a) ∧
    (tested → leadOk = false → trailOk = true → Does s (.pairSelftestDone k leadOk trailOk spareOk) fun t => isOver t ∧ state 1 t ∧ resumes b t ∧
      out a t ∧ field t F.CRN_PAIRSTAT_LEAD k = b) ∧
    (tested → leadOk = false → trailOk = false → Does s (.pairSelftestDone k leadOk trailOk spareOk) fun t => isOver t ∧ out a t ∧ out b t) ∧
    (k ∉ s.dev.mode.pairTests → Acts s (.pairSelftestDone k leadOk trailOk spareOk) same) ∧
    (Tab.find? s.dev.mode.soloAt k = some t0 → s.now < t0 + 10000 ∨ y.since ≠ 0 → Acts s (.spareJoin k) same) ∧
    (alone → w.crnSpare = none → Acts s (.spareJoin k) fun t => Latched t 0x15 ∧ Tab.find? t.dev.mode.soloAt k = none) ∧
    (alone → w.crnSpare = some q → q ≠ a → CoreQuiet y → Does s (.spareJoin k) fun t => Latched t 0x15 ∧ state 0 t ∧
      field t F.CRN_PAIRSTAT_LEAD k = a ∧ field t F.CRN_PAIRSTAT_TRAIL k = q ∧ field t F.CRN_MAP_VALID (2 * k + 1) = 1 ∧
      field t F.CRN_MAP_PHYS (2 * k + 1) = q ∧ (t.w.unitOf (coreSrc (.crn q))).svc = true ∧
      (∀ i < 0x20000, t.mem.byte (tcmAddr q i) = s.mem.byte (tcmAddr a i)) ∧
      ∀ i < 0x4000, t.w.tagOf (tcmAddr q 0 / 8 + i) = w.tagOf (tcmAddr a 0 / 8 + i)) ∧
    (¬ naps ∨ s.now < due → Acts s (.dozeEntry p) same) ∧
    (naps → due ≤ s.now → Acts s (.dozeEntry p) fun t => t.w.core c = { x with doze := true }) ∧
    (x.waiting = false ∨ w.ipend p = 0 → Acts s (.lpWake p) same) ∧
    (x.waiting = true → w.ipend p ≠ 0 → Acts s (.lpWake p) fun t => t.w.core c = { x with waiting := false, doze := false })

/-- Requests at the home and snoops: a read miss ends in E alone or in S beside the others, a write in M with every other copy and its reservations gone,
an evicted line leaves its L2 and the directory, a non-caching read moves no L2 and fills the slice only for a NORMAL line that none holds, a
non-caching write leaves no copy and its bytes, an atomic combines at the slice, a snoop moves the states of R289 or waits once for a reserved line,
and victims end with their acknowledgement (R173, R263, R287 to R292, R295, R298, R299). -/
def Obligations.Coherence : Prop :=
  ∀ (s : State) (l2 line world k op pa b d btag dtag src slice : Nat) (streaming : Bool) (data : List Byte) (c : CoreId) (e : DirEntry) (z : TWord),
    let w := s.w
    let keeps (t : State) : Prop := Quiet w → t.mem = s.mem
    let same (t : State) : Prop := t.dev = s.dev
    let st := w.l2St l2 line
    let may : Prop := w.l2Id l2 = true ∧ w.l2En l2 = true ∧ ∃ j < 16, w.l2WayOk l2 world j = true
    let named : Prop := w.dirOf line = some e
    let only (t : State) : Prop := t.w.l2St l2 line = some .M ∧ t.w.dirOf line = some ⟨some l2, false, [], true⟩ ∧
      ∀ h, named → h ∈ e.holders → h ≠ l2 → OneWay w h line → t.w.l2St h line = none ∧ ∀ x ∈ l2Cores h, (t.w.core x).resv ≠ some ⟨false, line⟩
    let left (t : State) : Prop := t.w.l2St l2 line = none ∧ ∀ x, t.w.dirOf line = some x → l2 ∉ x.holders
    let noCopy (l : Nat) (t : State) : Prop := t.w.dirOf l = none ∧ (∀ x, (t.w.core x).resv ≠ some ⟨false, l⟩) ∧
      ∀ x h, w.dirOf l = some x → h ∈ x.holders → OneWay w h l → t.w.l2St h l = none
    let inSlice : Prop := s.dev.coh.slices ≠ 0 ∧ w.flag F.SNP_SLICECTL_EN (w.homeSlice line) = true
    let who : Who := { world := world, src := src, dma := true }
    let whole := (data ++ zeros 64).take 64
    let part := data.take (64 - pa % 64)
    let stored (l a : Nat) (bs : List Byte) (t : State) : Prop := (∀ i < bs.length, t.mem.byte (a + i) = bs.getD i 0 ∧ t.w.tagOf ((a + i) / 8) = tRAW) ∧
      (Quiet w → ∀ x, x < a ∨ a + bs.length ≤ x → t.mem.byte x = s.mem.byte x) ∧ noCopy l t
    let x := w.core c
    let core := w.coreWho c x.cworld
    let result := atomicOp op (decide (x.cworld ≠ 0)) ((w.wrHome (lineOf pa)).rdWord (pa / 8)) ⟨BitVec.ofNat 4 btag, BitVec.ofNat 64 b⟩
      ⟨BitVec.ofNat 4 dtag, BitVec.ofNat 64 d⟩
    let atomic : Prop := pa % 8 = 0 ∧ 2 ≤ op ∧ op ≤ 11
    let target : Prop := w.physOk core .wr pa = true ∧ w.mtype pa ≠ 2
    let gone (h : Nat) (t : State) : Prop := t.w.l2St h line = none ∧ (∀ y, t.w.dirOf line = some y → h ∉ y.holders) ∧
      ∀ y ∈ l2Cores h, (t.w.core y).resv ≠ some ⟨false, line⟩
    let snooped (i : Instr) : Prop := (w.holdsOff l2 line = none → OneWay w l2 line → Acts s i (gone l2)) ∧
      ∀ y, w.holdsOff l2 line = some y → Acts s i fun t => t.w.l2St l2 line = st ∧ (t.w.core y).lrUsed = true ∧
        t.dev.coh.deferred = s.dev.coh.deferred ++ [(line, coreKey y)]
    (may → st = none → w.dirOf line = none → Does s (.rds l2 line world streaming) fun t => keeps t ∧ t.w.l2St l2 line = some .E ∧
      t.w.dirOf line = some ⟨some l2, false, [], true⟩) ∧
    (may → st = none → named → Does s (.rds l2 line world streaming) fun t => keeps t ∧ t.w.l2St l2 line = some .S ∧
      ∃ y, t.w.dirOf line = some y ∧ l2 ∈ y.holders ∧ ∀ o, e.owner = some o → o ≠ l2 →
        (w.l2St o line = some .M → t.w.l2St o line = some .O ∧ y.owner = some o ∧ y.owned = true) ∧
        (w.l2St o line = some .E → t.w.l2St o line = some .S ∧ y.owner = none)) ∧
    (may → st = none → Does s (.rdx l2 line world) fun t => keeps t ∧ only t) ∧
    (may → st ≠ some .M → st ≠ some .E → Does s (.upg l2 line world) fun t => keeps t ∧ only t) ∧
    (st = some .M ∨ st = some .O → OneWay w l2 line → Does s (.wbd l2 line) fun t => keeps t ∧ left t ∧
      (named → l2 ∈ e.holders → inSlice → w.snpWay line = some k →
        (Tab.find? t.dev.coh.snp (w.snpKey (w.homeSlice line) line k)).map CLine.st = some .M)) ∧
    (st ≠ some .M → st ≠ some .O → Acts s (.wbd l2 line) same) ∧
    (st = some .S ∨ st = some .E → OneWay w l2 line → Does s (.evc l2 line) fun t => keeps t ∧ left t) ∧
    (st ≠ some .S → st ≠ some .E → Acts s (.evc l2 line) same) ∧
    (named ∨ w.mtype (line * 64) ≠ 0 → Acts s (.rdnc line) fun t => t.dev.coh.l2 = s.dev.coh.l2 ∧ t.dev.coh.dir = s.dev.coh.dir ∧
      t.dev.coh.snp.map Prod.fst = s.dev.coh.snp.map Prod.fst ∧ (w.snpWay line = none → same t)) ∧
    (w.dirOf line = none → w.mtype (line * 64) = 0 → Does s (.rdnc line) fun t => keeps t ∧ t.dev.coh.l2 = s.dev.coh.l2 ∧ t.dev.coh.dir = s.dev.coh.dir ∧
      (inSlice → (∃ j < 16, w.snpWayOk (w.homeSlice line) j = true) → ∃ j, t.w.snpWay line = some j)) ∧
    (w.rangeOk who .wr (line * 64) 64 = true → Does s (.wrl src world line data) (stored line (line * 64) whole)) ∧
    (w.rangeOk who .wr (line * 64) 64 = false → Acts s (.wrl src world line data) fun t => t.dev.coh = s.dev.coh) ∧
    (data ≠ [] → w.rangeOk who .wr pa part.length = true → Does s (.wrp src world pa data) (stored (lineOf pa) pa part)) ∧
    (w.rangeOk who .wr pa part.length = false → Acts s (.wrp src world pa data) fun t => t.dev.coh = s.dev.coh) ∧
    (atomic → target → result = .ok (some z) → Does s (.atm c op pa btag b dtag d) fun t => t.w.word (pa / 8) = z ∧ noCopy (lineOf pa) t) ∧
    (atomic → target → result = .ok none ∨ (∃ n, result = .error n) → Does s (.atm c op pa btag b dtag d) keeps) ∧
    (atomic → ¬ target → Acts s (.atm c op pa btag b dtag d) fun t => t.dev.coh = s.dev.coh) ∧
    (¬ atomic → Acts s (.atm c op pa btag b dtag d) same) ∧
    (named → e.owner = some l2 →
      (st = some .M → Acts s (.snps l2 line) fun t => t.w.l2St l2 line = some .O ∧ ∃ y, t.w.dirOf line = some y ∧ y.owner = some l2 ∧ y.owned = true) ∧
      (st = some .E → Acts s (.snps l2 line) fun t => t.w.l2St l2 line = some .S ∧ ∃ y, t.w.dirOf line = some y ∧ y.owner = none ∧ l2 ∈ y.sharers)) ∧
    (st = some .S ∨ st = some .O → Acts s (.snps l2 line) fun t => t.w.l2St l2 line = st) ∧
    snooped (.snpi l2 line) ∧ snooped (.snpinv l2 line) ∧ Acts s (.snprd l2 line) same ∧
    (Acts s (.victimWriteAck slice line) fun t => t.dev.coh.victims = s.dev.coh.victims.erase (slice, line)) ∧
    ((line, coreKey c) ∉ s.dev.coh.deferred → Acts s (.lrholdExpiry c line) same) ∧
    ((line, coreKey c) ∈ s.dev.coh.deferred → OneWay w (coreL2 c) line → Acts s (.lrholdExpiry c line) fun t => gone (coreL2 c) t ∧
      t.dev.coh.deferred = s.dev.coh.deferred.erase (line, coreKey c))

/-! ### Every command and every state -/

/-- No command stops the block: each completes with the rest of its queue unchanged, and only the end of a root key burn changes a fuse (R443); where a
rule lets a command do nothing or refuse, that is the state it leaves. -/
def Obligations.EveryCommandCompletes : Prop :=
  ∀ (i : Instr) (s : State), ∃ t, exec i s = .next t ∧ t.pending = s.pending ∧ ((∀ ok, i ≠ .rootKeyBurnDone ok) → t.fuse = s.fuse)

/-- With no command waiting a step is one TIME cycle (the model's choice, assumption 1): in Reset nothing changes; else the count advances by 1 ns, or by
0 or 2 where the accumulator of R362 carries, the oldest record of the Moraine FIFO goes to the log ring, logging stops where the ring may not be written, and nothing else moves while the trace
buffer is empty (R353, R359, R362). -/
def Obligations.IdleCycle : Prop :=
  ∀ (s : State) (r : LogRec) (rest : List LogRec), s.pending = [] →
    let w := s.w
    let a : Int := s.dev.servo.acc + w.freq
    let ns := if (2 ^ 32 : Int) ≤ a then 2 else if a < 0 then 0 else 1
    let head := field s F.MOR_LOGHEAD_IDX
    let at_ := w.base F.MOR_LOGBASE_BASE + head * 32
    (w.cur = mRESET → step s = .next s) ∧
    (w.cur ≠ mRESET → s.dev.trc.buf = [] → ∃ t, step s = .next t ∧ t.now = (s.now + ns) % 2 ^ 64 ∧ t.pending = [] ∧ t.fuse = s.fuse ∧
      t.dev.servo.acc = (a % (2 ^ 32 : Int)).toNat ∧
      (s.dev.mor.fifo = [] → t.mem = s.mem ∧ t.dev = { s.dev with servo := t.dev.servo }) ∧
      (s.dev.mor.fifo = r :: rest → field s F.MOR_CTL_LOGEN = 0 ∨ w.logFull = true → t.dev.mor = s.dev.mor) ∧
      (s.dev.mor.fifo = r :: rest → field s F.MOR_CTL_LOGEN = 1 → w.logFull = false → w.rangeOk (cirqueWho (source 0 0)) .wr at_ 32 = true →
        t.dev.mor.fifo = rest ∧ field t F.MOR_LOGHEAD_IDX = (head + 1) % w.logSize % 2 ^ 20 ∧ ∀ k < 32, t.mem.byte (at_ + k) = r.bytes.getD k 0) ∧
      (s.dev.mor.fifo = r :: rest → field s F.MOR_CTL_LOGEN = 1 → w.logFull = false → w.rangeOk (cirqueWho (source 0 0)) .wr at_ 32 = false →
        field t F.MOR_CTL_LOGEN = 0 ∧ Latched t 0))

/-- What a command leaves alone: the requests and snoops of the coherence protocol change cache and directory state, two counters, a free value's count
and reservations, and no register of a core; retries and sorts change the one queue they work on; a cipher unit's start changes the cipher block, one
register and the queue mark of a segment, and a sweep the cipher block; the timebase's own events change the servo (R15, R48, R51, R117, R139, R287 to
R289, R361). -/
def Obligations.CommandFrames : Prop :=
  ∀ (s : State) (l2 line world slice n k : Nat) (streaming : Bool) (c : CoreId),
    let w := s.w
    let others (l : List RegName) (t : State) : Prop := ∀ r e, e < 65536 → r ∉ l → t.w.reg r e = w.reg r e
    let coherent (i : Instr) : Prop := Does s i fun t => (Quiet w → t.mem = s.mem) ∧ others [.COH_DIRCNT, .COH_VBFULL] t ∧
      (∀ x, arch (t.w.core x) = arch (w.core x)) ∧ t.dev = { s.dev with coh := t.dev.coh, cores := t.dev.cores, regs := t.dev.regs, free := t.dev.free }
    let pool (i : Instr) : Prop := Acts s i fun t => t.dev = { s.dev with neve := t.dev.neve }
    let cipherStart (t : State) : Prop := others [.CIP_IVCTL] t ∧ t.dev = { s.dev with cip := t.dev.cip, regs := t.dev.regs, txns := t.dev.txns } ∧
      ∀ i y, w.txn i = some y → ∃ z, t.w.txn i = some z ∧ z = { y with segs := z.segs }
    coherent (.rds l2 line world streaming) ∧ coherent (.rdx l2 line world) ∧ coherent (.upg l2 line world) ∧ coherent (.wbd l2 line) ∧
    coherent (.evc l2 line) ∧ coherent (.rdnc line) ∧ coherent (.snps l2 line) ∧ coherent (.snpi l2 line) ∧ coherent (.snpinv l2 line) ∧
    coherent (.snprd l2 line) ∧ coherent (.victimWriteAck slice line) ∧ coherent (.lrholdExpiry c line) ∧
    pool (.cmpExtensionRetry n) ∧ pool (.nobufRetry n) ∧ pool (.spillReadback n k) ∧
    Acts s .deadlineWheelSort (fun t => t.dev = { s.dev with txns := t.dev.txns }) ∧
    (s.dev.neve.stalls = [] → Acts s (.cipJobStart n) cipherStart) ∧ Acts s .revokeSweepDone (fun t => t.dev = { s.dev with cip := t.dev.cip }) ∧
    Acts s .trefLoss (fun t => t.dev = { s.dev with servo := t.dev.servo }) ∧
    Acts s .partnerSample (fun t => others [.TIM_STAT, .TIM_FREQ] t ∧ t.dev = { s.dev with servo := t.dev.servo, regs := t.dev.regs }) ∧
    Acts s (.ndeadFire n) fun t => t.dev = { s.dev with cores := t.dev.cores } ∧ ∀ x, coreKey x ≠ coreKey (.crn n) → t.w.core x = w.core x

/-- Right after reset memory is in its canonical form with nothing listed, no command waits, the count is 0, the device is in Thaw, every register has its
reset value, and no core, channel, transaction or world exists (R7, R25). -/
def Obligations.ResetState : Prop :=
  MemOk State.reset ∧ State.reset.mem.cells = [] ∧ State.reset.mem.tags = [] ∧ State.reset.pending = [] ∧ State.reset.now = 0 ∧
    State.reset.w.cur = mTHAW ∧ (∀ r e, State.reset.w.reg r e = State.reset.w.regRst r e) ∧ State.reset.dev.cores = [] ∧ State.reset.dev.chans = [] ∧
    State.reset.dev.txns = [] ∧ State.reset.dev.worlds = []

/-- Memory keeps its canonical form, addresses and words strictly rising and nothing listed that an unlisted one reads as, through every step from every
state that has it: every command at the front of the queue, and a TIME cycle. -/
def Obligations.MemoryStaysCanonical : Prop :=
  ∀ (s t : State), MemOk s → step s = .next t → MemOk t
end

