-- ==== Sys2Proof/Laws/Bits.lean ====
section
/-! SUPPORT. The laws of bit fields: a field reads as it was set, and setting it leaves the other fields of its word. -/

namespace Sys2Proof

theorem setBits_toNat (v : Word) {hi lo : Nat} (x : Nat) (h : lo ≤ hi) (h64 : hi < 64) :
    (setBits v hi lo x).toNat = v.toNat / 2 ^ (hi + 1) * 2 ^ (hi + 1) + x % 2 ^ (hi + 1 - lo) * 2 ^ lo + v.toNat % 2 ^ lo := by
  have hv := v.isLt
  have hm : 2 ^ (hi + 1) = 2 ^ (hi + 1 - lo) * 2 ^ lo := by rw [← pow_add]; congr 1; omega
  have h2 : (2 : Nat) ^ 64 = 2 ^ (64 - (hi + 1)) * 2 ^ (hi + 1) := by rw [← pow_add]; congr 1; omega
  have hA : v.toNat / 2 ^ (hi + 1) + 1 ≤ 2 ^ (64 - (hi + 1)) := by
    apply Nat.div_lt_of_lt_mul; rw [mul_comm, ← h2]; exact hv
  have hx : x % 2 ^ (hi + 1 - lo) + 1 ≤ 2 ^ (hi + 1 - lo) := Nat.mod_lt _ (by positivity)
  have hr : v.toNat % 2 ^ lo < 2 ^ lo := Nat.mod_lt _ (by positivity)
  have h3 := Nat.mul_le_mul_right (2 ^ (hi + 1)) hA
  have h4 := Nat.mul_le_mul_right (2 ^ lo) hx
  simp only [setBits, Nat.shiftLeft_eq, Nat.shiftRight_eq_div_pow, BitVec.toNat_ofNat]
  apply Nat.mod_eq_of_lt
  rw [h2]
  rw [add_mul, one_mul] at h3 h4
  rw [← hm] at h4
  omega

/-- A field reads as it was set, modulo its width. -/
theorem bits_setBits_self (v : Word) {hi lo : Nat} (x : Nat) (h : lo ≤ hi) (h64 : hi < 64) :
    bits (setBits v hi lo x) hi lo = x % 2 ^ (hi + 1 - lo) := by
  have hm : 2 ^ (hi + 1) = 2 ^ (hi + 1 - lo) * 2 ^ lo := by rw [← pow_add]; congr 1; omega
  have hr : v.toNat % 2 ^ lo < 2 ^ lo := Nat.mod_lt _ (by positivity)
  rw [bits, setBits_toNat v x h h64, Nat.shiftRight_eq_div_pow, hm,
    show v.toNat / (2 ^ (hi + 1 - lo) * 2 ^ lo) * (2 ^ (hi + 1 - lo) * 2 ^ lo) + x % 2 ^ (hi + 1 - lo) * 2 ^ lo + v.toNat % 2 ^ lo
      = v.toNat % 2 ^ lo + (v.toNat / (2 ^ (hi + 1 - lo) * 2 ^ lo) * 2 ^ (hi + 1 - lo) + x % 2 ^ (hi + 1 - lo)) * 2 ^ lo by ring,
    Nat.add_mul_div_right _ _ (by positivity), Nat.div_eq_of_lt hr]
  simp [Nat.add_mod]

/-- A field above the one that was set is unchanged. -/
theorem bits_setBits_above (v : Word) {hi lo h2 l2 : Nat} (x : Nat) (h : lo ≤ hi) (h64 : hi < 64) (ha : hi < l2) :
    bits (setBits v hi lo x) h2 l2 = bits v h2 l2 := by
  have hm : 2 ^ (hi + 1) = 2 ^ (hi + 1 - lo) * 2 ^ lo := by rw [← pow_add]; congr 1; omega
  have hx : x % 2 ^ (hi + 1 - lo) + 1 ≤ 2 ^ (hi + 1 - lo) := Nat.mod_lt _ (by positivity)
  have hr : v.toNat % 2 ^ lo < 2 ^ lo := Nat.mod_lt _ (by positivity)
  have h4 := Nat.mul_le_mul_right (2 ^ lo) hx
  rw [add_mul, one_mul, ← hm] at h4
  have key : (setBits v hi lo x).toNat / 2 ^ (hi + 1) = v.toNat / 2 ^ (hi + 1) := by
    rw [setBits_toNat v x h h64, add_assoc, add_comm, Nat.add_mul_div_right _ _ (by positivity), Nat.div_eq_of_lt (by omega), zero_add]
  have split : ∀ n : Nat, n / 2 ^ l2 = n / 2 ^ (hi + 1) / 2 ^ (l2 - (hi + 1)) := by
    intro n; rw [Nat.div_div_eq_div_mul, ← pow_add]; congr 2; omega
  simp only [bits, Nat.shiftRight_eq_div_pow]
  rw [split, split v.toNat, key]

/-- A field below the one that was set is unchanged. -/
theorem bits_setBits_below (v : Word) {hi lo h2 l2 : Nat} (x : Nat) (h : lo ≤ hi) (h64 : hi < 64) (hl : l2 ≤ h2) (hb : h2 < lo) :
    bits (setBits v hi lo x) h2 l2 = bits v h2 l2 := by
  have hm : 2 ^ (hi + 1) = 2 ^ (hi + 1 - lo) * 2 ^ lo := by rw [← pow_add]; congr 1; omega
  have key : (setBits v hi lo x).toNat % 2 ^ lo = v.toNat % 2 ^ lo := by
    rw [setBits_toNat v x h h64, hm,
      show v.toNat / (2 ^ (hi + 1 - lo) * 2 ^ lo) * (2 ^ (hi + 1 - lo) * 2 ^ lo) + x % 2 ^ (hi + 1 - lo) * 2 ^ lo + v.toNat % 2 ^ lo
        = v.toNat % 2 ^ lo + 2 ^ lo * (v.toNat / (2 ^ (hi + 1 - lo) * 2 ^ lo) * 2 ^ (hi + 1 - lo) + x % 2 ^ (hi + 1 - lo)) by ring,
      Nat.add_mul_mod_self_left, Nat.mod_mod]
  have low : ∀ n : Nat, n / 2 ^ l2 % 2 ^ (h2 + 1 - l2) = n % 2 ^ lo / 2 ^ l2 % 2 ^ (h2 + 1 - l2) := by
    intro n
    have h1 : 2 ^ lo = 2 ^ l2 * 2 ^ (lo - l2) := by rw [← pow_add]; congr 1; omega
    rw [h1, Nat.mod_mul_right_div_self, Nat.mod_mod_of_dvd]
    exact pow_dvd_pow 2 (by omega)
  simp only [bits, Nat.shiftRight_eq_div_pow]
  rw [low, low v.toNat, key]

end Sys2Proof
end

