-- ==== Sys2Proof/Laws/Tab.lean ====
section
/-! SUPPORT. The laws of sorted key tables: what a lookup finds after a change, and that changes keep the canonical form. -/

namespace Sys2Proof.Tab

variable {α : Type}

/-! ### Lookups -/

@[simp] theorem find?_nil (k : Nat) : find? ([] : Tab α) k = none := rfl

@[simp] theorem getD_nil (k : Nat) (d : α) : getD ([] : Tab α) k d = d := rfl

theorem find?_put_self (t : Tab α) (k : Nat) (v : α) : find? (put t k v) k = some v := by
  induction t with
  | nil => simp [put, find?]
  | cons p t ih =>
    obtain ⟨j, u⟩ := p
    simp only [put]
    split
    · simp [find?]
    · split
      · simp [find?]
      · simp [find?, ih, show j ≠ k by omega]

theorem find?_put_ne (t : Tab α) {j k : Nat} (v : α) (h : j ≠ k) : find? (put t k v) j = find? t j := by
  induction t with
  | nil => simp [put, find?, Ne.symm h]
  | cons p t ih =>
    obtain ⟨i, u⟩ := p
    simp only [put]
    split
    · simp [find?, Ne.symm h]
    · split
      · rename_i h2; subst h2; simp [find?, Ne.symm h]
      · simp only [find?, ih]

theorem find?_del_self (t : Tab α) (k : Nat) : find? (del t k) k = none := by
  induction t with
  | nil => rfl
  | cons p t ih =>
    obtain ⟨i, u⟩ := p
    simp only [del]
    split
    · exact ih
    · simp [find?, *]

theorem find?_del_ne (t : Tab α) {j k : Nat} (h : j ≠ k) : find? (del t k) j = find? t j := by
  induction t with
  | nil => rfl
  | cons p t ih =>
    obtain ⟨i, u⟩ := p
    simp only [del]
    split
    · rename_i h2; subst h2; simp [find?, ih, Ne.symm h]
    · simp only [find?, ih]

@[simp] theorem getD_put_self (t : Tab α) (k : Nat) (v d : α) : getD (put t k v) k d = v := by
  simp [getD, find?_put_self]

theorem getD_put_ne (t : Tab α) {j k : Nat} (v d : α) (h : j ≠ k) : getD (put t k v) j d = getD t j d := by
  simp [getD, find?_put_ne t v h]

@[simp] theorem getD_putD_self [DecidableEq α] (t : Tab α) (k : Nat) (v d : α) : getD (putD d t k v) k d = v := by
  unfold putD; split
  · simp [getD, find?_del_self, *]
  · exact getD_put_self t k v d

theorem getD_putD_ne [DecidableEq α] (t : Tab α) {j k : Nat} (v d e : α) (h : j ≠ k) : getD (putD d t k v) j e = getD t j e := by
  unfold putD; split
  · simp [getD, find?_del_ne t h]
  · exact getD_put_ne t v e h

theorem find?_modify_self (t : Tab α) (k : Nat) (f : α → α) : find? (modify t k f) k = (find? t k).map f := by
  unfold modify
  cases h : find? t k with
  | none => simp [h]
  | some v => simp [find?_put_self]

theorem find?_modify_ne (t : Tab α) {j k : Nat} (f : α → α) (h : j ≠ k) : find? (modify t k f) j = find? t j := by
  unfold modify
  split
  · exact find?_put_ne t _ h
  · rfl

/-! ### The canonical form -/

theorem sortedFrom_mono {t : Tab α} {a b : Nat} (h : sortedFrom b t = true) (hab : a ≤ b) : sortedFrom a t = true := by
  cases t with
  | nil => rfl
  | cons p t =>
    obtain ⟨j, u⟩ := p
    simp only [sortedFrom, Bool.and_eq_true, decide_eq_true_eq] at h ⊢
    exact ⟨by omega, h.2⟩

theorem sortedFrom_put {t : Tab α} {b k : Nat} (v : α) (h : sortedFrom b t = true) (hb : b ≤ k) : sortedFrom b (put t k v) = true := by
  induction t generalizing b with
  | nil => simp [put, sortedFrom, hb]
  | cons p t ih =>
    obtain ⟨j, u⟩ := p
    simp only [sortedFrom, Bool.and_eq_true, decide_eq_true_eq] at h
    simp only [put]
    split
    · simp only [sortedFrom, Bool.and_eq_true, decide_eq_true_eq]
      exact ⟨hb, by omega, h.2⟩
    · split
      · rename_i h2; subst h2
        simp only [sortedFrom, Bool.and_eq_true, decide_eq_true_eq]
        exact ⟨hb, h.2⟩
      · simp only [sortedFrom, Bool.and_eq_true, decide_eq_true_eq]
        exact ⟨h.1, ih h.2 (by omega)⟩

theorem sortedFrom_del {t : Tab α} {b : Nat} (k : Nat) (h : sortedFrom b t = true) : sortedFrom b (del t k) = true := by
  induction t generalizing b with
  | nil => rfl
  | cons p t ih =>
    obtain ⟨j, u⟩ := p
    simp only [sortedFrom, Bool.and_eq_true, decide_eq_true_eq] at h
    simp only [del]
    split
    · exact sortedFrom_mono (ih h.2) (by omega)
    · simp only [sortedFrom, Bool.and_eq_true, decide_eq_true_eq]
      exact ⟨h.1, ih h.2⟩

theorem all_put {p : Nat × α → Bool} {t : Tab α} (k : Nat) {v : α} (h : t.all p = true) (hv : p (k, v) = true) : (put t k v).all p = true := by
  induction t with
  | nil => simp [put, hv]
  | cons q t ih =>
    obtain ⟨j, u⟩ := q
    simp only [List.all_cons, Bool.and_eq_true] at h
    simp only [put]
    split
    · simp [hv, h.1, h.2]
    · split
      · simp [hv, h.2]
      · simp [h.1, ih h.2]

theorem all_del {p : Nat × α → Bool} {t : Tab α} (k : Nat) (h : t.all p = true) : (del t k).all p = true := by
  induction t with
  | nil => rfl
  | cons q t ih =>
    obtain ⟨j, u⟩ := q
    simp only [List.all_cons, Bool.and_eq_true] at h
    simp only [del]
    split
    · exact ih h.2
    · simp [h.1, ih h.2]

/-- A write keeps the canonical form: keys still rise and the value that an unlisted key reads as is not listed. -/
theorem wf_putD [DecidableEq α] {d : α} {t : Tab α} (k : Nat) (v : α) (h : wf d t = true) : wf d (putD d t k v) = true := by
  simp only [wf, Bool.and_eq_true] at h ⊢
  unfold putD; split
  · exact ⟨sortedFrom_del k h.1, all_del k h.2⟩
  · exact ⟨sortedFrom_put v h.1 (Nat.zero_le k), all_put k h.2 (by simpa using ‹_›)⟩

end Sys2Proof.Tab
end

