-- ==== Sys2Proof/Laws/State.lean ====
section
/-! SUPPORT. What each elementary update of the working state changes and what it leaves, one lemma per field. -/

namespace Sys2Proof.Machine

open Sys2Proof

/-! ### Running an effect -/

theorem lift_eq (f : W → W) (s : State) :
    lift f s = .next { s with mem := s.mem.apply (f s.w).ws.reverse, dev := (f s.w).dev } := rfl

theorem liftNow_eq (f : W → W) (s : State) :
    liftNow f s = .next { s with now := (f s.w).now, mem := s.mem.apply (f s.w).ws.reverse, dev := (f s.w).dev } := rfl

theorem liftFuse_eq (f : W → W) (s : State) :
    liftFuse f s = .next { s with fuse := (f s.w).fuse, mem := s.mem.apply (f s.w).ws.reverse, dev := (f s.w).dev } := rfl

@[simp] theorem State.w_now (s : State) : s.w.now = s.now := rfl
@[simp] theorem State.w_fuse (s : State) : s.w.fuse = s.fuse := rfl
@[simp] theorem State.w_mem (s : State) : s.w.mem = s.mem := rfl
@[simp] theorem State.w_ws (s : State) : s.w.ws = [] := rfl
@[simp] theorem State.w_dev (s : State) : s.w.dev = s.dev := rfl

/-! ### `W.putByte` -/

@[simp] theorem W.putByte_now (w : W) (a : Nat) (b : Byte) : (w.putByte a b).now = w.now := rfl
@[simp] theorem W.putByte_fuse (w : W) (a : Nat) (b : Byte) : (w.putByte a b).fuse = w.fuse := rfl
@[simp] theorem W.putByte_mem (w : W) (a : Nat) (b : Byte) : (w.putByte a b).mem = w.mem := rfl
@[simp] theorem W.putByte_ws (w : W) (a : Nat) (b : Byte) : (w.putByte a b).ws = .byte a b :: w.ws := rfl
@[simp] theorem W.putByte_dev (w : W) (a : Nat) (b : Byte) : (w.putByte a b).dev = w.dev := rfl

/-! ### `W.putTag` -/

@[simp] theorem W.putTag_now (w : W) (i : Nat) (t : Tag) : (w.putTag i t).now = w.now := rfl
@[simp] theorem W.putTag_fuse (w : W) (i : Nat) (t : Tag) : (w.putTag i t).fuse = w.fuse := rfl
@[simp] theorem W.putTag_mem (w : W) (i : Nat) (t : Tag) : (w.putTag i t).mem = w.mem := rfl
@[simp] theorem W.putTag_ws (w : W) (i : Nat) (t : Tag) : (w.putTag i t).ws = .tag i t :: w.ws := rfl
@[simp] theorem W.putTag_dev (w : W) (i : Nat) (t : Tag) : (w.putTag i t).dev = w.dev := rfl

/-! ### `W.setReg` -/

@[simp] theorem W.setReg_now (w : W) (r : RegName) (i : Nat) (v : Word) : (w.setReg r i v).now = w.now := rfl
@[simp] theorem W.setReg_fuse (w : W) (r : RegName) (i : Nat) (v : Word) : (w.setReg r i v).fuse = w.fuse := rfl
@[simp] theorem W.setReg_mem (w : W) (r : RegName) (i : Nat) (v : Word) : (w.setReg r i v).mem = w.mem := rfl
@[simp] theorem W.setReg_ws (w : W) (r : RegName) (i : Nat) (v : Word) : (w.setReg r i v).ws = w.ws := rfl
@[simp] theorem W.setReg_dev (w : W) (r : RegName) (i : Nat) (v : Word) : (w.setReg r i v).dev = { w.dev with regs := Tab.putD (w.regRst r i) w.dev.regs (regKey r i) v } := rfl

/-! ### `W.send` -/

@[simp] theorem W.send_now (w : W) (o : Out) : (w.send o).now = w.now := rfl
@[simp] theorem W.send_fuse (w : W) (o : Out) : (w.send o).fuse = w.fuse := rfl
@[simp] theorem W.send_mem (w : W) (o : Out) : (w.send o).mem = w.mem := rfl
@[simp] theorem W.send_ws (w : W) (o : Out) : (w.send o).ws = w.ws := rfl
@[simp] theorem W.send_dev (w : W) (o : Out) : (w.send o).dev = { w.dev with out := o :: w.dev.out } := rfl

/-! ### `W.irq` -/

@[simp] theorem W.irq_now (w : W) (i : Irq) : (w.irq i).now = w.now := rfl
@[simp] theorem W.irq_fuse (w : W) (i : Irq) : (w.irq i).fuse = w.fuse := rfl
@[simp] theorem W.irq_mem (w : W) (i : Irq) : (w.irq i).mem = w.mem := rfl
@[simp] theorem W.irq_ws (w : W) (i : Irq) : (w.irq i).ws = w.ws := rfl
@[simp] theorem W.irq_dev (w : W) (i : Irq) : (w.irq i).dev = { w.dev with irqs := w.dev.irqs ++ [i] } := rfl

/-! ### `W.modeSt` -/

@[simp] theorem W.modeSt_now (w : W) (f : ModeSt → ModeSt) : (w.modeSt f).now = w.now := rfl
@[simp] theorem W.modeSt_fuse (w : W) (f : ModeSt → ModeSt) : (w.modeSt f).fuse = w.fuse := rfl
@[simp] theorem W.modeSt_mem (w : W) (f : ModeSt → ModeSt) : (w.modeSt f).mem = w.mem := rfl
@[simp] theorem W.modeSt_ws (w : W) (f : ModeSt → ModeSt) : (w.modeSt f).ws = w.ws := rfl
@[simp] theorem W.modeSt_dev (w : W) (f : ModeSt → ModeSt) : (w.modeSt f).dev = { w.dev with mode := f w.dev.mode } := rfl

/-! ### `W.setUnit` -/

@[simp] theorem W.setUnit_now (w : W) (k : Nat) (u : UnitSt) : (w.setUnit k u).now = w.now := rfl
@[simp] theorem W.setUnit_fuse (w : W) (k : Nat) (u : UnitSt) : (w.setUnit k u).fuse = w.fuse := rfl
@[simp] theorem W.setUnit_mem (w : W) (k : Nat) (u : UnitSt) : (w.setUnit k u).mem = w.mem := rfl
@[simp] theorem W.setUnit_ws (w : W) (k : Nat) (u : UnitSt) : (w.setUnit k u).ws = w.ws := rfl
@[simp] theorem W.setUnit_dev (w : W) (k : Nat) (u : UnitSt) : (w.setUnit k u).dev = { w.dev with units := Tab.putD {} w.dev.units k u } := rfl

/-! ### `W.modTrc` -/

@[simp] theorem W.modTrc_now (w : W) (f : TrcSt → TrcSt) : (w.modTrc f).now = w.now := rfl
@[simp] theorem W.modTrc_fuse (w : W) (f : TrcSt → TrcSt) : (w.modTrc f).fuse = w.fuse := rfl
@[simp] theorem W.modTrc_mem (w : W) (f : TrcSt → TrcSt) : (w.modTrc f).mem = w.mem := rfl
@[simp] theorem W.modTrc_ws (w : W) (f : TrcSt → TrcSt) : (w.modTrc f).ws = w.ws := rfl
@[simp] theorem W.modTrc_dev (w : W) (f : TrcSt → TrcSt) : (w.modTrc f).dev = { w.dev with trc := f w.dev.trc } := rfl

/-! ### `W.setCore` -/

@[simp] theorem W.setCore_now (w : W) (c : CoreId) (x : Core) : (w.setCore c x).now = w.now := rfl
@[simp] theorem W.setCore_fuse (w : W) (c : CoreId) (x : Core) : (w.setCore c x).fuse = w.fuse := rfl
@[simp] theorem W.setCore_mem (w : W) (c : CoreId) (x : Core) : (w.setCore c x).mem = w.mem := rfl
@[simp] theorem W.setCore_ws (w : W) (c : CoreId) (x : Core) : (w.setCore c x).ws = w.ws := rfl
@[simp] theorem W.setCore_dev (w : W) (c : CoreId) (x : Core) : (w.setCore c x).dev = { w.dev with cores := Tab.putD {} w.dev.cores (coreKey c) x } := rfl

/-! ### `W.modWorld` -/

@[simp] theorem W.modWorld_now (w : W) (k : Nat) (f : WorldRec → WorldRec) : (w.modWorld k f).now = w.now := rfl
@[simp] theorem W.modWorld_fuse (w : W) (k : Nat) (f : WorldRec → WorldRec) : (w.modWorld k f).fuse = w.fuse := rfl
@[simp] theorem W.modWorld_mem (w : W) (k : Nat) (f : WorldRec → WorldRec) : (w.modWorld k f).mem = w.mem := rfl
@[simp] theorem W.modWorld_ws (w : W) (k : Nat) (f : WorldRec → WorldRec) : (w.modWorld k f).ws = w.ws := rfl
@[simp] theorem W.modWorld_dev (w : W) (k : Nat) (f : WorldRec → WorldRec) : (w.modWorld k f).dev = { w.dev with worlds := Tab.modify w.dev.worlds k f } := rfl

/-! ### `W.modPlk` -/

@[simp] theorem W.modPlk_now (w : W) (f : PlkSt → PlkSt) : (w.modPlk f).now = w.now := rfl
@[simp] theorem W.modPlk_fuse (w : W) (f : PlkSt → PlkSt) : (w.modPlk f).fuse = w.fuse := rfl
@[simp] theorem W.modPlk_mem (w : W) (f : PlkSt → PlkSt) : (w.modPlk f).mem = w.mem := rfl
@[simp] theorem W.modPlk_ws (w : W) (f : PlkSt → PlkSt) : (w.modPlk f).ws = w.ws := rfl
@[simp] theorem W.modPlk_dev (w : W) (f : PlkSt → PlkSt) : (w.modPlk f).dev = { w.dev with plk := f w.dev.plk } := rfl

/-! ### `W.modCoh` -/

@[simp] theorem W.modCoh_now (w : W) (f : CohSt → CohSt) : (w.modCoh f).now = w.now := rfl
@[simp] theorem W.modCoh_fuse (w : W) (f : CohSt → CohSt) : (w.modCoh f).fuse = w.fuse := rfl
@[simp] theorem W.modCoh_mem (w : W) (f : CohSt → CohSt) : (w.modCoh f).mem = w.mem := rfl
@[simp] theorem W.modCoh_ws (w : W) (f : CohSt → CohSt) : (w.modCoh f).ws = w.ws := rfl
@[simp] theorem W.modCoh_dev (w : W) (f : CohSt → CohSt) : (w.modCoh f).dev = { w.dev with coh := f w.dev.coh } := rfl

/-! ### Registers after a write -/

/-- A register key names one element of one register. -/
theorem regKey_inj {r q : RegName} {i j : Nat} (hi : i < 65536) (hj : j < 65536) (h : regKey r i = regKey q j) : r.code = q.code ∧ i = j := by
  unfold regKey at h; omega

@[simp] theorem W.regRst_setReg (w : W) (r q : RegName) (i j : Nat) (v : Word) : (w.setReg r i v).regRst q j = w.regRst q j := rfl

/-- A written register element reads as written. -/
@[simp] theorem W.reg_setReg_self (w : W) (r : RegName) (i : Nat) (v : Word) : (w.setReg r i v).reg r i = v := by
  simp [W.reg, W.regRst_setReg]

/-- Every other register element is unchanged. -/
theorem W.reg_setReg_ne (w : W) {r q : RegName} {i j : Nat} (v : Word) (h : regKey q j ≠ regKey r i) : (w.setReg r i v).reg q j = w.reg q j := by
  simp only [W.reg, W.regRst_setReg, W.setReg_dev, Tab.getD_putD_ne _ _ _ _ h]

/-- Fields of other register elements are unchanged. -/
theorem W.get_set_ne (w : W) {f e : Fld} {i j : Nat} (v : Nat) (h : regKey e.reg j ≠ regKey f.reg i) : (w.set f v i).get e j = w.get e j := by
  simp only [W.get, W.set, W.reg_setReg_ne w _ h]

/-! ### Cores after a write -/

theorem coreKey_inj {c d : CoreId} (hc : ∀ p, c = .crn p → p < 1000) (hd : ∀ p, d = .crn p → p < 1000) (h : coreKey c = coreKey d) : c = d := by
  cases c with
  | crn p => cases d with
    | crn q => simp only [coreKey] at h; subst h; rfl
    | flo q => have := hc p rfl; simp only [coreKey] at h; omega
  | flo p => cases d with
    | crn q => have := hd q rfl; simp only [coreKey] at h; omega
    | flo q => simp only [coreKey] at h; congr 1; omega

@[simp] theorem W.core_setCore_self (w : W) (c : CoreId) (x : Core) : (w.setCore c x).core c = x := by
  simp [W.core]

theorem W.core_setCore_ne (w : W) {c d : CoreId} (x : Core) (h : coreKey d ≠ coreKey c) : (w.setCore c x).core d = w.core d := by
  simp [W.core, Tab.getD_putD_ne _ _ _ _ h]

@[simp] theorem W.core_modCore_self (w : W) (c : CoreId) (f : Core → Core) : (w.modCore c f).core c = f (w.core c) := by
  simp [W.modCore]

theorem W.core_modCore_ne (w : W) {c d : CoreId} (f : Core → Core) (h : coreKey d ≠ coreKey c) : (w.modCore c f).core d = w.core d :=
  W.core_setCore_ne w _ h

end Sys2Proof.Machine
end

