-- ==== Sys2Proof/Laws/Frame.lean ====
section
/-! SUPPORT. What the cache protocol, counters, trace, checkpoints and halts leave alone: the timebase, fuses, memory as it was before the
command, and the architectural registers of every core. -/

namespace Sys2Proof.Machine

open Sys2Proof Sys2Proof.Safety

/-- A core without what the surroundings of an instruction may change: reservation, L1s, prefetcher and predictor, DETSTAT, output buffer, undo log,
checkpoint, and the halt. -/
def still (x : Core) : Core :=
  { x with
    detstat := 0, resv := none, lrUsed := false, out := [], undo := [], ckpt := {}, since := 0, triggers := 0, halted := false, pred := []
    near := none, il1 := [], dl1 := [], pf := [] }

theorem arch_of_still {x y : Core} (h : still x = still y) : arch x = arch y := by
  simp only [still, Core.mk.injEq] at h
  simp [arch, h]

/-- What the surroundings of an instruction do not touch. -/
structure Kept where
  /-- The timebase. -/
  now : Nat
  /-- Fuses. -/
  fuse : Fuses
  /-- Memory before the command. -/
  mem : Mem
  /-- Each core, by its key. -/
  cores : Nat → Core

/-- The kept part of a working state. -/
def W.kept (w : W) : Kept := ⟨w.now, w.fuse, w.mem, fun k => still (Tab.getD w.dev.cores k {})⟩

theorem W.kept_of_cores {w v : W} (hn : w.now = v.now) (hf : w.fuse = v.fuse) (hm : w.mem = v.mem) (hc : w.dev.cores = v.dev.cores) :
    w.kept = v.kept := by
  simp [W.kept, hn, hf, hm, hc]

theorem W.still_of_kept {w v : W} (h : w.kept = v.kept) (c : CoreId) : still (w.core c) = still (v.core c) :=
  congrFun (congrArg Kept.cores h) (coreKey c)

theorem W.arch_of_kept {w v : W} (h : w.kept = v.kept) (c : CoreId) : arch (w.core c) = arch (v.core c) :=
  arch_of_still (W.still_of_kept h c)

/-- What a fetch does not touch: it may bring a translation in. -/
def W.keptF (w : W) : Kept := { w.kept with cores := fun k => { w.kept.cores k with tlb := [] } }

theorem W.keptF_of_kept {w v : W} (h : w.kept = v.kept) : w.keptF = v.keptF := by
  simp [W.keptF, h]

theorem W.arch_of_keptF {w v : W} (h : w.keptF = v.keptF) (c : CoreId) : arch (w.core c) = arch (v.core c) := by
  have hk : { still (w.core c) with tlb := [] } = { still (v.core c) with tlb := [] } := congrFun (congrArg Kept.cores h) (coreKey c)
  simp only [still, Core.mk.injEq] at hk
  simp only [arch, hk]

theorem kept_foldl {α : Type} (l : List α) (f : W → α → W) (w : W) (h : ∀ w x, (f w x).kept = w.kept) : (l.foldl f w).kept = w.kept := by
  induction l generalizing w with
  | nil => rfl
  | cons x t ih => rw [List.foldl_cons, ih, h]

theorem kept_ite {p : Prop} [Decidable p] {a b : W} {k : Kept} (ha : a.kept = k) (hb : b.kept = k) : (if p then a else b).kept = k := by
  split <;> assumption

theorem W.kept_setCore (w : W) (c : CoreId) (x : Core) (h : still x = still (w.core c)) : (w.setCore c x).kept = w.kept := by
  simp only [W.kept, W.setCore_now, W.setCore_fuse, W.setCore_mem, W.setCore_dev]
  congr 1
  funext k
  by_cases hk : k = coreKey c
  · subst hk; rw [Tab.getD_putD_self]; exact h
  · rw [Tab.getD_putD_ne _ _ _ _ hk]

theorem W.kept_modCore (w : W) (c : CoreId) (f : Core → Core) (h : ∀ x, still (f x) = still x) : (w.modCore c f).kept = w.kept :=
  W.kept_setCore w c _ (h _)

theorem W.kept_core {w : W} {c : CoreId} {f : Core → Core} {k : Kept} (hf : ∀ x, still (f x) = still x) (h : w.kept = k) :
    (w.modCore c f).kept = k :=
  (W.kept_modCore w c f hf).trans h

theorem W.kept_place {w : W} {c : CoreId} {x : Core} {k : Kept} (hx : still x = still (w.core c)) (h : w.kept = k) : (w.setCore c x).kept = k :=
  (W.kept_setCore w c x hx).trans h

theorem Tab.find?_mapVal {α : Type} (t : Tab α) (f : Nat → α → α) (k : Nat) : Tab.find? (Tab.mapVal t f) k = (Tab.find? t k).map (f k) := by
  induction t with
  | nil => rfl
  | cons p t ih =>
    obtain ⟨j, u⟩ := p
    show Tab.find? ((j, f j u) :: Tab.mapVal t f) k = _
    by_cases h : j = k
    · subst h; simp [Tab.find?]
    · simp [Tab.find?, h, ih]

/-! ### Elementary changes -/

section
variable (w : W)

@[simp] theorem W.kept_setReg (r : RegName) (i : Nat) (v : Word) : (w.setReg r i v).kept = w.kept := W.kept_of_cores rfl rfl rfl rfl
@[simp] theorem W.kept_set (f : Fld) (v i : Nat) : (w.set f v i).kept = w.kept := W.kept_of_cores rfl rfl rfl rfl
@[simp] theorem W.kept_bump (f : Fld) (k i : Nat) : (w.bump f k i).kept = w.kept := W.kept_of_cores rfl rfl rfl rfl
@[simp] theorem W.kept_modeSt (f : ModeSt → ModeSt) : (w.modeSt f).kept = w.kept := W.kept_of_cores rfl rfl rfl rfl
@[simp] theorem W.kept_modCoh (f : CohSt → CohSt) : (w.modCoh f).kept = w.kept := W.kept_of_cores rfl rfl rfl rfl
@[simp] theorem W.kept_modTrc (f : TrcSt → TrcSt) : (w.modTrc f).kept = w.kept := W.kept_of_cores rfl rfl rfl rfl
@[simp] theorem W.kept_setTrcSrc (k : Nat) (x : TrcSrc) : (w.setTrcSrc k x).kept = w.kept := W.kept_of_cores rfl rfl rfl rfl
@[simp] theorem W.kept_modDbg (f : DbgSt → DbgSt) : (w.modDbg f).kept = w.kept := W.kept_of_cores rfl rfl rfl rfl
@[simp] theorem W.kept_setUnit (k : Nat) (u : UnitSt) : (w.setUnit k u).kept = w.kept := W.kept_of_cores rfl rfl rfl rfl
@[simp] theorem W.kept_unitOut (k : Nat) : (w.unitOut k).kept = w.kept := W.kept_of_cores rfl rfl rfl rfl
@[simp] theorem W.kept_putByte (a : Nat) (b : Byte) : (w.putByte a b).kept = w.kept := W.kept_of_cores rfl rfl rfl rfl
@[simp] theorem W.kept_putTag (i : Nat) (t : Tag) : (w.putTag i t).kept = w.kept := W.kept_of_cores rfl rfl rfl rfl

@[simp] theorem W.kept_putBytes (a : Nat) (bs : List Byte) : (w.putBytes a bs).kept = w.kept := by
  induction bs generalizing w a with
  | nil => rfl
  | cons b t ih => rw [W.putBytes, ih, W.kept_putByte]

@[simp] theorem W.kept_putLine (line : Nat) (x : List Byte × List Tag) : (w.putLine line x).kept = w.kept := by
  unfold W.putLine; rw [kept_foldl _ _ _ (fun w k => W.kept_putTag w _ _), W.kept_putBytes]

@[simp] theorem W.kept_pmuBump (r : RegName) (i k : Nat) : (w.pmuBump r i k).kept = w.kept := W.kept_setReg _ _ _ _

@[simp] theorem W.kept_pmuWorld (k : Nat) (f : PmuWorld → PmuWorld) : (w.pmuWorld k f).kept = w.kept := by
  unfold W.pmuWorld; split
  · split
    · exact W.kept_of_cores rfl rfl rfl rfl
    · rfl
  · rfl

@[simp] theorem W.kept_event (u : PmuKind) (idx ev k world : Nat) : (w.event u idx ev k world).kept = w.kept := by
  unfold W.event
  simp only [W.kept_pmuWorld]
  apply kept_foldl
  intro w x
  exact kept_ite (W.kept_pmuBump _ _ _ _) rfl

@[simp] theorem W.kept_coreEvent (c : CoreId) (ev k world : Nat) : (w.coreEvent c ev k world).kept = w.kept := by
  unfold W.coreEvent; split <;> simp

@[simp] theorem W.kept_logPush (r : LogRec) : (w.logPush r).kept = w.kept := by
  unfold W.logPush; dsimp only; split <;> exact W.kept_of_cores rfl rfl rfl rfl

@[simp] theorem W.kept_record (r : Report) : (w.record r).1.kept = w.kept := by
  unfold W.record
  extract_lets c pend esc lv w1 w2 w3 w4 w5 w6 fl l w7
  have h1 : w1.kept = w.kept := W.kept_set _ _ _ _
  have h2 : w2.kept = w.kept := kept_ite ((W.kept_set _ _ _ _).trans h1) h1
  have h3 : w3.kept = w.kept := by simp only [w3, W.kept_set]
  have h4 : w4.kept = w.kept := by simp only [w4, W.kept_set, h3]
  have h5 : w5.kept = w.kept := kept_ite ((W.kept_set _ _ _ _).trans h2) ((W.kept_set _ _ _ _).trans h4)
  exact (W.kept_set _ _ _ _).trans ((W.kept_logPush _ _).trans ((W.kept_bump _ _ _ _).trans h5))

@[simp] theorem W.kept_trcRaw (src : Nat) (p : List Byte) : (w.trcRaw src p).kept = w.kept := by
  unfold W.trcRaw
  extract_lets t x w1
  have h1 : w1.kept = w.kept := W.kept_setTrcSrc _ _ _
  refine kept_ite (by simp) (kept_ite ?_ (kept_ite h1 ?_))
  · split; simp
  · simpa using h1

@[simp] theorem W.kept_trcSync (src : Nat) : (w.trcSync src).kept = w.kept := by
  unfold W.trcSync
  exact (W.kept_setTrcSrc _ _ _).trans (W.kept_trcRaw _ _ _)

@[simp] theorem W.kept_trcEmit (src world type info : Nat) (pay : List Byte) : (w.trcEmit src world type info pay).kept = w.kept := by
  unfold W.trcEmit
  extract_lets hd put x w1 x1 w2 w3 w4 x2 w5
  have hput : ∀ (v : W) (p : List Byte), (put v p).kept = v.kept := fun v p =>
    (W.kept_setTrcSrc _ _ _).trans (W.kept_trcRaw v src p)
  have h2 : w2.kept = w.kept := kept_ite rfl ((W.kept_setTrcSrc _ _ _).trans (hput _ _))
  have h3 : w3.kept = w.kept := kept_ite ((W.kept_trcSync _ _).trans h2) h2
  have h5 : w5.kept = w.kept := kept_ite h3 ((W.kept_setTrcSrc _ _ _).trans ((hput _ _).trans h3))
  exact kept_ite rfl ((hput _ _).trans h5)

@[simp] theorem W.kept_transition (m rank : Nat) : (w.transition m rank).kept = w.kept := by
  unfold W.transition
  extract_lets old at_ w1 w2 w3
  have h1 : w1.kept = w.kept := W.kept_set _ _ _ _
  have h2 : w2.kept = w.kept := by simp only [w2, W.kept_set, h1]
  have h3 : w3.kept = w.kept := (W.kept_trcEmit _ _ _ _ _ _).trans ((W.kept_set _ _ _ _).trans h2)
  exact (W.kept_modeSt _ _).trans h3

@[simp] theorem W.kept_fatal (l : LogRec) : (w.fatal l).kept = w.kept := by
  unfold W.fatal
  extract_lets ws w1 w2
  have h1 : w1.kept = w.kept := kept_foldl _ _ _ fun w k => W.kept_set w _ _ _
  have h2 : w2.kept = w.kept := kept_ite h1 (by rw [W.kept_set, W.kept_transition, h1])
  exact (W.kept_modeSt _ _).trans h2

@[simp] theorem W.kept_report (r : Report) : (w.report r).kept = w.kept := by
  unfold W.report W.reportNow; dsimp only
  split
  · rfl
  · split <;> split <;> simp

/-! ### The cache protocol -/

@[simp] theorem W.kept_fresh : w.fresh.2.kept = w.kept := W.kept_of_cores rfl rfl rfl rfl

@[simp] theorem W.kept_fillAge (streaming : Bool) : (w.fillAge streaming).2.kept = w.kept := by
  unfold W.fillAge; split <;> simp

@[simp] theorem W.kept_snpYoung (line : Nat) : (w.snpYoung line).kept = w.kept := by
  unfold W.snpYoung; split <;> simp

@[simp] theorem W.kept_l2Young (l2 line : Nat) : (w.l2Young l2 line).kept = w.kept := by
  unfold W.l2Young; split <;> simp

@[simp] theorem W.kept_cxlNote (pa : Nat) : (w.cxlNote pa).kept = w.kept := by
  unfold W.cxlNote; split <;> simp

@[simp] theorem W.kept_dropL1s (l2 line : Nat) : (w.dropL1s l2 line).kept = w.kept := by
  unfold W.dropL1s
  apply kept_foldl; intro w c; split
  · exact W.kept_modCore w c _ (fun _ => rfl)
  · rfl

@[simp] theorem W.kept_breakResv (who : Option CoreId) (tcm : Option Nat) (line : Nat) : (w.breakResv who tcm line).kept = w.kept := by
  simp only [W.kept, W.breakResv]
  congr 1
  funext k
  simp only [Tab.getD, Tab.find?_mapVal]
  cases Tab.find? w.dev.cores k with
  | none => rfl
  | some x =>
    simp only [Option.map_some, Option.getD_some]
    repeat' split
    all_goals rfl

@[simp] theorem W.kept_loseResv (l2 line : Nat) : (w.loseResv l2 line).kept = w.kept := by
  unfold W.loseResv
  exact kept_foldl _ _ _ (fun w c => W.kept_modCore w c _ (fun _ => rfl))

@[simp] theorem W.kept_setDir (line : Nat) (e : Option DirEntry) : (w.setDir line e).kept = w.kept := W.kept_modCoh _ _

@[simp] theorem W.kept_l2Put (l2 line : Nat) (st : Option LineSt) : (w.l2Put l2 line st).kept = w.kept := by
  unfold W.l2Put; split <;> rfl

@[simp] theorem W.kept_predSnoop (l2 line : Nat) : (w.predSnoop l2 line).kept = w.kept := by
  unfold W.predSnoop
  apply kept_foldl; intro w c; split
  · exact kept_ite (W.kept_modCore w c _ fun _ => rfl) rfl
  · rfl

@[simp] theorem W.kept_snoopInv (l2 line : Nat) : (w.snoopInv l2 line).kept = w.kept := by
  unfold W.snoopInv; simp

@[simp] theorem W.kept_snoopS (l2 line : Nat) : (w.snoopS l2 line).kept = w.kept := by
  unfold W.snoopS; split <;> simp

@[simp] theorem W.kept_invalidateOthers (line : Nat) (but : Option Nat) : (w.invalidateOthers line but).kept = w.kept := by
  unfold W.invalidateOthers; split
  · rfl
  · exact kept_foldl _ _ _ (fun w h => W.kept_snoopInv w _ _)

@[simp] theorem W.kept_backInvalidate (line : Nat) : (w.backInvalidate line).kept = w.kept := by
  unfold W.backInvalidate; simp

@[simp] theorem W.kept_dirRoom (line : Nat) : (w.dirRoom line).kept = w.kept := by
  unfold W.dirRoom; dsimp only
  split
  · rfl
  · split
    · simp
    · split
      · simp only [W.kept_backInvalidate]; exact kept_foldl _ _ _ (fun w p => rfl)
      · exact kept_foldl _ _ _ (fun w p => rfl)

@[simp] theorem W.kept_track (line : Nat) (owner : Option Nat) (owned : Bool) (sharers : List Nat) :
    (w.track line owner owned sharers).kept = w.kept := by
  unfold W.track; split <;> simp

@[simp] theorem W.kept_uncover (c : CLine) : (w.uncover c).kept = w.kept := by
  unfold W.uncover; split
  · split <;> simp
  · rfl

@[simp] theorem W.kept_evictSnp (s : Nat) (c : CLine) : (w.evictSnp s c).kept = w.kept := by
  unfold W.evictSnp; dsimp only; split
  · split <;> simp
  · simp

@[simp] theorem W.kept_snpFill (line : Nat) (streaming : Bool) (st : LineSt) : (w.snpFill line streaming st).kept = w.kept := by
  unfold W.snpFill; dsimp only; split
  · rfl
  · split
    · simp
    · split
      · rfl
      · simp only [W.kept_modCoh]; split <;> simp

@[simp] theorem W.kept_takeBack (line : Nat) : (w.takeBack line).kept = w.kept := by
  unfold W.takeBack; split <;> simp

@[simp] theorem W.kept_evictNotice (l2 : Nat) (c : CLine) : (w.evictNotice l2 c).kept = w.kept := by
  have h : (match c.stale with | some x => if c.st = LineSt.M then w.putLine c.line x else w | none => w).kept = w.kept := by
    split
    · split <;> simp
    · rfl
  unfold W.evictNotice; dsimp only
  split
  · exact h
  · split
    · exact h
    · simp only [W.kept_track]
      split
      · rw [W.kept_snpFill]; exact h
      · exact h

@[simp] theorem W.kept_l2Own (l2 world line : Nat) : (w.l2Own l2 world line).kept = w.kept := by
  unfold W.l2Own; split
  · split
    · rfl
    · split <;> simp
  · rfl

@[simp] theorem W.kept_l2Fill (l2 world line : Nat) (st : LineSt) (streaming : Bool) : (w.l2Fill l2 world line st streaming).kept = w.kept := by
  unfold W.l2Fill; split
  · rfl
  · split
    · simp only [W.kept_modCoh]
      split
      · split
        · split <;> simp
        · rfl
      · rfl
    · split
      · rfl
      · simp only [W.kept_modCoh]; split <;> simp

@[simp] theorem W.kept_rdS (l2 world line : Nat) (streaming : Bool) : (w.rdS l2 world line streaming).kept = w.kept := by
  unfold W.rdS; dsimp only; split
  · simp only [W.kept_l2Fill, W.kept_snpFill, W.kept_track]
    split
    · split <;> simp
    · rfl
  · simp

@[simp] theorem W.kept_rdX (l2 world line : Nat) : (w.rdX l2 world line).kept = w.kept := by
  unfold W.rdX; simp

@[simp] theorem W.kept_upg (l2 world line : Nat) : (w.upg l2 world line).kept = w.kept := W.kept_rdX w l2 world line

@[simp] theorem W.kept_rdNC (line : Nat) (alloc : Bool) : (w.rdNC line alloc).kept = w.kept := by
  unfold W.rdNC; split <;> simp

@[simp] theorem W.kept_wrHome (line : Nat) (alloc : Bool) : (w.wrHome line alloc).kept = w.kept := by
  unfold W.wrHome; dsimp only; split <;> simp

@[simp] theorem W.kept_dirForget (l2 line : Nat) : (w.dirForget l2 line).kept = w.kept := by
  unfold W.dirForget; split <;> simp

@[simp] theorem W.kept_staleBack (x : L1Line) : (w.staleBack x).kept = w.kept := by
  unfold W.staleBack; split
  · split <;> simp
  · rfl

@[simp] theorem W.kept_dl1Fill (c : CoreId) (set : Nat) (e : L1Line) : (w.dl1Fill c set e).kept = w.kept := by
  unfold W.dl1Fill
  extract_lets tt k w1
  refine W.kept_core (fun _ => rfl) ?_
  simp only [w1]; split <;> simp

@[simp] theorem W.kept_prefetch (c : CoreId) (who : Who) (line : Nat) (stride : Int) : (w.prefetch c who line stride).kept = w.kept := by
  unfold W.prefetch
  split
  apply kept_foldl; intro w k
  exact kept_ite rfl (kept_ite rfl (kept_ite (W.kept_bump _ _ _ _) (kept_ite rfl (W.kept_rdS _ _ _ _ _))))

@[simp] theorem W.kept_coreTouch (c : CoreId) (who : Who) (pc pa : Nat) (store train : Bool) : (w.coreTouch c who pc pa store train).kept = w.kept := by
  unfold W.coreTouch
  extract_lets w0 line x l2 set hit en w1 w2 w3 w4 wg w5 pfEn
  have h0 : w0.kept = w.kept := W.kept_cxlNote _ _
  have h1 : w1.kept = w.kept := W.kept_place rfl h0
  have h2 : w2.kept = w.kept := (W.kept_l2Own _ _ _ _).trans (kept_ite ((W.kept_coreEvent _ _ _ _ _).trans h0) h0)
  have h3 : w3.kept = w.kept := kept_ite ((W.kept_coreEvent _ _ _ _ _).trans h2) ((W.kept_l2Young _ _ _).trans h2)
  have h4 : w4.kept = w.kept := by
    refine kept_ite ?_ ?_ <;> split <;> simp [h3]
  have h5 : w5.kept = w.kept := (W.kept_dl1Fill _ _ _ _).trans h4
  refine kept_ite (kept_ite ?_ h1) (kept_ite (kept_ite ?_ ?_) (kept_ite h4 (kept_ite ?_ h5)))
  · split <;> simp [h1]
  · simp [h0]
  · simp [h0]
  · have h6 : w5.fresh.2.kept = w.kept := (W.kept_fresh _).trans h5
    generalize w5.fresh = q at h6 ⊢
    obtain ⟨v, w6⟩ := q
    dsimp only at h6 ⊢
    have h7 := fun es => (W.kept_modCore w6 c (fun x => { x with pf := es }) fun _ => rfl).trans h6
    split
    · exact (W.kept_prefetch _ _ _ _ _).trans (h7 _)
    · exact h7 _

/-! ### Checkpoints, halts and the end of an instruction -/

@[simp] theorem W.kept_detLoss (c : CoreId) (reason : Nat) : (w.detLoss c reason).kept = w.kept := by
  unfold W.detLoss
  refine W.kept_core (fun x => ?_) rfl
  unfold Core.detLoss; split <;> rfl

@[simp] theorem W.kept_undoDrop (p off n : Nat) : (w.undoDrop p off n).kept = w.kept := by
  unfold W.undoDrop
  exact kept_ite (W.kept_core (fun _ => rfl) rfl) rfl

@[simp] theorem W.kept_setStale (c : CoreId) (line : Nat) (l1 : Bool) (s : List Byte × List Tag) : (w.setStale c line l1 s).kept = w.kept := by
  unfold W.setStale
  refine kept_ite (W.kept_core (fun x => ?_) rfl) ?_
  · split <;> rfl
  · split
    · exact W.kept_modCoh _ _
    · rfl

@[simp] theorem W.kept_readyWrite (h : HeldStore) : (w.readyWrite h).kept = w.kept := by
  unfold W.readyWrite
  extract_lets base d
  exact kept_ite (W.kept_putBytes _ _ _) rfl

@[simp] theorem W.kept_meshStore (c : CoreId) (h : HeldStore) : (w.meshStore c h).kept = w.kept := by
  unfold W.meshStore
  extract_lets put line
  have hput : ∀ (v : W) (a : Nat), (put v a).kept = v.kept := fun v a =>
    (kept_foldl _ _ _ fun w p => W.kept_putTag w _ _).trans (W.kept_putBytes _ _ _)
  split
  · extract_lets w1 w2
    have h1 : w1.kept = w.kept := kept_foldl _ _ _ fun w l => W.kept_breakResv w _ _ _
    refine (kept_foldl _ _ _ fun w q => hput _ _).trans ?_
    simp [w2, h1]
  · refine kept_ite ?_ ?_
    · simp [hput]
    · split
      · simp
      · simp [hput]

@[simp] theorem W.kept_release (c : CoreId) : (w.release c).kept = w.kept := by
  unfold W.release
  refine W.kept_core (fun _ => rfl) ?_
  exact (kept_foldl _ _ _ fun w h => W.kept_meshStore w _ _).trans (W.kept_core (fun _ => rfl) rfl)

@[simp] theorem W.kept_checkpoint (c : CoreId) : (w.checkpoint c).kept = w.kept := by
  unfold W.checkpoint
  split
  · rfl
  · rename_i p
    extract_lets w1
    have h : w1.kept = w.kept := W.kept_core (fun _ => rfl) (W.kept_release w _)
    split
    · exact kept_ite ((W.kept_modeSt _ _).trans h) h
    · exact h

@[simp] theorem W.kept_haltNow (l p : Nat) : (w.haltNow l p).kept = w.kept := by
  unfold W.haltNow
  extract_lets c w1 ls w2 w3 tenant
  have h1 : w1.kept = w.kept := W.kept_core (fun _ => rfl) (W.kept_checkpoint _ _)
  have h2 : w2.kept = w.kept := (kept_foldl _ _ _ fun w k => W.kept_set w _ _ _).trans h1
  simp [w3, h2]

@[simp] theorem W.kept_boundary (c : CoreId) : (w.boundary c).kept = w.kept := by
  unfold W.boundary
  split
  · rfl
  · split
    · rfl
    · exact kept_ite (W.kept_haltNow _ _ _) rfl

theorem W.keptF_core {w : W} {c : CoreId} {f : Core → Core} {k : Kept} (hf : ∀ x, { still (f x) with tlb := [] } = { still x with tlb := [] })
    (h : w.keptF = k) : (w.modCore c f).keptF = k := by
  rw [← h]
  simp only [W.keptF, W.kept, W.modCore, W.setCore_now, W.setCore_fuse, W.setCore_mem, W.setCore_dev]
  congr 1
  funext q
  by_cases hq : q = coreKey c
  · subst hq; rw [Tab.getD_putD_self]; exact hf _
  · rw [Tab.getD_putD_ne _ _ _ _ hq]

@[simp] theorem W.keptF_tlbGet (c : CoreId) (world va : Nat) : (w.tlbGet c world va).1.keptF = w.keptF := by
  unfold W.tlbGet
  split
  · rfl
  · extract_lets w1
    have h1 : w1.keptF = w.keptF := W.keptF_of_kept (by simp [w1])
    split
    · exact h1
    · exact W.keptF_core (fun _ => rfl) h1

@[simp] theorem W.keptF_vaSpot (c : CoreId) (world : Nat) (acc : Acc3) (va n size : Nat) (nodev : Bool) :
    (w.vaSpot c world acc va n size nodev).1.keptF = w.keptF := by
  unfold W.vaSpot
  split
  · split <;> rfl
  · extract_lets w1
    have h1 : w1.keptF = w.keptF := W.keptF_of_kept (W.kept_detLoss _ _ _)
    have h2 := (W.keptF_tlbGet w1 c world va).trans h1
    split
    · rename_i h; rw [h] at h2; exact h2
    · rename_i h; rw [h] at h2; split <;> exact h2

@[simp] theorem W.kept_fetchTouch (c : CoreId) (world pa : Nat) : (w.fetchTouch c world pa).kept = w.kept := by
  unfold W.fetchTouch
  extract_lets x line set en hit w1 w2
  have h1 : w1.kept = w.kept := (W.kept_l2Own _ _ _ _).trans (kept_ite (W.kept_coreEvent _ _ _ _ _) rfl)
  have h2 : w2.kept = w.kept := kept_ite (by simp [h1]) ((W.kept_l2Young _ _ _).trans h1)
  exact kept_ite (W.kept_place rfl rfl) (kept_ite (by simp) (kept_ite h2 (W.kept_core (fun _ => rfl) h2)))

@[simp] theorem W.keptF_fetch (c : CoreId) : (w.fetch c).1.keptF = w.keptF := by
  unfold W.fetch
  extract_lets x pc
  split
  · extract_lets inKernel
    split
    · rfl
    · exact W.keptF_of_kept (W.kept_fetchTouch _ _ _ _)
  · rename_i p
    split
    · rfl
    · have h := W.keptF_vaSpot w (.crn p) x.cworld .ex pc 4 0 true
      split
      · rename_i he; rw [he] at h; exact h
      · rename_i he; rw [he] at h
        extract_lets tag
        split
        · exact h
        · split
          · exact (W.keptF_of_kept (W.kept_fetchTouch _ _ _ _)).trans h
          · exact h

@[simp] theorem W.kept_answerHeld (c : CoreId) : (w.answerHeld c).kept = w.kept := by
  unfold W.answerHeld
  refine kept_ite rfl ?_
  exact kept_foldl _ _ _ fun w d => by simp

@[simp] theorem W.kept_countRetired (c : CoreId) (world : Nat) : (w.countRetired c world).kept = w.kept := by
  unfold W.countRetired
  extract_lets w1
  have h1 : w1.kept = w.kept := by
    simp only [w1]; split <;> simp
  simp [h1]

@[simp] theorem W.kept_intervalCkpt (c : CoreId) : (w.intervalCkpt c).kept = w.kept := by
  unfold W.intervalCkpt
  split
  · rfl
  · exact kept_ite (W.kept_checkpoint _ _) rfl

end

end Sys2Proof.Machine
end

