-- ==== Sys2Proof/Laws/Mem.lean ====
section
/-! SUPPORT. The laws of memory: reads after writes, the canonical form, and how the changes that a command gathers read within it. -/

namespace Sys2Proof.Machine

open Sys2Proof

/-! ### One change -/

theorem Mem.byte_write_self (m : Mem) (a : Nat) (b : Byte) : (m.write (.byte a b)).byte a = b := by
  simp [Mem.write, Mem.byte]

theorem Mem.byte_write_ne (m : Mem) {a c : Nat} (b : Byte) (h : c ≠ a) : (m.write (.byte a b)).byte c = m.byte c := by
  simp [Mem.write, Mem.byte, Tab.getD_putD_ne _ _ _ _ h]

@[simp] theorem Mem.byte_write_tag (m : Mem) (wi : Nat) (t : Tag) (c : Nat) : (m.write (.tag wi t)).byte c = m.byte c := rfl

theorem Mem.tag_write_self (m : Mem) (wi : Nat) (t : Tag) : (m.write (.tag wi t)).tag wi = t := by
  simp [Mem.write, Mem.tag]

theorem Mem.tag_write_ne (m : Mem) {wi j : Nat} (t : Tag) (h : j ≠ wi) : (m.write (.tag wi t)).tag j = m.tag j := by
  simp [Mem.write, Mem.tag, Tab.getD_putD_ne _ _ _ _ h]

@[simp] theorem Mem.tag_write_byte (m : Mem) (a : Nat) (b : Byte) (j : Nat) : (m.write (.byte a b)).tag j = m.tag j := rfl

/-- One change keeps the canonical form. -/
theorem Mem.wf_write {m : Mem} (c : MemWrite) (h : m.wf = true) : (m.write c).wf = true := by
  simp only [Mem.wf, Bool.and_eq_true] at h ⊢
  cases c with
  | byte a b => exact ⟨Tab.wf_putD a b h.1, h.2⟩
  | tag wi t => exact ⟨h.1, Tab.wf_putD wi t h.2⟩

/-- A byte after one change: the change's byte where it changes that address, else the old one. -/
theorem Mem.byte_write (m : Mem) (c : MemWrite) (a : Nat) : (m.write c).byte a = (c.byteAt a).getD (m.byte a) := by
  cases c with
  | byte b v =>
    by_cases h : b = a
    · subst h; simp [MemWrite.byteAt, Mem.byte_write_self]
    · simp [MemWrite.byteAt, h, Mem.byte_write_ne m v (Ne.symm h)]
  | tag wi t => rfl

/-- A tag after one change. -/
theorem Mem.tag_write (m : Mem) (c : MemWrite) (j : Nat) : (m.write c).tag j = (c.tagAt j).getD (m.tag j) := by
  cases c with
  | byte b v => rfl
  | tag wi t =>
    by_cases h : wi = j
    · subst h; simp [MemWrite.tagAt, Mem.tag_write_self]
    · simp [MemWrite.tagAt, h, Mem.tag_write_ne m t (Ne.symm h)]

/-! ### Many changes -/

@[simp] theorem Mem.apply_nil (m : Mem) : m.apply [] = m := rfl

theorem Mem.apply_append (m : Mem) (a b : List MemWrite) : m.apply (a ++ b) = (m.apply a).apply b := by
  simp [Mem.apply, List.foldl_append]

/-- Any changes keep the canonical form. -/
theorem Mem.wf_apply {m : Mem} (ws : List MemWrite) (h : m.wf = true) : (m.apply ws).wf = true := by
  induction ws generalizing m with
  | nil => exact h
  | cons c t ih => exact ih (Mem.wf_write c h)

/-- Memory after a command's changes reads at each address as the command itself saw it last. -/
theorem Mem.byte_apply_reverse (m : Mem) (ws : List MemWrite) (a : Nat) :
    (m.apply ws.reverse).byte a = (ws.findSome? (MemWrite.byteAt a)).getD (m.byte a) := by
  induction ws with
  | nil => rfl
  | cons c t ih =>
    rw [List.reverse_cons, Mem.apply_append]
    show ((m.apply t.reverse).write c).byte a = _
    rw [Mem.byte_write, ih, List.findSome?_cons]
    cases c.byteAt a <;> rfl

/-- The same for tags. -/
theorem Mem.tag_apply_reverse (m : Mem) (ws : List MemWrite) (j : Nat) :
    (m.apply ws.reverse).tag j = (ws.findSome? (MemWrite.tagAt j)).getD (m.tag j) := by
  induction ws with
  | nil => rfl
  | cons c t ih =>
    rw [List.reverse_cons, Mem.apply_append]
    show ((m.apply t.reverse).write c).tag j = _
    rw [Mem.tag_write, ih, List.findSome?_cons]
    cases c.tagAt j <;> rfl

/-! ### Reads within a command -/

theorem W.byte_putByte_self (w : W) (a : Nat) (b : Byte) : (w.putByte a b).byte a = b := by
  simp [W.putByte, W.byte, MemWrite.byteAt]

theorem W.byte_putByte_ne (w : W) {a c : Nat} (b : Byte) (h : c ≠ a) : (w.putByte a b).byte c = w.byte c := by
  simp [W.putByte, W.byte, MemWrite.byteAt, Ne.symm h]

@[simp] theorem W.byte_putTag (w : W) (wi : Nat) (t : Tag) (c : Nat) : (w.putTag wi t).byte c = w.byte c := by
  simp [W.putTag, W.byte, List.findSome?_cons, MemWrite.byteAt]

theorem W.tagOf_putTag_self (w : W) (wi : Nat) (t : Tag) : (w.putTag wi t).tagOf wi = t := by
  simp [W.putTag, W.tagOf, MemWrite.tagAt]

theorem W.tagOf_putTag_ne (w : W) {wi j : Nat} (t : Tag) (h : j ≠ wi) : (w.putTag wi t).tagOf j = w.tagOf j := by
  simp [W.putTag, W.tagOf, MemWrite.tagAt, Ne.symm h]

@[simp] theorem W.tagOf_putByte (w : W) (a : Nat) (b : Byte) (j : Nat) : (w.putByte a b).tagOf j = w.tagOf j := by
  simp [W.putByte, W.tagOf, List.findSome?_cons, MemWrite.tagAt]

/-- Bytes outside a written range are unchanged. -/
theorem W.byte_putBytes_out (w : W) (a : Nat) (bs : List Byte) {c : Nat} (h : c < a ∨ a + bs.length ≤ c) :
    (w.putBytes a bs).byte c = w.byte c := by
  induction bs generalizing w a with
  | nil => rfl
  | cons b t ih =>
    simp only [List.length_cons] at h
    rw [W.putBytes, ih _ _ (by omega), W.byte_putByte_ne w b (by omega)]

/-- A byte of a written range reads as written. -/
theorem W.byte_putBytes_in (w : W) (a : Nat) (bs : List Byte) {i : Nat} (h : i < bs.length) :
    (w.putBytes a bs).byte (a + i) = bs[i] := by
  induction bs generalizing w a i with
  | nil => simp at h
  | cons b t ih =>
    cases i with
    | zero =>
      rw [W.putBytes, W.byte_putBytes_out _ _ _ (by omega)]
      simpa using W.byte_putByte_self w a b
    | succ i =>
      rw [W.putBytes, show a + (i + 1) = a + 1 + i by omega, ih _ _ (by simpa using h)]
      rfl

end Sys2Proof.Machine
end

