-- ==== Sys2Proof/Laws/Quiet.lean ====
section
/-! SUPPORT. While no core holds a store back and no cache holds a copy from before a disable, the cache protocol, counters, trace, checkpoints
and halts leave memory alone. -/

namespace Sys2Proof.Machine

open Sys2Proof Sys2Proof.Safety

/-! ### Tables whose entries all satisfy a property -/

section
variable {α : Type} {P : α → Prop} {t : Tab α}

theorem allVals_find (h : AllVals P t) {k : Nat} {v : α} (hf : Tab.find? t k = some v) : P v := by
  induction t with
  | nil => simp at hf
  | cons p t ih =>
    obtain ⟨j, u⟩ := p
    simp only [Tab.find?] at hf
    split at hf
    · cases hf; exact h _ (List.mem_cons_self ..)
    · exact ih (fun q hq => h q (List.mem_cons_of_mem _ hq)) hf

theorem allVals_put (h : AllVals P t) (k : Nat) {v : α} (hv : P v) : AllVals P (Tab.put t k v) := by
  induction t with
  | nil => intro p hp; simp [Tab.put] at hp; subst hp; exact hv
  | cons q t ih =>
    obtain ⟨j, u⟩ := q
    have ht : AllVals P t := fun p hp => h p (List.mem_cons_of_mem _ hp)
    have hu : P u := h (j, u) (List.mem_cons_self ..)
    intro p hp
    simp only [Tab.put] at hp
    split at hp
    · rcases List.mem_cons.1 hp with rfl | hp
      · exact hv
      · exact h p hp
    · split at hp
      · rcases List.mem_cons.1 hp with rfl | hp
        · exact hv
        · exact ht p hp
      · rcases List.mem_cons.1 hp with rfl | hp
        · exact hu
        · exact ih ht p hp

theorem allVals_del (h : AllVals P t) (k : Nat) : AllVals P (Tab.del t k) := by
  induction t with
  | nil => exact h
  | cons q t ih =>
    obtain ⟨j, u⟩ := q
    have ht : AllVals P t := fun p hp => h p (List.mem_cons_of_mem _ hp)
    intro p hp
    simp only [Tab.del] at hp
    split at hp
    · exact ih ht p hp
    · rcases List.mem_cons.1 hp with rfl | hp
      · exact h _ (List.mem_cons_self ..)
      · exact ih ht p hp

theorem allVals_putD [DecidableEq α] (h : AllVals P t) (d : α) (k : Nat) {v : α} (hv : P v) : AllVals P (Tab.putD d t k v) := by
  unfold Tab.putD; split
  · exact allVals_del h k
  · exact allVals_put h k hv

theorem allVals_modify (h : AllVals P t) (k : Nat) {f : α → α} (hf : ∀ v, P v → P (f v)) : AllVals P (Tab.modify t k f) := by
  unfold Tab.modify; split
  · rename_i v hv; exact allVals_put h k (hf v (allVals_find h hv))
  · exact h

theorem allVals_mapVal (h : AllVals P t) {f : Nat → α → α} (hf : ∀ k v, P v → P (f k v)) : AllVals P (Tab.mapVal t f) := by
  intro p hp
  obtain ⟨q, hq, rfl⟩ := List.mem_map.1 hp
  exact hf _ _ (h q hq)

theorem allVals_foldl {β : Type} {f : Tab α → β → Tab α} (l : List β) (h : AllVals P t) (hf : ∀ t x, AllVals P t → AllVals P (f t x)) :
    AllVals P (l.foldl f t) := by
  induction l generalizing t with
  | nil => exact h
  | cons x l ih => exact ih (hf t x h)

theorem allVals_getD (h : AllVals P t) (k : Nat) {d : α} (hd : P d) : P (Tab.getD t k d) := by
  unfold Tab.getD
  cases hf : Tab.find? t k with
  | none => exact hd
  | some v => exact allVals_find h hf

end

/-! ### Calm changes -/

/-- A change that keeps the state quiet and writes no memory. -/
def Calm (w v : W) : Prop := Quiet v ∧ v.ws = w.ws

theorem Calm.rfl {w : W} (h : Quiet w) : Calm w w := ⟨h, Eq.refl _⟩

theorem Calm.trans {u v w : W} (a : Calm u v) (b : Calm v w) : Calm u w := ⟨b.1, b.2.trans a.2⟩

theorem calm_of {w v : W} (h : Quiet w) (hw : v.ws = w.ws) (hc : v.dev.cores = w.dev.cores) (h2 : v.dev.coh.l2 = w.dev.coh.l2)
    (hs : v.dev.coh.snp = w.dev.coh.snp) : Calm w v := by
  refine ⟨?_, hw⟩
  unfold Quiet at h ⊢
  rw [hc, h2, hs]; exact h

theorem calm_ite {p : Prop} [Decidable p] {u a b : W} (ha : Calm u a) (hb : Calm u b) : Calm u (if p then a else b) := by
  split <;> assumption

theorem calm_foldl {α : Type} {l : List α} {f : W → α → W} {u w : W} (h : ∀ w x, Quiet w → Calm w (f w x)) (hw : Calm u w) :
    Calm u (l.foldl f w) := by
  induction l generalizing w with
  | nil => exact hw
  | cons x t ih => exact ih (hw.trans (h w x hw.1))

theorem quiet_core {w : W} (h : Quiet w) (c : CoreId) : CoreQuiet (w.core c) :=
  allVals_getD h.1 _ ⟨rfl, fun _ hp => absurd hp List.not_mem_nil⟩

theorem calm_place {u w : W} {c : CoreId} {x : Core} (h : Calm u w) (hx : CoreQuiet x) : Calm u (w.setCore c x) :=
  ⟨⟨allVals_putD h.1.1 _ _ hx, h.1.2⟩, h.2⟩

theorem calm_core {u w : W} {c : CoreId} {f : Core → Core} (h : Calm u w) (hf : ∀ x, CoreQuiet x → CoreQuiet (f x)) : Calm u (w.modCore c f) :=
  calm_place h (hf _ (quiet_core h.1 c))

theorem calm_coh {u w : W} {f : CohSt → CohSt} (h : Calm u w) (h2 : AllVals (fun e => e.stale = none) (f w.dev.coh).l2)
    (hs : AllVals (fun e => e.stale = none) (f w.dev.coh).snp) : Calm u (w.modCoh f) :=
  ⟨⟨h.1.1, h2, hs⟩, h.2⟩

/-! ### What the surroundings of an instruction do -/

section
variable {u w : W} (h : Calm u w)
include h

theorem calm_setReg (r : RegName) (i : Nat) (v : Word) : Calm u (w.setReg r i v) := h.trans (calm_of h.1 rfl rfl rfl rfl)
theorem calm_set (f : Fld) (v i : Nat) : Calm u (w.set f v i) := calm_setReg h _ _ _
theorem calm_bump (f : Fld) (k i : Nat) : Calm u (w.bump f k i) := calm_set h _ _ _
theorem calm_modeSt (f : ModeSt → ModeSt) : Calm u (w.modeSt f) := h.trans (calm_of h.1 rfl rfl rfl rfl)
theorem calm_modTrc (f : TrcSt → TrcSt) : Calm u (w.modTrc f) := h.trans (calm_of h.1 rfl rfl rfl rfl)
theorem calm_setTrcSrc (k : Nat) (x : TrcSrc) : Calm u (w.setTrcSrc k x) := calm_modTrc h _
theorem calm_modDbg (f : DbgSt → DbgSt) : Calm u (w.modDbg f) := h.trans (calm_of h.1 rfl rfl rfl rfl)
theorem calm_unitOut (k : Nat) : Calm u (w.unitOut k) := h.trans (calm_of h.1 rfl rfl rfl rfl)

theorem calm_event (k : PmuKind) (idx ev n world : Nat) : Calm u (w.event k idx ev n world) := by
  unfold W.event
  split
  extract_lets w1
  have h1 : Calm u w1 := calm_foldl (fun w x hq => calm_ite (calm_setReg (Calm.rfl hq) _ _ _) (Calm.rfl hq)) h
  unfold W.pmuWorld; split
  · exact calm_ite (h1.trans (calm_of h1.1 rfl rfl rfl rfl)) h1
  · exact h1

theorem calm_coreEvent (c : CoreId) (ev k world : Nat) : Calm u (w.coreEvent c ev k world) := by
  unfold W.coreEvent; split <;> exact calm_event h _ _ _ _ _

theorem calm_logPush (r : LogRec) : Calm u (w.logPush r) := by
  unfold W.logPush
  extract_lets d m w1
  have h1 : Calm u w1 := h.trans (calm_of h.1 rfl rfl rfl rfl)
  exact calm_ite (calm_bump h1 _ _ _) (h1.trans (calm_of h1.1 rfl rfl rfl rfl))

theorem calm_record (r : Report) : Calm u (w.record r).1 := by
  unfold W.record
  extract_lets c pend esc lv w1 w2 w3 w4 w5 w6 fl l w7
  have h1 : Calm u w1 := calm_set h _ _ _
  have h2 : Calm u w2 := calm_ite (calm_set h1 _ _ _) h1
  have h3 : Calm u w3 := calm_set (calm_set (calm_set h _ _ _) _ _ _) _ _ _
  have h4 : Calm u w4 := calm_set (calm_set (calm_set h3 _ _ _) _ _ _) _ _ _
  have h5 : Calm u w5 := calm_ite (calm_set h2 _ _ _) (calm_set h4 _ _ _)
  exact calm_set (calm_logPush (calm_bump h5 _ _ _) _) _ _ _

theorem calm_trcRaw (src : Nat) (p : List Byte) : Calm u (w.trcRaw src p) := by
  unfold W.trcRaw
  extract_lets t x w1
  have h1 : Calm u w1 := calm_setTrcSrc h _ _
  refine calm_ite (calm_modTrc h _) (calm_ite ?_ (calm_ite h1 ?_))
  · split; exact calm_modTrc h _
  · exact calm_record (calm_modTrc h1 _) _

theorem calm_trcSync (src : Nat) : Calm u (w.trcSync src) := by
  unfold W.trcSync
  exact calm_setTrcSrc (calm_trcRaw h _ _) _ _

theorem calm_trcEmit (src world type info : Nat) (pay : List Byte) : Calm u (w.trcEmit src world type info pay) := by
  unfold W.trcEmit
  extract_lets hd put x w1 x1 w2 w3 w4 x2 w5
  have hput : ∀ (v : W) (p : List Byte), Calm u v → Calm u (put v p) := fun v p hv => calm_setTrcSrc (calm_trcRaw hv _ _) _ _
  have h2 : Calm u w2 := calm_ite h (calm_setTrcSrc (hput _ _ h) _ _)
  have h3 : Calm u w3 := calm_ite (calm_trcSync h2 _) h2
  have h5 : Calm u w5 := calm_ite h3 (calm_setTrcSrc (hput _ _ h3) _ _)
  exact calm_ite h (hput _ _ h5)

theorem calm_transition (m rank : Nat) : Calm u (w.transition m rank) := by
  unfold W.transition
  extract_lets old at_ w1 w2 w3
  have h2 : Calm u w2 := calm_set (calm_set (calm_set (calm_set h _ _ _) _ _ _) _ _ _) _ _ _
  exact calm_modeSt (calm_trcEmit (calm_set h2 _ _ _) _ _ _ _ _) _

theorem calm_fatal (l : LogRec) : Calm u (w.fatal l) := by
  unfold W.fatal
  extract_lets ws w1 w2
  have h1 : Calm u w1 := calm_foldl (fun w k hq => calm_set (Calm.rfl hq) _ _ _) h
  have h2 : Calm u w2 := calm_ite h1 (calm_set (calm_transition h1 _ _) _ _ _)
  exact calm_modeSt h2 _

theorem calm_reportNow (r : Report) : Calm u (w.reportNow r) := by
  unfold W.reportNow
  have h1 := calm_record h r
  split
  rename_i w1 lv l he
  rw [he] at h1
  extract_lets w2
  have h2 : Calm u w2 := calm_ite (calm_unitOut h1 _) h1
  exact calm_ite (calm_fatal h2 _) h2

theorem calm_report (r : Report) : Calm u (w.report r) := by
  unfold W.report
  exact calm_ite h (calm_reportNow h r)

theorem calm_fresh : Calm u w.fresh.2 := h.trans (calm_of h.1 rfl rfl rfl rfl)

theorem calm_fillAge (streaming : Bool) : Calm u (w.fillAge streaming).2 := by
  unfold W.fillAge; split
  · exact calm_fresh h
  · exact h

theorem calm_snpYoung (line : Nat) : Calm u (w.snpYoung line) := by
  unfold W.snpYoung; split
  · exact calm_coh h h.1.2.1 (allVals_modify h.1.2.2 _ fun _ hv => hv)
  · exact h

theorem calm_l2Young (l2 line : Nat) : Calm u (w.l2Young l2 line) := by
  unfold W.l2Young; split
  · exact calm_coh h (allVals_modify h.1.2.1 _ fun _ hv => hv) h.1.2.2
  · exact h

theorem calm_cxlNote (pa : Nat) : Calm u (w.cxlNote pa) := by
  unfold W.cxlNote; split
  · exact calm_report h _
  · exact h

omit h in
theorem quiet_l1Drop {t : Tab L1Line} (ht : AllVals (fun e => e.stale = none) t) (set line : Nat) :
    AllVals (fun e => e.stale = none) (l1Drop t set line) := by
  unfold l1Drop
  split
  · split
    · split
      · exact ht
      · exact allVals_del ht _
    · exact ht
  · exact ht

omit h in
theorem quiet_l1Mark {t : Tab L1Line} (ht : AllVals (fun e => e.stale = none) t) (set k : Nat) :
    AllVals (fun e => e.stale = none) (l1Mark t set k) := by
  unfold l1Mark
  extract_lets all t1
  have h2 : AllVals (fun e : L1Line => e.stale = none) t1 := by
    simp only [t1]; split
    · refine allVals_foldl _ ht fun t j ht => ?_
      split
      · exact ht
      · exact allVals_modify ht _ fun _ hv => hv
    · exact ht
  exact allVals_modify h2 _ fun _ hv => hv

omit h in
theorem quiet_l1Hit {t : Tab L1Line} (ht : AllVals (fun e => e.stale = none) t) (set line world : Nat) (grant store : Bool) :
    AllVals (fun e => e.stale = none) (l1Hit t set line world grant store) := by
  unfold l1Hit; split
  · exact allVals_modify ht _ fun _ hv => hv
  · exact ht

theorem calm_dropL1s (l2 line : Nat) : Calm u (w.dropL1s l2 line) := by
  unfold W.dropL1s
  exact calm_foldl (fun w c hq => calm_ite (calm_core (Calm.rfl hq) fun x hx => ⟨hx.1, quiet_l1Drop hx.2 _ _⟩) (Calm.rfl hq)) h

theorem calm_breakResv (who : Option CoreId) (tcm : Option Nat) (line : Nat) : Calm u (w.breakResv who tcm line) := by
  refine ⟨⟨fun p hp => ?_, h.1.2⟩, h.2⟩
  obtain ⟨q, hq, rfl⟩ := List.mem_map.1 hp
  have hx := h.1.1 q hq
  dsimp only
  repeat' split
  all_goals exact hx

theorem calm_loseResv (l2 line : Nat) : Calm u (w.loseResv l2 line) := by
  unfold W.loseResv
  exact calm_foldl (fun w c hq => calm_core (Calm.rfl hq) fun x hx => hx) h

theorem calm_setDir (line : Nat) (e : Option DirEntry) : Calm u (w.setDir line e) := calm_coh h h.1.2.1 h.1.2.2

theorem calm_l2Put (l2 line : Nat) (st : Option LineSt) : Calm u (w.l2Put l2 line st) := by
  unfold W.l2Put; split
  · exact h
  · refine calm_coh h ?_ h.1.2.2
    split
    · exact allVals_modify h.1.2.1 _ fun _ hv => hv
    · exact allVals_del h.1.2.1 _

theorem calm_predSnoop (l2 line : Nat) : Calm u (w.predSnoop l2 line) := by
  unfold W.predSnoop
  refine calm_foldl (fun w c hq => ?_) h
  split
  · exact calm_ite (calm_core (Calm.rfl hq) fun x hx => hx) (Calm.rfl hq)
  · exact Calm.rfl hq

theorem calm_snoopInv (l2 line : Nat) : Calm u (w.snoopInv l2 line) := by
  unfold W.snoopInv
  exact calm_loseResv (calm_dropL1s (calm_l2Put (calm_predSnoop h _ _) _ _ _) _ _) _ _

theorem calm_snoopS (l2 line : Nat) : Calm u (w.snoopS l2 line) := by
  unfold W.snoopS; split
  · exact calm_l2Put h _ _ _
  · exact calm_l2Put h _ _ _
  · exact h

theorem calm_invalidateOthers (line : Nat) (but : Option Nat) : Calm u (w.invalidateOthers line but) := by
  unfold W.invalidateOthers; split
  · exact h
  · exact calm_foldl (fun w x hq => calm_snoopInv (Calm.rfl hq) _ _) h

theorem calm_backInvalidate (line : Nat) : Calm u (w.backInvalidate line) := by
  unfold W.backInvalidate
  exact calm_bump (calm_setDir (calm_invalidateOthers h _ _) _ _) _ _ _

theorem calm_dirRoom (line : Nat) : Calm u (w.dirRoom line) := by
  unfold W.dirRoom
  extract_lets set w1
  have h1 : Calm u w1 := calm_foldl (fun w p hq => calm_setDir (Calm.rfl hq) _ _) h
  refine calm_ite h ?_
  split
  · exact calm_backInvalidate h _
  · split
    · exact calm_backInvalidate h1 _
    · exact h1

theorem calm_track (line : Nat) (owner : Option Nat) (owned : Bool) (sharers : List Nat) : Calm u (w.track line owner owned sharers) := by
  unfold W.track
  exact calm_ite (calm_setDir h _ _) (calm_setDir (calm_dirRoom h _) _ _)

theorem calm_uncover {c : CLine} (hc : c.stale = none) : Calm u (w.uncover c) := by
  unfold W.uncover; rw [hc]; exact h

theorem calm_evictSnp (s : Nat) {c : CLine} (hc : c.stale = none) : Calm u (w.evictSnp s c) := by
  unfold W.evictSnp
  extract_lets w1 held w2
  have h1 : Calm u w1 := calm_uncover h hc
  have h2 : Calm u w2 := calm_ite (calm_bump h1 _ _ _) h1
  exact calm_ite (calm_coh h2 h2.1.2.1 h2.1.2.2) h1

omit h in
theorem quiet_pickWay {t t' : Tab CLine} (ht : AllVals (fun e => e.stale = none) t) {key : Nat → Nat} {ok : Nat → Bool} {repl : Bool} {l k l' : Nat}
    (hp : pickWay t key ok repl l = some (k, t', l')) : AllVals (fun e => e.stale = none) t' := by
  unfold pickWay at hp
  extract_lets elig ways lf at hp
  split at hp
  · split at hp
    · cases hp; exact ht
    · cases hn : nextEligible ok (lf % 16) with
      | none => simp [hn] at hp
      | some k => simp [hn] at hp; rw [← hp.2.1]; exact ht
  · split at hp
    · cases hp
    · simp only [Option.some.injEq, Prod.mk.injEq] at hp
      rw [← hp.2.1]
      exact allVals_foldl _ ht fun t j ht => allVals_modify ht _ fun _ hv => hv

theorem calm_snpFill (line : Nat) (streaming : Bool) (st : LineSt) : Calm u (w.snpFill line streaming st) := by
  unfold W.snpFill
  extract_lets s
  refine calm_ite h ?_
  split
  · refine calm_coh h h.1.2.1 (allVals_modify h.1.2.2 _ fun v hv => ?_)
    dsimp only; split
    · rfl
    · exact hv
  · split
    · exact h
    · rename_i k t l hp
      have ht := quiet_pickWay h.1.2.2 hp
      extract_lets old w1
      have h1 : Calm u w1 := by
        simp only [w1, old]; split
        · rename_i c hc; exact calm_evictSnp h _ (allVals_find ht hc)
        · exact h
      have h2 := calm_fillAge h1 streaming
      generalize w1.fillAge streaming = q at h2
      obtain ⟨age, w2⟩ := q
      exact calm_coh h2 h2.1.2.1 (allVals_put ht _ rfl)

theorem calm_takeBack (line : Nat) : Calm u (w.takeBack line) := by
  unfold W.takeBack
  exact calm_ite (calm_snpFill h _ _ _) h

theorem calm_evictNotice (l2 : Nat) {c : CLine} (hc : c.stale = none) : Calm u (w.evictNotice l2 c) := by
  unfold W.evictNotice
  extract_lets dirty w1 w2 
  have h1 : Calm u w1 := by simp only [w1, hc]; exact h
  have h2 : Calm u w2 := calm_ite (calm_snpFill h1 _ _ _) h1
  split
  · exact h1
  · exact calm_ite h1 (calm_track h2 _ _ _ _)

theorem calm_l2Own (l2 world line : Nat) : Calm u (w.l2Own l2 world line) := by
  unfold W.l2Own; split
  · refine calm_ite h ?_
    split
    · rename_i c hc
      have h1 := calm_evictNotice (calm_loseResv (calm_dropL1s h l2 line) l2 line) l2 (allVals_find h.1.2.1 hc)
      exact calm_coh h1 (allVals_del h1.1.2.1 _) h1.1.2.2
    · exact h
  · exact h

theorem calm_l2Fill (l2 world line : Nat) (st : LineSt) (streaming : Bool) : Calm u (w.l2Fill l2 world line st streaming) := by
  unfold W.l2Fill
  refine calm_ite h ?_
  split
  · extract_lets w1
    have h1 : Calm u w1 := by
      simp only [w1]; split
      · rename_i c hc
        rw [allVals_find h.1.2.1 hc]; exact h
      · exact h
    refine calm_coh h1 (allVals_modify h1.1.2.1 _ fun v hv => ?_) h1.1.2.2
    dsimp only; split
    · rfl
    · exact hv
  · split
    · exact h
    · rename_i k t l hp
      have ht := quiet_pickWay h.1.2.1 hp
      extract_lets old w1
      have h1 : Calm u w1 := by
        simp only [w1, old]; split
        · rename_i c hc; exact calm_evictNotice (calm_loseResv (calm_dropL1s h _ _) _ _) _ (allVals_find ht hc)
        · exact h
      have h2 := calm_fillAge h1 streaming
      generalize w1.fillAge streaming = q at h2
      obtain ⟨age, w2⟩ := q
      refine calm_coh h2 (allVals_put ?_ _ rfl) h2.1.2.2
      simp only [old]; split
      · exact allVals_del ht _
      · exact ht

theorem calm_rdS (l2 world line : Nat) (streaming : Bool) : Calm u (w.rdS l2 world line streaming) := by
  unfold W.rdS
  split
  · extract_lets w1 keep sh w2
    have h1 : Calm u w1 := by
      simp only [w1]; split
      · exact calm_ite h (calm_snoopS h _ _)
      · exact h
    exact calm_l2Fill (calm_snpFill (calm_track h1 _ _ _ _) _ _ _) _ _ _ _ _
  · exact calm_l2Fill (calm_track (calm_snpFill (calm_takeBack h _) _ _ _) _ _ _ _) _ _ _ _ _

theorem calm_rdX (l2 world line : Nat) : Calm u (w.rdX l2 world line) := by
  unfold W.rdX
  exact calm_l2Fill (calm_track (calm_snpYoung (calm_takeBack (calm_invalidateOthers h _ _) _) _) _ _ _ _) _ _ _ _ _

theorem calm_rdNC (line : Nat) (alloc : Bool) : Calm u (w.rdNC line alloc) := by
  unfold W.rdNC
  exact calm_ite (calm_snpFill h _ _ _) (calm_snpYoung h _)

theorem calm_dirForget (l2 line : Nat) : Calm u (w.dirForget l2 line) := by
  unfold W.dirForget; split
  · exact calm_track h _ _ _ _
  · exact h

theorem calm_detLoss (c : CoreId) (reason : Nat) : Calm u (w.detLoss c reason) := by
  unfold W.detLoss
  refine calm_core h fun x hx => ?_
  unfold Core.detLoss; split <;> exact hx

theorem calm_release (c : CoreId) : Calm u (w.release c) := by
  have h1 : Calm u (w.modCore c fun x => { x with out := [] }) := calm_core h fun x hx => ⟨rfl, hx.2⟩
  unfold W.release
  simp only [(quiet_core h.1 c).1, List.foldl_nil]
  exact calm_core h1 fun x hx => hx

theorem calm_checkpoint (c : CoreId) : Calm u (w.checkpoint c) := by
  unfold W.checkpoint
  split
  · exact h
  · extract_lets w1
    have h1 : Calm u w1 := calm_core (calm_release h _) fun x hx => hx
    split
    · exact calm_ite (calm_modeSt h1 _) h1
    · exact h1

theorem calm_haltNow (l p : Nat) : Calm u (w.haltNow l p) := by
  unfold W.haltNow
  extract_lets c w1 ls w2 w3 tenant
  have h1 : Calm u w1 := calm_core (calm_checkpoint h _) fun x hx => hx
  have h2 : Calm u w2 := calm_foldl (fun w k hq => calm_set (Calm.rfl hq) _ _ _) h1
  exact calm_modDbg (calm_detLoss (calm_trcEmit h2 _ _ _ _ _) _ _) _

theorem calm_boundary (c : CoreId) : Calm u (w.boundary c) := by
  unfold W.boundary
  split
  · exact h
  · split
    · exact h
    · exact calm_ite (calm_haltNow h _ _) h

theorem calm_tlbGet (c : CoreId) (world va : Nat) : Calm u (w.tlbGet c world va).1 := by
  unfold W.tlbGet
  split
  · exact h
  · extract_lets w1
    have h1 : Calm u w1 := calm_detLoss (calm_coreEvent h _ _ _ _) _ _
    split
    · exact h1
    · exact calm_core h1 fun x hx => hx

theorem calm_vaSpot (c : CoreId) (world : Nat) (acc : Acc3) (va n size : Nat) (nodev : Bool) : Calm u (w.vaSpot c world acc va n size nodev).1 := by
  unfold W.vaSpot
  split
  · split <;> exact h
  · extract_lets w1
    have h2 := calm_tlbGet (calm_detLoss h c 0) c world va
    split
    · rename_i he; simp only [w1] at he; rw [he] at h2; exact h2
    · rename_i he; simp only [w1] at he; rw [he] at h2; split <;> exact h2

theorem calm_fetchTouch (c : CoreId) (world pa : Nat) : Calm u (w.fetchTouch c world pa) := by
  unfold W.fetchTouch
  extract_lets x line set en hit w1 w2
  have hx : CoreQuiet x := quiet_core h.1 c
  have h1 : Calm u w1 := calm_l2Own (calm_ite (calm_coreEvent h _ _ _ _) h) _ _ _
  have h2 : Calm u w2 := calm_ite (calm_rdS (calm_coreEvent h1 _ _ _ _) _ _ _ _) (calm_l2Young h1 _ _)
  exact calm_ite (calm_place h hx) (calm_ite (calm_rdNC h _ _) (calm_ite h2 (calm_core h2 fun x hx => hx)))

theorem calm_fetch (c : CoreId) : Calm u (w.fetch c).1 := by
  unfold W.fetch
  extract_lets x pc
  split
  · extract_lets inKernel
    split
    · exact h
    · exact calm_fetchTouch h _ _ _
  · rename_i p
    split
    · exact h
    · have h2 := calm_vaSpot h (.crn p) x.cworld .ex pc 4 0 true
      split
      · rename_i he; rw [he] at h2; exact h2
      · rename_i he; rw [he] at h2
        extract_lets tag
        split
        · exact h2
        · split
          · exact calm_fetchTouch h2 _ _ _
          · exact h2

theorem calm_answerHeld (c : CoreId) : Calm u (w.answerHeld c) := by
  unfold W.answerHeld
  refine calm_ite h ?_
  exact calm_foldl (fun w d hq => calm_dirForget (calm_snoopInv (calm_coh (Calm.rfl hq) hq.2.1 hq.2.2) _ _) _ _) h

theorem calm_countRetired (c : CoreId) (world : Nat) : Calm u (w.countRetired c world) := by
  unfold W.countRetired
  extract_lets w1
  have h1 : Calm u w1 := by
    simp only [w1]; split <;> exact calm_setReg h _ _ _
  have h2 := calm_coreEvent (calm_coreEvent h1 c 0x010 1 world) c 0x011 1 world
  unfold W.pmuWorld; split
  · exact calm_ite (h2.trans (calm_of h2.1 rfl rfl rfl rfl)) h2
  · exact h2

theorem calm_intervalCkpt (c : CoreId) : Calm u (w.intervalCkpt c) := by
  unfold W.intervalCkpt
  split
  · exact h
  · exact calm_ite (calm_checkpoint h _) h

end

end Sys2Proof.Machine
end

