-- ==== Sys2Proof/Laws/Run.lean ====
section
/-! SUPPORT. What one TSH-3 instruction does around its own effect: a ready instruction whose effect raises nothing completes, with exactly the
register changes of that effect and the PC moved. -/

namespace Sys2Proof.Machine

open Sys2Proof Sys2Proof.Safety

/-- A change of one core's registers shows in what is kept as exactly that change. -/
theorem W.kept_modCore_eq {w v : W} (h : w.kept = v.kept) (c : CoreId) {f f' : Core → Core} (hf : still (f (w.core c)) = still (f' (v.core c))) :
    (w.modCore c f).kept = (v.modCore c f').kept := by
  have hk := congrArg Kept.cores h
  simp only [W.kept, W.modCore, W.setCore_now, W.setCore_fuse, W.setCore_mem, W.setCore_dev] at h ⊢
  simp only [Kept.mk.injEq] at h ⊢
  refine ⟨h.1, h.2.1, h.2.2.1, ?_⟩
  funext k
  by_cases hq : k = coreKey c
  · subst hq; simp only [Tab.getD_putD_self]; exact hf
  · simp only [Tab.getD_putD_ne _ _ _ _ hq]; exact congrFun hk k

section
variable (w : W)

@[simp] theorem W.kept_issue (c : CoreId) : (w.issue c).kept = w.kept := by
  unfold W.issue
  split
  · split <;> simp
  · rfl

@[simp] theorem keptF_fetched (c : CoreId) : (fetched w c).1.keptF = w.keptF := by
  unfold fetched; rw [W.keptF_fetch]; exact W.keptF_of_kept (W.kept_issue w c)

theorem calm_fetched (c : CoreId) (h : Quiet w) : Calm w (fetched w c).1 := by
  have h1 : Calm w (w.issue c) := by
    unfold W.issue
    split
    · split
      · exact calm_modDbg (Calm.rfl h) _
      · exact Calm.rfl h
    · exact Calm.rfl h
  exact calm_fetch h1 c

/-- The PC with which an instruction that raises nothing ends, where the core goes on. -/
def Flow.target (next : Nat) : Flow → Option Nat
  | .seq => some next
  | .jump a => some a
  | .stay => none
  | .gone => none

/-- The end of an instruction moves the PC and leaves every other register. -/
theorem W.kept_retire (c : CoreId) (world next : Nat) (f : Flow) :
    (w.retire c world next f).kept =
      (match f.target next with | some a => (w.modCore c fun x => { x with pc := BitVec.ofNat 64 a }) | none => w).kept := by
  have go : ∀ a, ((((w.modCore c fun x => { x with pc := BitVec.ofNat 64 a, since := x.since + 1 }).countRetired c world).intervalCkpt c).boundary c).kept
      = (w.modCore c fun x => { x with pc := BitVec.ofNat 64 a }).kept := by
    intro a
    simp only [W.kept_boundary, W.kept_intervalCkpt, W.kept_countRetired]
    refine W.kept_modCore_eq rfl c ?_
    rfl
  cases f with
  | seq => exact go next
  | jump a => exact go a
  | stay => exact W.kept_boundary w c
  | gone => exact W.kept_countRetired w c world

theorem calm_retire {u : W} (h : Calm u w) (c : CoreId) (world next : Nat) (f : Flow) : Calm u (w.retire c world next f) := by
  have go : ∀ a, Calm u ((((w.modCore c fun x => { x with pc := BitVec.ofNat 64 a, since := x.since + 1 }).countRetired c world).intervalCkpt c).boundary c) := by
    intro a
    refine calm_boundary (calm_intervalCkpt (calm_countRetired (calm_core h ?_) c world) c) c
    exact fun x hx => hx
  cases f with
  | seq => exact go next
  | jump a => exact go a
  | stay => exact calm_boundary h c
  | gone => exact calm_countRetired h c world

end

/-- A ready instruction executes its effect on the state after its fetch. -/
theorem W.run_ready {s : State} {c : CoreId} {i : Instr} {g : Group} {body : Body} {w2 : W} {f : Flow} (h : Ready s c i g)
    (hb : body (fetched s.w c).1 = (w2, .ok f)) :
    s.w.run c i g body = (w2.retire c (s.w.core c).cworld ((s.w.core c).nextPc i) f).answerHeld c := by
  obtain ⟨h1, h2, h3, h4, h5⟩ := h
  unfold W.run
  extract_lets x pc next info
  rw [show (!x.runs) = false by simp only [x, h1, Bool.not_true], h2]
  unfold fetched at h3 h5 hb
  generalize (s.w.issue c).fetch c = q at h3 h5 hb ⊢
  obtain ⟨v, ft⟩ := q
  dsimp only at h3 h5 hb ⊢
  subst h3
  rw [h4]
  dsimp only
  rw [if_neg Bool.false_ne_true, if_neg (not_not_intro rfl), h5, Bool.not_true, if_neg Bool.false_ne_true, hb]

theorem W.gr_of_arch {w v : W} {c : CoreId} (h : arch (w.core c) = arch (v.core c)) (r : Nat) : w.gr c r = v.gr c r := by
  simp only [arch, Arch.mk.injEq] at h
  simp only [W.gr, Core.gr, h.2.1]

/-- An instruction reads the registers that the state before it holds. -/
theorem gr_fetched (w : W) (c : CoreId) (r : Nat) : (fetched w c).1.gr c r = w.gr c r :=
  W.gr_of_arch (W.arch_of_keptF (keptF_fetched w c) c) r

theorem quiet_setG {x : Core} (h : CoreQuiet x) (r : Nat) (v : TWord) : CoreQuiet (x.setG r v) := by
  unfold Core.setG; split <;> exact h

theorem arch_setG {x y : Core} (h : arch x = arch y) (r : Nat) (v : TWord) : arch (x.setG r v) = arch (y.setG r v) := by
  simp only [arch, Arch.mk.injEq] at h
  unfold Core.setG; split <;> simp [arch, h]

/-- After its effect, a ready instruction changes only the PC of what is kept. -/
theorem kept_run {s : State} {c : CoreId} {i : Instr} {g : Group} {body : Body} {w2 : W} {f : Flow} (h : Ready s c i g)
    (hb : body (fetched s.w c).1 = (w2, .ok f)) :
    (s.w.run c i g body).kept =
      (match f.target ((s.w.core c).nextPc i) with | some a => (w2.modCore c fun x => { x with pc := BitVec.ofNat 64 a }) | none => w2).kept := by
  rw [W.run_ready h hb, W.kept_answerHeld, W.kept_retire]

theorem calm_run {s : State} {c : CoreId} {i : Instr} {g : Group} {body : Body} {w2 : W} {f : Flow} (h : Ready s c i g)
    (hb : body (fetched s.w c).1 = (w2, .ok f)) (hq : Calm s.w w2) : Calm s.w (s.w.run c i g body) := by
  rw [W.run_ready h hb]; exact calm_answerHeld (calm_retire _ hq _ _ _ _) _

theorem arch_pc {x y : Core} (h : arch x = arch y) (pc : Word) : arch { x with pc := pc } = arch { y with pc := pc } := by
  simp only [arch, Arch.mk.injEq] at h ⊢
  simp [h]

/-- A ready instruction whose effect leaves the registers of its core as those of `y`, and nothing else that a frame names changed, completes with
them and with the PC where it goes on. -/
theorem ends_of_body {s : State} {c : CoreId} {i : Instr} {g : Group} {body : Body} {w2 : W} {f : Flow} {y : Core} {a : Nat}
    (he : exec i s = liftNow (fun w => w.run c i g body) s) (h : Ready s c i g) (hb : body (fetched s.w c).1 = (w2, .ok f))
    (ha : f.target ((s.w.core c).nextPc i) = some a) (hc : arch (w2.core c) = arch y)
    (hd : ∀ d, coreKey d ≠ coreKey c → arch (w2.core d) = arch (s.w.core d)) (hn : w2.now = s.now) (hq : Quiet s.w → Calm s.w w2) :
    Ends s i c (arch { y with pc := BitVec.ofNat 64 a }) := by
  have hk := kept_run h hb
  rw [ha] at hk
  refine ⟨_, he.trans (liftNow_eq _ _), ?_, fun d hne => ?_, ?_, rfl, rfl, fun hqs => ?_⟩
  · exact (W.arch_of_kept hk c).trans (by rw [W.core_modCore_self]; exact arch_pc hc _)
  · exact (W.arch_of_kept hk d).trans (by rw [W.core_modCore_ne _ _ hne]; exact hd d hne)
  · exact (congrArg Kept.now hk).trans hn
  · show s.mem.apply (s.w.run c i g body).ws.reverse = s.mem
    rw [(calm_run h hb (hq hqs)).2]; rfl

/-- The same for an effect that changes one core's registers by `f` and goes on in sequence. -/
theorem next_of_body {s : State} {c : CoreId} {i : Instr} {g : Group} {body : Body} {w2 : W} {f : Core → Core}
    (he : exec i s = liftNow (fun w => w.run c i g body) s) (h : Ready s c i g) (hb : body (fetched s.w c).1 = (w2, .ok .seq))
    (hk : w2.keptF = ((fetched s.w c).1.modCore c f).keptF) (hf : ∀ x y, arch x = arch y → arch (f x) = arch (f y))
    (hq : Quiet s.w → Calm s.w w2) : Next s i c f := by
  refine ends_of_body he h hb rfl ?_ (fun d hne => ?_) ?_ hq
  · rw [W.arch_of_keptF hk c, W.core_modCore_self]
    exact hf _ _ (W.arch_of_keptF (keptF_fetched _ _) c)
  · rw [W.arch_of_keptF hk d, W.core_modCore_ne _ _ hne]
    exact W.arch_of_keptF (keptF_fetched _ _) d
  · exact (congrArg Kept.now hk).trans (congrArg Kept.now (keptF_fetched s.w c))

end Sys2Proof.Machine
end

