-- ==== Sys2Proof/Laws/Units.lean ====
section
/-! SUPPORT. What each update of one unit's state changes and what it leaves, one lemma per field (the updates of the shared files stand in State). -/

namespace Sys2Proof.Machine

open Sys2Proof

/-! ### `W.modNeve` -/

@[simp] theorem W.modNeve_now (w : W) (f : NeveSt → NeveSt) : (w.modNeve f).now = w.now := rfl
@[simp] theorem W.modNeve_fuse (w : W) (f : NeveSt → NeveSt) : (w.modNeve f).fuse = w.fuse := rfl
@[simp] theorem W.modNeve_mem (w : W) (f : NeveSt → NeveSt) : (w.modNeve f).mem = w.mem := rfl
@[simp] theorem W.modNeve_ws (w : W) (f : NeveSt → NeveSt) : (w.modNeve f).ws = w.ws := rfl
@[simp] theorem W.modNeve_regs (w : W) (f : NeveSt → NeveSt) : (w.modNeve f).dev.regs = w.dev.regs := rfl
theorem W.modNeve_dev (w : W) (f : NeveSt → NeveSt) : (w.modNeve f).dev = { w.dev with neve := f w.dev.neve } := rfl

/-! ### `W.modCmp` -/

@[simp] theorem W.modCmp_now (w : W) (f : CmpSt → CmpSt) : (w.modCmp f).now = w.now := rfl
@[simp] theorem W.modCmp_fuse (w : W) (f : CmpSt → CmpSt) : (w.modCmp f).fuse = w.fuse := rfl
@[simp] theorem W.modCmp_mem (w : W) (f : CmpSt → CmpSt) : (w.modCmp f).mem = w.mem := rfl
@[simp] theorem W.modCmp_ws (w : W) (f : CmpSt → CmpSt) : (w.modCmp f).ws = w.ws := rfl
@[simp] theorem W.modCmp_regs (w : W) (f : CmpSt → CmpSt) : (w.modCmp f).dev.regs = w.dev.regs := rfl
theorem W.modCmp_dev (w : W) (f : CmpSt → CmpSt) : (w.modCmp f).dev = { w.dev with cmp := f w.dev.cmp } := rfl

/-! ### `W.modCip` -/

@[simp] theorem W.modCip_now (w : W) (f : CipSt → CipSt) : (w.modCip f).now = w.now := rfl
@[simp] theorem W.modCip_fuse (w : W) (f : CipSt → CipSt) : (w.modCip f).fuse = w.fuse := rfl
@[simp] theorem W.modCip_mem (w : W) (f : CipSt → CipSt) : (w.modCip f).mem = w.mem := rfl
@[simp] theorem W.modCip_ws (w : W) (f : CipSt → CipSt) : (w.modCip f).ws = w.ws := rfl
@[simp] theorem W.modCip_regs (w : W) (f : CipSt → CipSt) : (w.modCip f).dev.regs = w.dev.regs := rfl
theorem W.modCip_dev (w : W) (f : CipSt → CipSt) : (w.modCip f).dev = { w.dev with cip := f w.dev.cip } := rfl

/-! ### `W.modFlo` -/

@[simp] theorem W.modFlo_now (w : W) (f : FloSt → FloSt) : (w.modFlo f).now = w.now := rfl
@[simp] theorem W.modFlo_fuse (w : W) (f : FloSt → FloSt) : (w.modFlo f).fuse = w.fuse := rfl
@[simp] theorem W.modFlo_mem (w : W) (f : FloSt → FloSt) : (w.modFlo f).mem = w.mem := rfl
@[simp] theorem W.modFlo_ws (w : W) (f : FloSt → FloSt) : (w.modFlo f).ws = w.ws := rfl
@[simp] theorem W.modFlo_regs (w : W) (f : FloSt → FloSt) : (w.modFlo f).dev.regs = w.dev.regs := rfl
theorem W.modFlo_dev (w : W) (f : FloSt → FloSt) : (w.modFlo f).dev = { w.dev with flo := f w.dev.flo } := rfl

/-! ### `W.modDbg` -/

@[simp] theorem W.modDbg_now (w : W) (f : DbgSt → DbgSt) : (w.modDbg f).now = w.now := rfl
@[simp] theorem W.modDbg_fuse (w : W) (f : DbgSt → DbgSt) : (w.modDbg f).fuse = w.fuse := rfl
@[simp] theorem W.modDbg_mem (w : W) (f : DbgSt → DbgSt) : (w.modDbg f).mem = w.mem := rfl
@[simp] theorem W.modDbg_ws (w : W) (f : DbgSt → DbgSt) : (w.modDbg f).ws = w.ws := rfl
@[simp] theorem W.modDbg_regs (w : W) (f : DbgSt → DbgSt) : (w.modDbg f).dev.regs = w.dev.regs := rfl
theorem W.modDbg_dev (w : W) (f : DbgSt → DbgSt) : (w.modDbg f).dev = { w.dev with dbg := f w.dev.dbg } := rfl

/-! ### `W.modPwr` -/

@[simp] theorem W.modPwr_now (w : W) (f : PwrSt → PwrSt) : (w.modPwr f).now = w.now := rfl
@[simp] theorem W.modPwr_fuse (w : W) (f : PwrSt → PwrSt) : (w.modPwr f).fuse = w.fuse := rfl
@[simp] theorem W.modPwr_mem (w : W) (f : PwrSt → PwrSt) : (w.modPwr f).mem = w.mem := rfl
@[simp] theorem W.modPwr_ws (w : W) (f : PwrSt → PwrSt) : (w.modPwr f).ws = w.ws := rfl
@[simp] theorem W.modPwr_regs (w : W) (f : PwrSt → PwrSt) : (w.modPwr f).dev.regs = w.dev.regs := rfl
theorem W.modPwr_dev (w : W) (f : PwrSt → PwrSt) : (w.modPwr f).dev = { w.dev with pwr := f w.dev.pwr } := rfl

/-! ### `W.modMgmt` -/

@[simp] theorem W.modMgmt_now (w : W) (f : MgmtSt → MgmtSt) : (w.modMgmt f).now = w.now := rfl
@[simp] theorem W.modMgmt_fuse (w : W) (f : MgmtSt → MgmtSt) : (w.modMgmt f).fuse = w.fuse := rfl
@[simp] theorem W.modMgmt_mem (w : W) (f : MgmtSt → MgmtSt) : (w.modMgmt f).mem = w.mem := rfl
@[simp] theorem W.modMgmt_ws (w : W) (f : MgmtSt → MgmtSt) : (w.modMgmt f).ws = w.ws := rfl
@[simp] theorem W.modMgmt_regs (w : W) (f : MgmtSt → MgmtSt) : (w.modMgmt f).dev.regs = w.dev.regs := rfl
theorem W.modMgmt_dev (w : W) (f : MgmtSt → MgmtSt) : (w.modMgmt f).dev = { w.dev with mgmt := f w.dev.mgmt } := rfl

/-! ### `W.modKpr` -/

@[simp] theorem W.modKpr_now (w : W) (f : KeeperSt → KeeperSt) : (w.modKpr f).now = w.now := rfl
@[simp] theorem W.modKpr_fuse (w : W) (f : KeeperSt → KeeperSt) : (w.modKpr f).fuse = w.fuse := rfl
@[simp] theorem W.modKpr_mem (w : W) (f : KeeperSt → KeeperSt) : (w.modKpr f).mem = w.mem := rfl
@[simp] theorem W.modKpr_ws (w : W) (f : KeeperSt → KeeperSt) : (w.modKpr f).ws = w.ws := rfl
@[simp] theorem W.modKpr_regs (w : W) (f : KeeperSt → KeeperSt) : (w.modKpr f).dev.regs = w.dev.regs := rfl
theorem W.modKpr_dev (w : W) (f : KeeperSt → KeeperSt) : (w.modKpr f).dev = { w.dev with kpr := f w.dev.kpr } := rfl

/-! ### `W.modServo` -/

@[simp] theorem W.modServo_now (w : W) (f : ServoSt → ServoSt) : (w.modServo f).now = w.now := rfl
@[simp] theorem W.modServo_fuse (w : W) (f : ServoSt → ServoSt) : (w.modServo f).fuse = w.fuse := rfl
@[simp] theorem W.modServo_mem (w : W) (f : ServoSt → ServoSt) : (w.modServo f).mem = w.mem := rfl
@[simp] theorem W.modServo_ws (w : W) (f : ServoSt → ServoSt) : (w.modServo f).ws = w.ws := rfl
@[simp] theorem W.modServo_regs (w : W) (f : ServoSt → ServoSt) : (w.modServo f).dev.regs = w.dev.regs := rfl
theorem W.modServo_dev (w : W) (f : ServoSt → ServoSt) : (w.modServo f).dev = { w.dev with servo := f w.dev.servo } := rfl

/-! ### `W.modTxn` -/

@[simp] theorem W.modTxn_now (w : W) (i : Nat) (f : Txn → Txn) : (w.modTxn i f).now = w.now := rfl
@[simp] theorem W.modTxn_fuse (w : W) (i : Nat) (f : Txn → Txn) : (w.modTxn i f).fuse = w.fuse := rfl
@[simp] theorem W.modTxn_mem (w : W) (i : Nat) (f : Txn → Txn) : (w.modTxn i f).mem = w.mem := rfl
@[simp] theorem W.modTxn_ws (w : W) (i : Nat) (f : Txn → Txn) : (w.modTxn i f).ws = w.ws := rfl
@[simp] theorem W.modTxn_regs (w : W) (i : Nat) (f : Txn → Txn) : (w.modTxn i f).dev.regs = w.dev.regs := rfl
theorem W.modTxn_dev (w : W) (i : Nat) (f : Txn → Txn) : (w.modTxn i f).dev = { w.dev with txns := Tab.modify w.dev.txns i f } := rfl

/-! ### `W.modSeg` -/

@[simp] theorem W.modSeg_now (w : W) (i k : Nat) (f : Seg → Seg) : (w.modSeg i k f).now = w.now := rfl
@[simp] theorem W.modSeg_fuse (w : W) (i k : Nat) (f : Seg → Seg) : (w.modSeg i k f).fuse = w.fuse := rfl
@[simp] theorem W.modSeg_mem (w : W) (i k : Nat) (f : Seg → Seg) : (w.modSeg i k f).mem = w.mem := rfl
@[simp] theorem W.modSeg_ws (w : W) (i k : Nat) (f : Seg → Seg) : (w.modSeg i k f).ws = w.ws := rfl
@[simp] theorem W.modSeg_regs (w : W) (i k : Nat) (f : Seg → Seg) : (w.modSeg i k f).dev.regs = w.dev.regs := rfl

/-! ### `W.modChan` -/

@[simp] theorem W.modChan_now (w : W) (c : Nat) (f : Chan → Chan) : (w.modChan c f).now = w.now := rfl
@[simp] theorem W.modChan_fuse (w : W) (c : Nat) (f : Chan → Chan) : (w.modChan c f).fuse = w.fuse := rfl
@[simp] theorem W.modChan_mem (w : W) (c : Nat) (f : Chan → Chan) : (w.modChan c f).mem = w.mem := rfl
@[simp] theorem W.modChan_ws (w : W) (c : Nat) (f : Chan → Chan) : (w.modChan c f).ws = w.ws := rfl
@[simp] theorem W.modChan_regs (w : W) (c : Nat) (f : Chan → Chan) : (w.modChan c f).dev.regs = w.dev.regs := rfl
theorem W.modChan_dev (w : W) (c : Nat) (f : Chan → Chan) : (w.modChan c f).dev = { w.dev with chans := Tab.modify w.dev.chans c fun x => if f x = x then x else { f x with dirty := true } } := rfl

/-! ### `W.modQp` -/

@[simp] theorem W.modQp_now (w : W) (q : Nat) (f : Qp → Qp) : (w.modQp q f).now = w.now := rfl
@[simp] theorem W.modQp_fuse (w : W) (q : Nat) (f : Qp → Qp) : (w.modQp q f).fuse = w.fuse := rfl
@[simp] theorem W.modQp_mem (w : W) (q : Nat) (f : Qp → Qp) : (w.modQp q f).mem = w.mem := rfl
@[simp] theorem W.modQp_ws (w : W) (q : Nat) (f : Qp → Qp) : (w.modQp q f).ws = w.ws := rfl
@[simp] theorem W.modQp_regs (w : W) (q : Nat) (f : Qp → Qp) : (w.modQp q f).dev.regs = w.dev.regs := rfl
theorem W.modQp_dev (w : W) (q : Nat) (f : Qp → Qp) : (w.modQp q f).dev = { w.dev with qps := Tab.modify w.dev.qps q f } := rfl

/-! ### `W.modEth` -/

@[simp] theorem W.modEth_now (w : W) (p : Nat) (f : EthSt → EthSt) : (w.modEth p f).now = w.now := rfl
@[simp] theorem W.modEth_fuse (w : W) (p : Nat) (f : EthSt → EthSt) : (w.modEth p f).fuse = w.fuse := rfl
@[simp] theorem W.modEth_mem (w : W) (p : Nat) (f : EthSt → EthSt) : (w.modEth p f).mem = w.mem := rfl
@[simp] theorem W.modEth_ws (w : W) (p : Nat) (f : EthSt → EthSt) : (w.modEth p f).ws = w.ws := rfl
@[simp] theorem W.modEth_regs (w : W) (p : Nat) (f : EthSt → EthSt) : (w.modEth p f).dev.regs = w.dev.regs := rfl
theorem W.modEth_dev (w : W) (p : Nat) (f : EthSt → EthSt) : (w.modEth p f).dev = { w.dev with eth := Tab.putD {} w.dev.eth p (f (w.ethPort p)) } := rfl

/-! ### `W.modPci` -/

@[simp] theorem W.modPci_now (w : W) (p : Nat) (f : PciSt → PciSt) : (w.modPci p f).now = w.now := rfl
@[simp] theorem W.modPci_fuse (w : W) (p : Nat) (f : PciSt → PciSt) : (w.modPci p f).fuse = w.fuse := rfl
@[simp] theorem W.modPci_mem (w : W) (p : Nat) (f : PciSt → PciSt) : (w.modPci p f).mem = w.mem := rfl
@[simp] theorem W.modPci_ws (w : W) (p : Nat) (f : PciSt → PciSt) : (w.modPci p f).ws = w.ws := rfl
@[simp] theorem W.modPci_regs (w : W) (p : Nat) (f : PciSt → PciSt) : (w.modPci p f).dev.regs = w.dev.regs := rfl
theorem W.modPci_dev (w : W) (p : Nat) (f : PciSt → PciSt) : (w.modPci p f).dev = { w.dev with pci := Tab.putD {} w.dev.pci p (f (w.pciPort p)) } := rfl

/-! ### `W.modCmpJob` -/

@[simp] theorem W.modCmpJob_now (w : W) (j : Nat) (f : CmpJob → CmpJob) : (w.modCmpJob j f).now = w.now := rfl
@[simp] theorem W.modCmpJob_fuse (w : W) (j : Nat) (f : CmpJob → CmpJob) : (w.modCmpJob j f).fuse = w.fuse := rfl
@[simp] theorem W.modCmpJob_mem (w : W) (j : Nat) (f : CmpJob → CmpJob) : (w.modCmpJob j f).mem = w.mem := rfl
@[simp] theorem W.modCmpJob_ws (w : W) (j : Nat) (f : CmpJob → CmpJob) : (w.modCmpJob j f).ws = w.ws := rfl
@[simp] theorem W.modCmpJob_regs (w : W) (j : Nat) (f : CmpJob → CmpJob) : (w.modCmpJob j f).dev.regs = w.dev.regs := rfl

/-! ### `W.modCipJob` -/

@[simp] theorem W.modCipJob_now (w : W) (j : Nat) (f : CipJob → CipJob) : (w.modCipJob j f).now = w.now := rfl
@[simp] theorem W.modCipJob_fuse (w : W) (j : Nat) (f : CipJob → CipJob) : (w.modCipJob j f).fuse = w.fuse := rfl
@[simp] theorem W.modCipJob_mem (w : W) (j : Nat) (f : CipJob → CipJob) : (w.modCipJob j f).mem = w.mem := rfl
@[simp] theorem W.modCipJob_ws (w : W) (j : Nat) (f : CipJob → CipJob) : (w.modCipJob j f).ws = w.ws := rfl
@[simp] theorem W.modCipJob_regs (w : W) (j : Nat) (f : CipJob → CipJob) : (w.modCipJob j f).dev.regs = w.dev.regs := rfl

/-! ### `W.setPmu` -/

@[simp] theorem W.setPmu_now (w : W) (slot : Nat) (p : Option PmuWorld) : (w.setPmu slot p).now = w.now := rfl
@[simp] theorem W.setPmu_fuse (w : W) (slot : Nat) (p : Option PmuWorld) : (w.setPmu slot p).fuse = w.fuse := rfl
@[simp] theorem W.setPmu_mem (w : W) (slot : Nat) (p : Option PmuWorld) : (w.setPmu slot p).mem = w.mem := rfl
@[simp] theorem W.setPmu_ws (w : W) (slot : Nat) (p : Option PmuWorld) : (w.setPmu slot p).ws = w.ws := rfl
@[simp] theorem W.setPmu_regs (w : W) (slot : Nat) (p : Option PmuWorld) : (w.setPmu slot p).dev.regs = w.dev.regs := rfl

/-! ### `W.setBus` -/

@[simp] theorem W.setBus_now (w : W) (n : Nat) (b : SasBus) : (w.setBus n b).now = w.now := rfl
@[simp] theorem W.setBus_fuse (w : W) (n : Nat) (b : SasBus) : (w.setBus n b).fuse = w.fuse := rfl
@[simp] theorem W.setBus_mem (w : W) (n : Nat) (b : SasBus) : (w.setBus n b).mem = w.mem := rfl
@[simp] theorem W.setBus_ws (w : W) (n : Nat) (b : SasBus) : (w.setBus n b).ws = w.ws := rfl
@[simp] theorem W.setBus_regs (w : W) (n : Nat) (b : SasBus) : (w.setBus n b).dev.regs = w.dev.regs := rfl
theorem W.setBus_dev (w : W) (n : Nat) (b : SasBus) : (w.setBus n b).dev = { w.dev with sas := Tab.putD {} w.dev.sas n b } := rfl

/-! ### `W.setCh` -/

@[simp] theorem W.setCh_now (w : W) (n : Nat) (c : CioSt) : (w.setCh n c).now = w.now := rfl
@[simp] theorem W.setCh_fuse (w : W) (n : Nat) (c : CioSt) : (w.setCh n c).fuse = w.fuse := rfl
@[simp] theorem W.setCh_mem (w : W) (n : Nat) (c : CioSt) : (w.setCh n c).mem = w.mem := rfl
@[simp] theorem W.setCh_ws (w : W) (n : Nat) (c : CioSt) : (w.setCh n c).ws = w.ws := rfl
@[simp] theorem W.setCh_regs (w : W) (n : Nat) (c : CioSt) : (w.setCh n c).dev.regs = w.dev.regs := rfl
theorem W.setCh_dev (w : W) (n : Nat) (c : CioSt) : (w.setCh n c).dev = { w.dev with cio := Tab.putD {} w.dev.cio n c } := rfl

/-! ### `W.setLoop` -/

@[simp] theorem W.setLoop_now (w : W) (l : Nat) (x : LoopSt) : (w.setLoop l x).now = w.now := rfl
@[simp] theorem W.setLoop_fuse (w : W) (l : Nat) (x : LoopSt) : (w.setLoop l x).fuse = w.fuse := rfl
@[simp] theorem W.setLoop_mem (w : W) (l : Nat) (x : LoopSt) : (w.setLoop l x).mem = w.mem := rfl
@[simp] theorem W.setLoop_ws (w : W) (l : Nat) (x : LoopSt) : (w.setLoop l x).ws = w.ws := rfl
@[simp] theorem W.setLoop_regs (w : W) (l : Nat) (x : LoopSt) : (w.setLoop l x).dev.regs = w.dev.regs := rfl
theorem W.setLoop_dev (w : W) (l : Nat) (x : LoopSt) : (w.setLoop l x).dev = { w.dev with loops := Tab.putD {} w.dev.loops l x } := rfl

/-! ### `W.modCore` -/

@[simp] theorem W.modCore_now (w : W) (c : CoreId) (f : Core → Core) : (w.modCore c f).now = w.now := rfl
@[simp] theorem W.modCore_fuse (w : W) (c : CoreId) (f : Core → Core) : (w.modCore c f).fuse = w.fuse := rfl
@[simp] theorem W.modCore_mem (w : W) (c : CoreId) (f : Core → Core) : (w.modCore c f).mem = w.mem := rfl
@[simp] theorem W.modCore_ws (w : W) (c : CoreId) (f : Core → Core) : (w.modCore c f).ws = w.ws := rfl
@[simp] theorem W.modCore_regs (w : W) (c : CoreId) (f : Core → Core) : (w.modCore c f).dev.regs = w.dev.regs := rfl
theorem W.modCore_dev (w : W) (c : CoreId) (f : Core → Core) : (w.modCore c f).dev = { w.dev with cores := Tab.putD {} w.dev.cores (coreKey c) (f (w.core c)) } := rfl

end Sys2Proof.Machine
end

