-- ==== Sys2Proof/Tests/Slice0.lean ====
section
/-! SUPPORT. The model's own tests (ill-formed terms refused, table words read, values of the spec's rules) and, for each statement with hypotheses, a
witness: concrete states and operands that meet the hypotheses of its clauses. -/

namespace Sys2Proof.Tests

set_option Elab.async false

open Sys2Proof Sys2Proof.Machine Sys2Proof.Safety

set_option maxRecDepth 100000

/-! ### Small states -/

/-- The start of a core's TCM window. -/
def pc0 : Nat := 0xFFFFFFFE0000

/-- An INT word. -/
def iw (n : Int) : TWord := ⟨tINT, BitVec.ofInt 64 n⟩

/-- A handle. -/
def hnd (i o : Nat) : TWord := ⟨tHND, BitVec.ofNat 64 (i * 2 ^ 40 + o)⟩

/-- Write register fields: (field, element, value). -/
def regs (l : List (Fld × Nat × Nat)) (s : State) : State :=
  { s with dev := (l.foldl (fun (w : W) (x : Fld × Nat × Nat) => w.set x.1 x.2.2 x.2.1) s.w).dev }

/-- Change the device. -/
def dev (f : Dev → Dev) (s : State) : State := { s with dev := f s.dev }

/-- Change the working state. -/
def wk (f : W → W) (s : State) : State := { s with dev := (f s.w).dev }

/-- Bytes of memory in canonical form. -/
def cellsAt (a : Nat) (bs : List Byte) : List Host.Cell := (bs.mapIdx fun i b => ((a + i, b) : Host.Cell)).filter fun x => x.2 ≠ 0

/-- Memory with these cells. -/
def cells (l : List Host.Cell) (s : State) : State := { s with mem := { s.mem with cells := l } }

/-- Operations in progress. -/
def busy (l : Tab Nat) : State → State := dev fun d => { d with busy := l }

/-- A base field that holds an address. -/
def base (f : Fld) (a : Nat) : State → State := regs [(f, 0, a / 2 ^ f.lo)]

/-- The mode's state. -/
def modeSt (f : ModeSt → ModeSt) : State → State := dev fun d => { d with mode := f d.mode }

/-- The device in mode `m`, memory unit 0 behind the first addresses. -/
def on (m : Nat) : State :=
  regs [(F.MEMH_CFG_UNITS, 0, 1), (F.MEMH_CFG_UNITGIB, 0, 24), (F.MEMH_CFG_MAP, 0, 1), (F.SYS_MODE_CUR, 0, m)] State.reset

/-- The Cirque's port. -/
def src : Nat := source 2 0

/-- Cornice core 0 and Floe core 0. -/
def c0 : CoreId := .crn 0

/-- Floe core 0. -/
def f0 : CoreId := .flo 0

/-- Cornice core 0 at the start of its TCM, whose first word is CODE. -/
def coreSt (f : Core → Core) (mt : Tab Tag := []) (m : List Host.Cell := []) : State :=
  let s := on 3
  { s with
    mem := { cells := m, tags := Tab.put mt (tcmAddr 0 0 / 8) tCODE }
    dev := { s.dev with cores := [(0, f { active := true, pc := BitVec.ofNat 64 pc0 })] } }

/-- Floe core 0 in kernel 1 at 0x100, whose table entry stands at 0x80. -/
def floSt (f : Core → Core) (mt : Tab Tag := []) (m : List Host.Cell := []) : State :=
  let s := on 3
  { s with
    mem := { cells := cellsAt 0x80 (leBytes 8 0x100 ++ leBytes 4 0x100) ++ m, tags := Tab.put mt (0x100 / 8) tCODE }
    dev := { s.dev with
      cores := [(1000, f { active := true, pc := 0x100 })]
      flo := { s.dev.flo with
        next := 1
        segs := [(0, { ref := ⟨1, 0⟩, chid := 4, att := 0, word := 2 ^ 52, world := 0, prio := 0, param := 0, inChain := [7], inLen := 4096
                       outChain := [8], core := some 0 })] } } }

/-- A state with instruction `i` at address `a`. -/
def code (a : Nat) (i : Instr) (s : State) : State :=
  match encodeTsh i with
  | none => s
  | some v => { s with mem := { s.mem with
      cells := (leBytes (if isLong i then 8 else 4) v).zipIdx.foldl (fun m b => Tab.putD 0 m (a + b.2) b.1) s.mem.cells } }

/-- The instruction stands where core 0 of its kind fetches it. -/
def at_ (i : Instr) (c : CoreId) (s : State) : State := code (match c with | .crn _ => tcmAddr 0 0 | .flo _ => 0x100) i s

/-- A computation that succeeds. -/
def isOk {α ε : Type} : Except ε α → Bool
  | .ok _ => true
  | .error _ => false

/-- The instructions `l` are each ready on core `c` of `s`. -/
def AllReady (s : State) (c : CoreId) (g : Group) (l : List Instr) : Prop := ∀ i ∈ l, Ready (at_ i c s) c i g

/-! ### Witnesses: TSH-3 -/

/-- Operands of each tag. -/
def sI : State := coreSt fun x => { x with
  g := [(1, iw 7), (2, iw (-2)), (3, ⟨tRAW, 5⟩), (4, hnd 5 0x123), (5, iw (-2 ^ 63)), (6, iw 0), (7, iw (-1)), (8, ⟨tF64, 0x3FF8000000000000⟩),
        (9, iw (pc0 + 64)), (10, ⟨tF32P, 0x7F80000140000000⟩)]
  psw := 0x20000000
  hcache := [(5, { valid := true, base := 0x1000, len := 0x1000, world := 0, r := true, w := true })] }

theorem witness_IntegerArithmetic : Ints sI c0 [1, 2] ∧ AllReady sI c0 .B ([.cmp c0 1 2, .cmpa c0 1 2, .addi c0 4 1 0xFFFF, .cmpi c0 1 0xFFFF] ++
    [Instr.add, .sub, .adc, .sbc, .mul].map (fun i => i c0 4 1 2 true) ++
    [Instr.mulhs, .mulhu, .mins, .maxs, .minu, .maxu].map fun i => i c0 4 1 2) := by
  unfold Ints AllReady Ready; decide +kernel

theorem witness_IntegerDivision : Ints sI c0 [5, 7] ∧ Ints sI c0 [1, 6] ∧
    AllReady sI c0 .B ([Instr.divs, .divu, .rems, .remu, .divsw, .divuw, .remsw, .remuw].flatMap fun i => [i c0 4 5 7, i c0 4 1 6]) := by
  unfold Ints AllReady Ready; decide +kernel

theorem witness_LogicAndShifts : IntRaws sI c0 [3, 2] ∧ AllReady sI c0 .B
    ([Instr.and, .or, .xor, .andn, .sll, .srl, .sra, .ror].map (fun i => i c0 4 3 2 true) ++
      [Instr.slli, .srli, .srai, .rori].flatMap (fun i => [i c0 4 3 0 true, i c0 4 3 63 false]) ++ [Instr.andi, .ori, .xori].map fun i => i c0 4 3 0xFF0F) := by
  unfold IntRaws AllReady Ready; decide +kernel

theorem witness_MovesImmediatesAndTags : Ints sI c0 [1, 2] ∧ (gpr sI c0 3).tag.toNat < 6 ∧ AllReady sI c0 .B
    ([.mov c0 4 4, .pick c0 0 4 1 2, .seth c0 4 3 0xFFFF, .li48 c0 4 (2 ^ 48 - 1), .gtag c0 4 4, .retag c0 4 3 5, .insh c0 1 3 5, .orh c0 1 0xFFFF] ++
      [Instr.clz, .ctz, .popc, .brev64, .bswap].map fun i => i c0 4 2) := by
  unfold Ints AllReady Ready; decide +kernel

theorem witness_HandleInstructions : Tagged sI c0 tHND [4] ∧ Ints sI c0 [1] ∧
    AllReady sI c0 .B [.hadd c0 6 4 1, .hseto c0 6 4 1, .haddi c0 6 4 0xFFFF, .hoff c0 6 4, .hlen c0 6 4] ∧
    (let s := at_ (.hlen c0 6 4) c0 sI
     let e := ((fetched s.w c0).1.hentry c0 5).2
     e.valid = true ∧ e.world = 0) := by
  unfold Tagged Ints AllReady Ready; decide +kernel

theorem witness_FloatingPoint : Tagged sI c0 tF64 [8] ∧ Tagged sI c0 tF32P [10] ∧ Ints sI c0 [1] ∧ AllReady sI c0 .B
    ([Instr.fadd, .fsub, .fmul, .fdiv].map (fun i => i c0 1 7 4 8 8) ++ [Instr.fmin, .fmax, .fminn, .fmaxn].map (fun i => i c0 2 4 10 10) ++
      [Instr.fsqrt, .frint].map (fun i => i c0 1 4 4 8) ++ [Instr.fma, .fms, .fnma, .fnms].map (fun i => i c0 1 4 8 8 8) ++
      [.fcmp c0 2 10 10, .fabs c0 2 4 10, .fneg c0 2 4 10, .fcvtIf c0 1 3 4 8 true, .fcvtFi c0 1 0 4 1 false, .fcvtFf c0 1 2 0 4 8 8]) := by
  unfold Tagged Ints AllReady Ready; decide +kernel

/-- A vector register. -/
def vreg (r : Nat) (l : List TWord) : Tab TWord := l.mapIdx fun i x => (r * 8 + i, x)

/-- A mask in g25 that leaves lanes out, and vector registers of each kind. -/
def sV : State := floSt fun x => { x with
  g := [(1, iw 7), (4, ⟨tF64, 9⟩), (25, iw 0x55)]
  v := vreg 1 ([1, -2, 3, -2 ^ 63, 5, 64, -7, 8].map iw) ++ vreg 2 ([0, 1, 2, 3, 4, 5, 6, 7].map iw) ++
    vreg 3 ((List.range 8).map fun i => ⟨tF64, BitVec.ofNat 64 (0x3FF0000000000000 + i)⟩) ++
    vreg 5 ((List.range 8).map fun i => ⟨tF32P, BitVec.ofNat 64 (0x3F80000040000000 + i)⟩) }

theorem witness_VectorLanes : MaskOk sV f0 1 ∧ ElemsOk sV f0 1 1 [1, 2] (· = tINT) ∧ ElemsOk sV f0 1 1 [3, 3] (· = tF64) ∧
    ElemsOk sV f0 1 2 [5] (· = tF32P) ∧ AllReady sV f0 .V
    ([Instr.vadd, .vsub, .vmul, .vmin, .vmax, .vand, .vor, .vxor, .vsll, .vsrl, .vsra].map (fun i => i f0 1 9 1 2) ++
      [Instr.vfadd, .vfsub, .vfmul, .vfdiv, .vfmin, .vfmax, .vfma, .vfms].map (fun i => i f0 1 1 3 3 3) ++ [.vfsqrt f0 2 1 9 5]) := by
  unfold MaskOk ElemsOk AllReady Ready; decide +kernel

theorem witness_VectorComplex : MaskOk sV f0 1 ∧ ElemsOk sV f0 1 2 [5, 5] (· = tF32P) ∧
    AllReady sV f0 .V ([Instr.vcmul, .vcmula, .vcmulc].map fun i => i f0 1 5 5 5) := by
  unfold MaskOk ElemsOk AllReady Ready; decide +kernel

theorem witness_VectorCompare : MaskOk sV f0 1 ∧ ElemsOk sV f0 1 1 [1, 2] (· = tINT) ∧ ElemsOk sV f0 1 2 [5, 5] (· = tF32P) ∧
    AllReady sV f0 .V ([Instr.vcmpeq, .vcmpne, .vcmplt, .vcmple].flatMap fun i => [i f0 0 1 6 1 2, i f0 2 1 6 5 5]) := by
  unfold MaskOk ElemsOk AllReady Ready; decide +kernel

theorem witness_VectorReductions : MaskOk sV f0 1 ∧ ElemsOk sV f0 1 1 [1] (· = tINT) ∧ ElemsOk sV f0 1 2 [5] (· = tF32P) ∧
    active sV f0 1 0 = true ∧ AllReady sV f0 .V ([Instr.vrsum, .vrmin, .vrmax].flatMap fun i => [i f0 0 1 6 1, i f0 2 1 6 5]) := by
  unfold MaskOk ElemsOk AllReady Ready; decide +kernel

theorem witness_VectorMoves : MaskOk sV f0 1 ∧ (gpr sV f0 4).tag ≠ tPOISON ∧ (elem sV f0 1 7).tag ≠ tPOISON ∧
    (∀ e < 8, (elem sV f0 2 e).tag = tINT ∧ (elem sV f0 2 e).val.toNat < 8 ∧ (elem sV f0 1 e).tag ≠ tPOISON) ∧
    AllReady sV f0 .V [.vbcast f0 1 1 9 4, .vins f0 1 1 9 4 7, .vext f0 6 1 7, .vperm f0 0 1 9 1 2, .vshufB f0 0 1 9 1 2, .vsel f0 0 1 9 1 2,
      .vretag f0 0 1 9 1 5] := by
  unfold MaskOk AllReady Ready; decide +kernel

/-- The accesses of a load with the state's own operands succeed, to DEVICE memory or not. -/
def loadMeets (s : State) (c : CoreId) (mode : Nat) (sx : Bool) (sz ra d : Nat) (dv : Bool) : Bool :=
  let w := (fetched s.w c).1
  let form := w.memForm c mode (2 ^ sz) d
  let b := gpr s c ra
  (tagTrap ((b, isBase c) :: form.1)).isNone && match w.resolveWith c b form.2.1 (2 ^ sz) .rd false (loadChk c (2 ^ sz)) with
    | (w1, .ok ps) => isOk (w1.loadPieces c (s.w.core c).pc.toNat (2 ^ sz) sx ps).2 && isDevice ps == dv
    | _ => false

/-- The same for a store. -/
def storeMeets (s : State) (c : CoreId) (mode sz rs ra d : Nat) : Bool :=
  let w := (fetched s.w c).1
  let form := w.memForm c mode (2 ^ sz) d
  let b := gpr s c ra
  let whole := decide (sz = 3) && (match w.peek c b form.2.1 with | some a => decide (a % 8 = 0) | none => true)
  (firstTrap (tagTrap ((b, isBase c) :: form.1)) (storeTrap (w.tenantStore c) whole (gpr s c rs).tag)).isNone &&
    match w.resolveWith c b form.2.1 (2 ^ sz) .wr false (storeChk c) with
    | (w1, .ok ps) => (w1.storePieces c (s.w.core c).pc.toNat (2 ^ sz) (gpr s c rs) ps).2.isNone && !isDevice ps
    | _ => false

/-- Words of memory and of the TCM, and registers that address them: handles 5 and 6 (DEVICE), and addresses. -/
def memW : List Host.Cell := cellsAt 0x1000 (leBytes 8 0x1122334455667788 ++ leBytes 8 7) ++ cellsAt (tcmAddr 0 64) (leBytes 8 9 ++ leBytes 8 8)

/-- Their tags. -/
def memT : Tab Tag := [(0x1000 / 8, tINT), (0x1008 / 8, tINT), (tcmAddr 0 64 / 8, tINT), (tcmAddr 0 72 / 8, tINT)]

/-- The registers and the handle cache. -/
def memR (x : Core) : Core :=
  let e : HEntry := { valid := true, base := 0x1000, len := 0x1000, world := 0, r := true, w := true }
  { x with
    g := [(1, iw 8), (2, iw 3), (3, hnd 5 0), (4, iw (pc0 + 64)), (6, ⟨tF64, 0xA1A2A3A4A5A6A7A8⟩), (7, hnd 6 0), (8, hnd 5 0x3D), (25, iw 1)]
    hcache := [(5, e), (6, { e with base := devBase + regOff .SYS_MODE 0, len := 8 })]
    v := vreg 1 ([1, 2, 3, 4, 5, 6, 7, 8].map iw) ++ vreg 2 ([0, 8, 16, 24, 32, 40, 48, 56].map iw) }

/-- A Cornice core over them. -/
def sM : State := coreSt memR memT memW

/-- A Floe core over them. -/
def sF : State := floSt (fun x => { memR x with g := (memR x).g.filter fun p => p.1 ≠ 4 }) [(0x1000 / 8, tINT), (0x1008 / 8, tINT)]
  (cellsAt 0x1000 (leBytes 8 0x1122334455667788 ++ leBytes 8 7))

theorem witness_Loads : AllReady sM c0 .B [.ld c0 0 true 0 20 3 5, .ld c0 2 true 2 20 4 2044, .ld c0 0 false 3 20 4 0, .ld c0 0 false 3 20 7 0] ∧
    loadMeets (at_ (.ld c0 0 true 0 20 3 5) c0 sM) c0 0 true 0 3 5 false = true ∧
    loadMeets (at_ (.ld c0 2 true 2 20 4 2044) c0 sM) c0 2 true 2 4 2044 false = true ∧
    loadMeets (at_ (.ld c0 0 false 3 20 4 0) c0 sM) c0 0 false 3 4 0 false = true ∧
    loadMeets (at_ (.ld c0 0 false 3 20 7 0) c0 sM) c0 0 false 3 7 0 true = true := by
  unfold AllReady Ready; decide +kernel

theorem witness_Stores : AllReady sM c0 .B [.st c0 0 3 6 3 0, .st c0 3 1 6 4 1, .st c0 0 3 2 8 0] ∧
    storeMeets (at_ (.st c0 0 3 6 3 0) c0 sM) c0 0 3 6 3 0 = true ∧ storeMeets (at_ (.st c0 3 1 6 4 1) c0 sM) c0 3 1 6 4 1 = true ∧
    storeMeets (at_ (.st c0 0 3 2 8 0) c0 sM) c0 0 3 2 8 0 = true := by
  unfold AllReady Ready; decide +kernel

theorem witness_VectorLoadsAndStores : AllReady sF f0 .V [.vld f0 0 0 4 3 0, .vld f0 3 1 4 3 2, .vst f0 2 0 1 3 1, .vst f0 3 1 1 3 2] ∧
    (let s := at_ (.vld f0 3 1 4 3 2) f0 sF
     let w := (fetched s.w f0).1
     let m := w.maskReg f0 1
     tagTrap ((gpr s f0 3, isBase f0) :: maskCheck m ++ w.vmForm f0 3 2) = none ∧ isOk (loadElems f0 0x100 3 2 (gpr s f0 3) m w (List.range 8)).2 = true) ∧
    (let s := at_ (.vst f0 2 0 1 3 1) f0 sF
     let w := (fetched s.w f0).1
     let m := w.maskReg f0 0
     tagTrap ((gpr s f0 3, isBase f0) :: maskCheck m ++ w.vmForm f0 2 1) = none ∧
       isOk (checkElems f0 2 1 1 (gpr s f0 3) m w (List.range 8)).2 = true) := by
  unfold AllReady Ready; decide +kernel

/-- The access checks of LR and SC pass, and the word has a line to reserve. -/
def lrMeets (s : State) (ra : Nat) (acc : Acc3) : Bool :=
  let w := (fetched s.w c0).1
  let b := gpr s c0 ra
  (tagTrap [(b, isBase c0)]).isNone && (w.align8 c0 b).isNone && match w.resolve c0 b 0 8 acc true with
    | (w1, .ok [p]) => isOk (w1.resvLine c0 b [p])
    | _ => false

theorem witness_Reservations : AllReady sM c0 .A [.lr c0 20 3, .lr c0 20 4, .sc c0 20 3 6, .sc c0 20 4 6] ∧
    lrMeets (at_ (.lr c0 20 3) c0 sM) 3 .rd = true ∧ lrMeets (at_ (.lr c0 20 4) c0 sM) 4 .rd = true ∧
    lrMeets (at_ (.sc c0 20 3 6) c0 sM) 3 .wr = true ∧ storeTrap false true (gpr sM c0 6).tag = none := by
  unfold AllReady Ready; decide +kernel

theorem witness_Atomics : Ints sM c0 [1] ∧
    AllReady sM c0 .A ([Instr.atswap, .atcas, .atadd, .atand, .ator, .atxor, .atmins, .atmaxs, .atminu, .atmaxu].map fun i => i c0 20 3 1) ∧
    (let s := at_ (.atadd c0 20 3 1) c0 sM
     let w := (fetched s.w c0).1
     let b := gpr s c0 3
     tagTrap [(b, isBase c0)] = none ∧ w.align8 c0 b = none ∧ (match w.resolve c0 b 0 8 .rd true with
       | (w1, .ok _) => (match w1.resolve c0 b 0 8 .wr true with
         | (w2, .ok [p]) => isOk ((w2.checkpoint c0).atomicAt c0 pc0 p.spot fun o => atomicOp 3 (w.tenantStore c0) o (gpr s c0 1) (gpr s c0 20)).2
         | _ => false)
       | _ => false) = true) := by
  unfold Ints AllReady Ready; decide +kernel

theorem witness_Branches : AllReady sM c0 .B [.bc c0 0 5, .bc c0 1 (2 ^ 22 - 4), .bl c0 14 5, .cb c0 1 0 0 5, .cb c0 6 3 2 (2 ^ 14 - 4), .jr c0 1, .jalr c0 20 1] ∧
    Ints sM c0 [1] ∧ (val sM c0 1).toNat % 4 = 0 := by
  unfold Ints AllReady Ready; decide +kernel

theorem witness_SystemRegisters : Ints sM c0 [1] ∧
    AllReady sM c0 .S0 ((List.range 13).flatMap fun n => if n < 2 then [] else [.mfsr c0 20 n, .mtsr c0 1 n]) ∧
    AllReady sM c0 .B [.mfsr c0 20 0, .mfsr c0 20 1, .mtsr c0 1 0, .mtsr c0 1 1, .rdtime c0 20, .fence c0 0, .fence c0 1] ∧ AllReady sM c0 .S0 [.wfi c0] ∧
    ∀ n < 13, (sM.w.sysReg c0 n).isSome = true := by
  unfold Ints AllReady Ready; decide +kernel

theorem witness_MaintenanceInstructions : Ints sM c0 [4] ∧ AllReady sM c0 .S [.tinvWorld c0, .tinvVa c0 4, .dcClean c0 3] ∧
    AllReady sM c0 .S0 [.tinvAll c0, .hinv c0 1, .tagset c0 4 4, .dcCiv c0 3, .dcInv c0 3, .icInv c0 3] ∧
    (let s := at_ (.tagset c0 4 4) c0 sM
     isOk ((fetched s.w c0).1.resolve c0 (gpr s c0 4) 0 8 .wr true).2 = true) ∧
    (let s := at_ (.dcInv c0 3) c0 sM
     isOk (((fetched s.w c0).1.checkpoint c0).resolve c0 (gpr s c0 3) 0 1 .rd false).2 = true ∧ s.w.l2St (coreL2 c0) (0x1000 / 64) = none) := by
  unfold Ints AllReady Ready; decide +kernel

/-- A core with a vector table and a stack in its TCM. -/
def sE : State := coreSt (fun x => { memR x with
    g := [(1, iw 11), (2, iw 22), (30, iw (pc0 + 0x1F020))]
    psw := 1
    vbase := BitVec.ofNat 64 (pc0 + 0x8000) })
  [(tcmAddr 0 0x8050 / 8, tINT), (tcmAddr 0 0x8058 / 8, tINT)]
  (cellsAt (tcmAddr 0 0x8050) (leBytes 8 (pc0 + 0x100) ++ leBytes 8 (pc0 + 0x200)))

/-- The frame's words pass their checks and the vector holds an address. -/
def enters (s : State) (exc : Nat) : Bool :=
  let w := (fetched s.w c0).1.checkpoint c0
  match w.frameCheck c0 (gpr s c0 30) with
  | (w3, 0, _) => (w3.vector c0 exc).2.isSome
  | _ => false

theorem witness_ExceptionEntry : AllReady sE c0 .S [.svc c0 0, .svc c0 1023, .brk c0] ∧ enters (at_ (.svc c0 0) c0 sE) 0xA = true ∧
    enters (at_ (.brk c0) c0 sE) 0xB = true := by
  unfold AllReady Ready; decide +kernel

/-- A core over a frame in its TCM: a return to the same world. -/
def sR : State := coreSt (fun x => { memR x with g := [(30, iw (pc0 + 0x1F000))] })
  ((List.range 12).map fun i => (tcmAddr 0 (0x1F000 + 8 * i) / 8, tINT)) (cellsAt (tcmAddr 0 0x1F000) (leBytes 8 (pc0 + 4) ++ leBytes 8 1))

theorem witness_Returns : AllReady sR c0 .S0 [.eret c0] ∧ Ints sR c0 [30] ∧
    (let s := at_ (.eret c0) c0 sR
     (match (fetched s.w c0).1.frameWords c0 pc0 (gpr s c0 30) [0, 1, 4, 5, 6, 7, 8, 9, 10, 11] with
      | (w1, .ok f) => decide ((f.getD 0 {}).tag = tINT ∧ (f.getD 1 {}).tag = tINT ∧ (f.getD 9 {}).tag = tINT) && w1.worldActive (bits (f.getD 9 {}).val 63 48)
      | _ => false) = true) ∧
    (let s := floSt fun x => { x with g := [(1, iw 16)] }
     AllReady s f0 .K [.sret f0] ∧ (s.w.segOn 0).isSome = true ∧ (gpr s f0 1).tag = tINT) := by
  unfold Ints AllReady Ready; decide +kernel

/-- Registers for the microcoded instructions: destination, source, length. -/
def sU (d a b : Int) : State := coreSt (fun x => { memR x with g := [(1, iw d), (2, iw a), (3, iw b)] }) memT memW

theorem witness_Microcoded :
    (let s := at_ (.movblk c0 1 2 3) c0 (sU (pc0 + 72) (pc0 + 64) 8)
     let w := (fetched s.w c0).1
     Ready s c0 (.movblk c0 1 2 3) .M ∧ Ints s c0 [1, 2, 3] ∧ overlapping (val s c0 1) (val s c0 2) 8 = false ∧
       (match w.loadAt c0 pc0 8 (gpr s c0 2) with | (_, .ok (_, false)) => true | _ => false) = true ∧
       isOk (w.resolve c0 (gpr s c0 1) 0 8 .wr false).2 = true) ∧
    (let s := at_ (.movblk c0 1 2 3) c0 (sU 0 0 0)
     Ready s c0 (.movblk c0 1 2 3) .M ∧ Ints s c0 [1, 2, 3] ∧ val s c0 3 = 0) ∧
    (let s := at_ (.crc c0 1 2 3 2) c0 (sU 0 (pc0 + 65) 1)
     Ready s c0 (.crc c0 1 2 3 2) .M ∧ Ints s c0 [1, 2, 3] ∧
       (match (fetched s.w c0).1.loadAt c0 pc0 1 (gpr s c0 2) with | (_, .ok (_, false)) => true | _ => false) = true) ∧
    (let s := at_ (.tagscrub c0 1 2 4 true) c0 (sU (pc0 + 66) 5 0)
     Ready s c0 (.tagscrub c0 1 2 4 true) .M ∧ Ints s c0 [1, 2] ∧ isOk ((fetched s.w c0).1.resolve c0 (gpr s c0 1) 0 5 .wr true).2 = true) := by
  unfold Ready Ints; decide +kernel

/-! ### Witnesses: reset, bring-up, modes, power -/

/-- A running keeper. -/
def kpr : State → State := dev fun d => { d with kpr := { d.kpr with running := true } }

/-- Bring-up after these steps, with a booted slot and a root key. -/
def boot (ns : List Nat) : State := modeSt (fun m => { m with steps := ns, rootKey := some 5 }) (regs [(F.BOOT_STAT_BOOTED, 0, 1)] (kpr (on 1)))

theorem witness_ResetAndRelease : (on 3).dev.mode.pwrgood = true ∧ (modeSt (fun m => { m with rstN := false }) (on 0)).dev.mode.rstN = false ∧
    (let s := modeSt (fun m => { m with pwrgood := false }) (on 0)
     s.dev.mode.pwrgood = false ∧ s.dev.mode.rstN = true) := by decide +kernel

theorem witness_BringUp :
    (let s := on 1
     s.w.bringing = true ∧ s.dev.mode.keeperOk = [false, false] ∧ field s F.BOOT_STAT_FAIL ≠ 1) ∧
    (let s := kpr (on 1)
     s.w.bringing = true ∧ s.dev.kpr.running = true ∧ field s F.BOOT_STAT_BOOTED = 0 ∧ field s F.BOOT_STAT_FAIL ≠ 2) ∧
    (∀ ns ∈ [[], [1], [1, 3], [1, 3, 4, 5], [1, 3, 4, 5, 6]], (boot ns).w.staging = true) ∧ (boot []).w.hasStep 1 = false ∧
    (boot [1]).w.hasStep 3 = false ∧ (boot [1, 3]).w.hasStep 4 = false ∧ (boot [1, 3]).w.hasStep 52 = false ∧ (boot [1, 3, 4, 5]).w.hasStep 6 = false ∧
    (boot [1, 3, 4, 5, 6]).w.hasStep 6 = true ∧ (boot [1, 3, 4, 5, 6]).w.hasStep 7 = false := by decide +kernel

/-- Bring-up with GO written after step 7. -/
def gone (f : ModeSt → ModeSt) : State := { modeSt (fun m => f { m with goDone := true }) (boot [7]) with now := 10 ^ 13 }

theorem witness_LeavingThaw : Reaches (boot [7]) src .BOOT_CTL 0 ∧ Reaches (on 1) src .KDF_RKCMD 0 ∧
    (let s := gone id
     s.w.bringing = true ∧ s.w.hasStep 7 = true ∧ s.dev.mode.goDone = true ∧ field s F.BOOT_STAT_FAIL = 0 ∧ s.w.paired = false ∧
       s.dev.mode.goAt + field s F.BOOT_CTL_PWAIT * 1000000 ≤ s.now ∧ s.dev.mode.rootKey ≠ none ∧ s.w.minSet = false) ∧
    (gone fun m => { m with rootKey := none }).dev.mode.rootKey = none ∧ (gone fun m => { m with rkBurn := some 5 }).dev.mode.rkBurn = some 5 ∧
    (on 3).w.cur ≠ mRESET ∧ (on 3).dev.txns = [] := by unfold Reaches; decide +kernel

/-- Recovery and Maintenance with their origin. -/
def from_ (m o : Nat) (req : Bool) : State := modeSt (fun x => { x with recFrom := some o, recReq := req, maintFrom := some o }) (on m)

theorem witness_ModeRequests : (∀ m ∈ [2, 3, 4, 5, 6, 7], Reaches (on m) src .SYS_MODEREQ 0 ∧ (on m).w.outranked 7 = false) ∧
    isService (on 3).w.cur = true ∧ Running (on 4) ∧ (from_ 7 3 false).w.exchanging = false ∧ NoWork (from_ 7 3 false) ∧
    (from_ 6 3 true).dev.mode.recFrom = some 3 ∧ field (regs [(F.KPR_RSTCTL_RUN, 0, 1)] (from_ 6 3 true)) F.KPR_RSTCTL_RUN = 1 ∧
    (modeSt (fun m => { m with took := some (0, 1) }) (on 3)).w.outranked 4 = true := by unfold Reaches Running NoWork; decide +kernel

theorem witness_KeepersAndRestart :
    (let s := kpr (on 3)
     s.w.cur ≠ mRESET ∧ s.dev.kpr.running = true ∧ field s F.KPR_KSTAT_ACTIVE < 2 ∧ field s F.KPR_KSTAT_FSTATE = 0 ∧ field s F.KPR_RSTCTL_RUN = 0 ∧
       Reaches s src .KPR_KCMD 0 ∧ Reaches s src .KPR_EXTEND 0 ∧ Reaches s src .KPR_RSTCTL 0) ∧
    field (regs [(F.KPR_KSTAT_FSTATE, 0, 1)] (kpr (on 3))) F.KPR_KSTAT_FSTATE = 1 ∧
    (let s := { regs [(F.KPR_KSTAT_FSTATE, 0, 2)] (kpr (on 3)) with now := 10 ^ 14 }
     field s F.KPR_KSTAT_FSTATE = 2 ∧ s.dev.kpr.holdAt + field s F.KPR_KCTL_HOLD * 1000000000 ≤ s.now) ∧
    (Tab.find? (busy [(regKey .KPR_KCMD 0, 1)] (on 3)).dev.busy (regKey .KPR_KCMD 0)).isSome = true ∧
    (let s := { regs [(F.KPR_RSTCTL_RUN, 0, 1)] (from_ 6 3 false) with now := 10 ^ 14 }
     field s F.KPR_RSTCTL_RUN = 1 ∧ NoWork s ∧ Reaches s src .KPR_RSTCTL 0 ∧ s.dev.mode.restartAt + field s F.KPR_RSTCTL_LIMIT * 1000000 ≤ s.now ∧
       field s F.SYS_MODE_FATAL = 0 ∧ s.dev.mode.recFrom = some 3 ∧ s.dev.mode.recReq = false) := by unfold Reaches NoWork; decide +kernel

/-- A flush in progress over one journal namespace, with one write at port 2. -/
def flush (k : Nat) (h : Option Nat) : State :=
  dev (fun d => { d with
    pci := [(2, { perst := true, links := [0], tags := [(5, { kind := k, ctrl := 3, len := 4096 })] })]
    jour := { frozen := true, slotWrites := if k = 5 then 1 else 0, headWrites := h } })
  (regs [(F.CHN_JSTAT_FLUSHING, 0, 1), (F.CHN_JNS_EN, 0, 1)] { on 3 with now := 10 ^ 9 })

theorem witness_PowerAndAlive : (on 3).dev.mode.pwrFailN = true ∧ (on 3).dev.jour.frozen = false ∧ (on 3).w.cur ≠ mRESET ∧
    (let s := flush 6 none
     field s F.CHN_JSTAT_FLUSHING = 1 ∧ s.dev.jour.slotWrites = 0 ∧ s.dev.jour.headWrites = none ∧ s.w.jns ≠ [] ∧ s.dev.jour.fell + 3000000 ≤ s.now) ∧
    (let s := flush 5 none
     s.dev.jour.slotWrites ≠ 0 ∧ (Tab.find? (s.w.pciPort 2).tags 5).map (fun c => (c.aborted, c.kind)) = some (false, 5) ∧ s.dev.nvmeq = []) ∧
    (Tab.find? ((flush 6 (some 1)).w.pciPort 2).tags 5).map (fun c => (c.aborted, c.kind)) = some (false, 6) ∧
    (let s := { on 3 with now := 3000007 }
     field s F.SYS_MODE_FATAL = 0 ∧ s.dev.mode.aliveStop = false ∧ s.dev.mode.alive = false ∧ s.now % 1000000 ≤ 40) ∧
    (let s := { modeSt (fun m => { m with alive := true }) (on 3) with now := 3500007 }
     s.dev.mode.alive = true ∧ 500000 ≤ s.now % 1000000 ∧ s.now % 1000000 ≤ 500040) ∧
    sext 11 (field (on 3) F.PWR_THERM_WARNTH) ≤ 230 ∧ field (on 3) F.PWR_THERM_TRIP = 0 := by decide +kernel

/-! ### Witnesses: registers and their commands -/

theorem witness_RegisterAccess : (∀ r ∈ [RegName.MOR_CTL, .PLK_RETCTL, .CHN_TOCTL, .CHN_DISPCTL, .WLD_SEL, .TIM_PPSOUT], Reaches (on 3) src r 0) ∧
    (on 3).w.devSpot 0xFFFFF0 4 true = .absent ∧ (on 3).w.physOk { world := 0, src := src } .wr (devBase + 0xFFFFF0) = true ∧ (on 0).w.cur = mRESET ∧
    (∀ r ∈ [RegName.MOR_DROPCNT, .NEVE_ALLOCSTAT], (on 3).w.physOk { world := 0, src := src } .rd (devBase + regOff r 0) = true ∧ fullSlot r = false ∧
      (on 3).w.devSpot (regOff r 0) 4 false = .bits r 0 31 0) ∧
    (∀ r ∈ [RegName.IDREV_SERNO_W0, .ETH_ADDR_W0, .ETH_TXTS_W0, .CIO_CAP], (on 3).w.physOk { world := 0, src := src } .rd (devBase + regOff r 0) = true ∧
      fullSlot r = true ∧ (on 3).w.devSpot (regOff r 0) 8 false = .bits r 0 63 0) ∧ Reaches (on 3) src .ETH_ADDR_W0 3 := by unfold Reaches; decide +kernel

theorem witness_Moraine : (on 3).w.cur ≠ mRESET ∧ levelOk 0x0A 0 = true ∧ field (on 3) F.MOR_CLS_PEND 0x0A = 0 ∧ (on 3).w.levelOf 0x0A 0 = 0 ∧
    (let s := regs [(F.MOR_CLS_PEND, 0x20, 1)] (on 3)
     field s F.MOR_CLS_PEND 0x20 = 1 ∧ escalates 0x20 = true ∧ levelOk 0x20 1 = true ∧ s.w.levelOf 0x20 1 = 2) ∧
    levelOk 0x05 3 = true ∧ (on 3).w.levelOf 0x05 3 = 3 ∧ levelOk 0x2C 0 = true ∧ Reaches (on 3) src .MOR_CLS 63 := by unfold Reaches; decide +kernel

theorem witness_CommandEnds :
    (let s := busy [(regKey .CHN_CTXCMD 0, 2)] (on 3)
     cmdFields .CHN_CTXCMD = some (F.CHN_CTXCMD_BUSY, F.CHN_CTXCMD_ERR) ∧ Tab.find? s.dev.busy (regKey .CHN_CTXCMD 0) = some 2 ∧
       s.w.ctxUnread 2 0 = false ∧ (s.w.cmdDo .CHN_CTXCMD 2).isNone = true) ∧
    (let s := busy [(regKey .CHN_CTXCMD 0, 5)] (dev (fun d => { d with chans := [(0, {})] }) (on 3))
     (s.w.cmdDo .CHN_CTXCMD 5).isSome = true) ∧
    (regs [(F.OWN_CTL_EN, 0, 1)] (on 3)).w.ctxUnread 1 0 = true ∧ revokes .KDF_CMD 4 = true ∧
    (let s := busy [(regKey .KDF_CMD 0, revokeTaken)] (dev (fun d => { d with cip := { d.cip with sweep := [0] } }) (on 3))
     s.w.revoking .KDF_CMD ∈ s.dev.cip.sweep) ∧ waitsRestart .KDF_CMD = true ∧ field (regs [(F.KPR_RSTCTL_RUN, 0, 1)] (on 3)) F.KPR_RSTCTL_RUN = 1 := by
  decide +kernel

/-- The context block of channel 5, and a command that waits for its end. -/
def chanSt (op : Nat) (cs : Tab Chan) : State :=
  let b : List Byte := leBytes 4 5 ++ leBytes 2 3 ++ [0, 0] ++ leBytes 4 0 ++ [0, 12] ++ leBytes 2 8 ++ leBytes 8 0x12000 ++ leBytes 2 1
  cells (cellsAt (0x10000 + 5 * 512) b ++ cellsAt 0x12000 [1]) (base F.CHN_CTXBASE_BASE 0x10000 (regs [(F.CHN_CTXCMD_CHID, 0, 5)]
    (busy [(regKey .CHN_CTXCMD 0, op)] (dev (fun d => { d with chans := cs }) (on 3)))))

theorem witness_ChannelCommands : Reaches (on 3) src .CHN_CTXCMD 0 ∧ (on 3).w.chan (2 ^ 20 - 1) = none ∧
    (let s := chanSt 1 []
     let c := Chan.parse (s.w.bytes (s.w.ctxAddr 5) 512)
     field s F.CHN_CTXCMD_CHID = 5 ∧ s.w.rangeOk (cirqueWho (source 21 0)) .rd (s.w.ctxAddr 5) 512 = true ∧ c.fix.state = 0 ∧ (s.w.ctxRoom c.prio).isSome = true) ∧
    (∀ st ∈ [1, 2, 3, 4], (chanSt 2 [(5, { state := st })]).w.chan 5 = some { state := st }) ∧ Reaches (on 3) src .CHN_AUDCMD 0 ∧
    Tab.find? (busy [(regKey .CHN_AUDCMD 0, 100)] { on 3 with now := 100 }).dev.busy (regKey .CHN_AUDCMD 0) = some 100 := by unfold Reaches; decide +kernel

/-- The epoch entry of world 3. -/
def keySt (op e : Nat) : State :=
  cells (cellsAt (0x100000 + 3 * 16) (leBytes 8 0 ++ leBytes 2 9 ++ leBytes 2 2 ++ leBytes 2 1 ++ [2, 0])) (base F.KDF_EPBASE_BASE 0x100000
    (regs [(F.KDF_CMD_WORLD, 0, 3), (F.KDF_CMD_PURP, 0, 1), (F.KDF_CMD_EPOCH, 0, e), (F.KDF_PURPCTL_PERIOD, 1, 0)] (busy [(regKey .KDF_CMD 0, op)] (on 3))))

theorem witness_KeyCommands : Reaches (on 3) src .KDF_CMD 0 ∧ field (on 3) F.KPR_RSTCTL_RUN = 0 ∧ (on 3).dev.cip.jobs = [] ∧
    (let s := keySt 3 7
     let e := s.w.epRead 3
     field s F.KDF_CMD_WORLD = 3 ∧ e.init = true ∧ e.revoked = false ∧ e.smin < 7 ∧ 7 ≤ e.scur ∧ s.w.rangeOk kdWho .wr (s.w.epAddr 3) 16 = true) ∧
    (on 3).w.epRead 3 = {} := by unfold Reaches; decide +kernel

/-- World 3 with a map entry. -/
def worldSt (op st : Nat) : State :=
  cells (cellsAt (0x1000000 + 5 * 64) (leBytes 2 3 ++ [1, 2] ++ leBytes 2 0xF)) (base F.WLD_TBASE_BASE 0x1000000
    (regs [(F.WLD_CMD_SLOT, 0, 5), (F.WLD_CMD_WORLD, 0, 3)] (busy [(regKey .WLD_CMD 0, op)]
      (dev (fun d => { d with worlds := if st = 0 then [] else [(3, { slot := 5, state := st })] }) (on 3)))))

theorem witness_WorldCommands : Reaches (on 3) src .WLD_CMD 0 ∧ NoWork (on 3) ∧
    (let s := worldSt 1 0
     s.w.worldAt 5 = none ∧ s.w.le (s.w.wldAddr 5) 2 = 3 ∧ s.w.rangeOk wldWho .rd (s.w.wldAddr 5) 64 = true ∧ Tab.find? s.dev.worlds 3 = none) ∧
    (∀ st ∈ [1, 2, 3], Tab.find? (worldSt 5 st).dev.worlds 3 = some { slot := 5, state := st } ∧ (worldSt 5 st).w.openCh 3 = 0) := by
  unfold Reaches NoWork; decide +kernel

/-- Page 1, in a region, of owner `o` in state `st`. -/
def ownSt (op st o : Nat) : State :=
  cells (cellsAt 0x1000004 (leBytes 4 (OwnEntry.mk o true true true true st 2).toNat)) (base F.OWN_TBASE_BASE 0x1000000
    (regs [(F.OWN_RGNA_EN, 0, 1), (F.OWN_RGNB_SIZE, 0, 1), (F.OWN_CMDADDR_ADDR, 0, 1), (F.OWN_CMD_WORLD, 0, 3), (F.OWN_CMD_COUNT, 0, 1)]
      (busy [(regKey .OWN_CMD 0, op)] (dev (fun d => { d with worlds := [(3, { slot := 5, state := 1, flags := 2 })] }) (on 3)))))

theorem witness_OwnerCommands : Reaches (on 3) src .OWN_CMD 0 ∧ Reaches (on 3) src .OWN_CTL 0 ∧ Reaches (on 3) src .OWN_PINOWN 47 ∧
    ((ownSt 1 0 0xFFFF).w.region 0x1000).isSome = true ∧ ((on 3).w.region 0x1000) = none ∧ (on 3).w.pinOn 47 = false ∧
    (∀ p ∈ [(1, 0, 0xFFFF), (3, 1, 3), (4, 2, 3), (6, 4, 3)], ((ownSt p.1 p.2.1 p.2.2).w.drainPages 0x1000 1).ownEntry 0x1000 =
      some ⟨p.2.2, true, true, true, true, p.2.1, 2⟩) ∧ ((ownSt 5 1 3).w.drainPages 0x1000 1).unitFailed 0x1000 = false := by unfold Reaches; decide +kernel

theorem witness_CacheCommands : Reaches (on 3) src .SNP_SLICECTL 2 ∧ Reaches (on 3) src .CRN_L2CTL 8 ∧ Reaches (on 3) src .FLO_L2CTL 31 ∧
    field (regs [(F.SNP_SLICECTL_EN, 2, 1)] (on 3)) F.SNP_SLICECTL_EN 2 = 1 ∧ field (regs [(F.CRN_L2CTL_EN, 2, 0)] (on 3)) F.CRN_L2CTL_EN 2 = 0 ∧
    Reaches (on 3) src .CRN_L1CMD 31 ∧ Reaches (on 3) src .CRN_IPI 0 ∧ Reaches (on 3) src .FLO_L2MASK 5 ∧
    Tab.find? (busy [(regKey .CRN_L1CMD 0, 3)] (on 3)).dev.busy (regKey .CRN_L1CMD 0) = some 3 ∧
    field (on 3) F.SNP_SLICECTL_SCRWAYS 2 ≠ 8 ∧ (on 3).w.l2maskBad 0 5 3 0 = true ∧ (regs [(F.FLO_L2DEF_WAYS, 0, 0xFFFE)] (on 3)).w.l2maskBad 0 5 3 1 = false := by unfold Reaches; decide +kernel

/-! ### Witnesses: time, buses, ports -/

theorem witness_Timebase : Reaches (on 1) src .TIM_SET 0 ∧ (on 1).w.cur = mTHAW ∧ Reaches (on 3) src .TIM_OFFSET 0 ∧
    (let s := regs [(F.TIM_CTL_SRC, 0, 1)] { on 1 with now := 3000000005 }
     field s F.TIM_CTL_SRC = 1 ∧ s.dev.servo.stepped = false ∧ field s F.TIM_STAT_LOCKED = 0) ∧
    (∀ r ∈ [1, 2, 3], let s := regs [(F.TIM_CTL_EN, 0, 1), (F.TIM_STAT_ACTIVE, 0, r)] (on 3)
     field s F.TIM_CTL_EN = 1 ∧ field s F.TIM_STAT_ACTIVE = r) ∧
    (let s := dev (fun d => { d with servo := { d.servo with rejected := 4, hbCount := 1000 } })
       (regs [(F.TIM_CTL_EN, 0, 1), (F.TIM_STAT_ACTIVE, 0, 3), (F.TIM_CTL_SRC, 0, 3), (F.TIM_CTL_SRC2, 0, 1)] (on 3))
     4 ≤ s.dev.servo.rejected ∧ 1000 ≤ s.dev.servo.hbCount ∧ field s F.TIM_STAT_HOLDOVER = 0 ∧ field s F.TIM_CTL_SRC2 ≠ field s F.TIM_CTL_SRC) ∧
    (let s := regs [(F.TIM_PPSOUT_EN, 0, 1), (F.PLK_SEG_SERVE, 0, 3)] { on 3 with now := 3000000002 }
     s.w.gateTpps = true ∧ field s F.TIM_PPSOUT_EN = 1 ∧ s.dev.servo.ppsOut = false) ∧ (on 4).w.gateTpps = false := by unfold Reaches; decide +kernel

/-- Logical core `l` stands for the physical core of that number, in service. -/
def core (l : Nat) (s : State) : State :=
  regs [(F.CRN_MAP_VALID, l, 1), (F.CRN_MAP_PHYS, l, l)] (wk (fun w => w.setUnit (coreSrc (.crn l)) { svc := true }) s)

/-- The control request of channel 7, bound to core 0, which world 0x0000 may drive or sense. -/
def asking (kind dr se : Nat) : State :=
  cells (cellsAt (tcmAddr 0 0xB0) (leBytes 8 (2 ^ 63 + kind * 2 ^ 60) ++ leBytes 8 1))
    (regs [(F.CIO_BIND_EN, 7, 1), (F.CIO_BIND_OFF, 7, 2), (F.OWN_PINOWN_DRIVE, 7, dr), (F.OWN_PINOWN_SENSE, 7, se)] (core 0 { on 3 with now := 5000000 }))

theorem witness_PinsAndLoops : ((on 3).w.ch 47).pin = false ∧ nbit (field (regs [(F.CIO_CFG_EDGE, 7, 3)] (on 3)) F.CIO_CFG_EDGE 7) 0 = true ∧
    (let s := regs [(F.CIO_CMP_TIME, 7, 900), (F.CIO_CFG_MODE, 7, 3)] { on 3 with now := 900 }
     field s F.CIO_CMP_TIME 7 ≠ 0 ∧ field s F.CIO_CMP_TIME 7 ≤ s.now ∧ field s F.CIO_CFG_MODE 7 = 3) ∧
    (let s := wk (fun w => w.modCh 7 fun c => { c with pwmNext := some (100, 7) }) (regs [(F.CIO_CFG_MODE, 7, 4)] { on 3 with now := 500 })
     field s F.CIO_CFG_MODE 7 = 4 ∧ (s.w.ch 7).pwmNext = some (100, 7) ∧ (s.w.ch 7).pwmNow.1 = 0) ∧
    (let s := regs [(F.CIO_TMRCTL_LEVEL, 7, 1)] { on 3 with now := 5000000 }
     field s F.CIO_TMRCTL_LEVEL 7 ≠ 0 ∧ field s F.CIO_TMRNEXT_COUNT 7 ≤ levelCount 1 s.now) ∧
    (∀ k ∈ [1, 2, 3, 4], let s := asking k 1 1
     let ctl := s.w.tcmLe (field s F.CIO_BIND_CORE 7) (field s F.CIO_BIND_OFF 7 * 64 + 0x30) 8
     nbit ctl 63 = true ∧ nbits ctl 62 60 = k ∧ s.w.chHeld 7 = false ∧ field s F.OWN_PINOWN_DRIVE 7 = 1 ∧ field s F.OWN_PINOWN_SENSE 7 = 1 ∧
       ∀ m < 48, m ≠ 7 → field s F.CIO_BIND_EN m = 0) ∧ field (asking 1 0 0) F.OWN_PINOWN_DRIVE 7 = 0 ∧
    (let s := core 3 (on 7)
     Reaches s src .CIO_LOOP 3 ∧ field s F.CIO_LOOP_BUSY 3 = 0 ∧ s.w.physCore 3 ≠ none) ∧
    (let s := regs [(F.CIO_LOOP_BUSY, 3, 1)] { on 3 with now := 10 ^ 9 }
     field s F.CIO_LOOP_BUSY 3 = 1 ∧ field s F.CIO_LOOP_ACKED 3 = 0 ∧ s.w.tcmLe 3 (s.w.hsOff 3 + 8) 8 = (s.w.loop 3).req * 2 ^ 32 + (s.w.loop 3).op ∧
       (s.w.loop 3).since + field s F.CIO_LOOP_LIMIT 3 * 1000000 ≤ s.now) := by unfold Reaches; decide +kernel

/-- Bus 2, enabled, in a cycle. -/
def sas (f : SasBus → SasBus) : State :=
  wk (fun w => w.modBus 2 fun b => f { b with running := true, cycle := 5, start := 5010000 }) (regs [(F.SAS_CTL_EN, 2, 1)] { on 3 with now := 12345678 })

/-- A frame of `n` bytes with its CRC. -/
def frame (n : Nat) (bs : List Byte) : List Byte :=
  let b := bs ++ zeros (n - 4 - bs.length)
  b ++ beBytes 4 (crc32c b)

theorem witness_Sastrugi : field (sas id) F.SAS_CTL_EN 2 = 1 ∧ (sas id).w.cur ≠ mTHAW ∧ ((sas id).w.bus 2).cycle < (sas id).w.cycleOf 2 ∧
    field (sas id) F.SAS_CTL_PHASE 2 ≤ (sas id).now / 1000 ∧
    (let s := regs [(F.PLK_CTL_WIT, 0, 4)] (sas id)
     s.w.isWit 2 = true ∧ s.w.gateSas 2 = false ∧ (s.w.bus 2).running = true) ∧
    sasCrcOk (frame 140 [0xBE, 0x10, 2, 0]) = true ∧ (frame 140 [0xBE, 0x10, 2, 0]).length = 140 ∧
    (∀ t ∈ [1, 2, 3], sasCrcOk (frame 28 [0xDA, t]) = true ∧ (frame 28 [0xDA, t]).length = 28) ∧ sasCrcOk (zeros 27 ++ [1]) = false ∧
    field (sas id) F.SAS_SLOT_STATE (slotIx 2 60) ≠ 2 ∧
    (let f : SasFrame := { slot := 60, d := 1200, bytes := frame 28 [0xDA, 1], crcOk := true, discarded := false, oldDisc := 0, oldCorr := none, oldDrift := false }
     (sas id).w.overlapped 2 f = false) ∧
    (let s := regs [(F.SAS_SMP_EN, 2, 1), (F.SAS_CTL_IDLELIM, 2, 4), (F.SAS_STAT_MASTER, 2, 1), (F.SAS_SLOT_STATE, slotIx 2 7, 1)] (sas fun b => { b with idle := [(7, 4)] })
     (s.w.bus 2).start + 990000 ≤ s.now ∧ field s F.SAS_SMP_EN 2 = 1 ∧ field s F.SAS_TCMB_EN 2 = 0 ∧ field s F.SAS_CTL_IDLELIM 2 ≤ Tab.getD (s.w.bus 2).idle 7 0 ∧
       s.w.rangeOk (cirqueWho (source 18 2)) .wr (s.w.base F.SAS_SMP_BASE 2 + 5 % 2 ^ field s F.SAS_SMP_SIZE 2 * 2048) 2048 = true ∧ s.w.gateSas 2 = true) ∧
    Reaches (on 3) src .SAS_CMDQ 2 ∧ 64 ≤ ((sas fun b => { b with cmdq := List.replicate 64 0 }).w.bus 2).cmdq.length := by unfold Reaches; decide +kernel

/-- Port 4 is up, and queue pair 7 on it, with or without a channel, is in RTS. -/
def qpSt (f : Qp → Qp) : State :=
  dev (fun d => { d with
    qps := [(qpKey 4 7, f { world := 3, chid := none, state := 3, ctx := (List.range 64).map fun i => if i = 42 then 1 else if i = 13 then 0x23 else 0, credmax := 8, epsn := 9 })]
    worlds := [(3, { slot := 5, state := 1 })] })
  (wk (fun w => w.modEth 4 fun e => { e with up := true }) (regs [(F.PLK_SEG_SERVE, 0, 3), (F.ETH_PORTCFG_EN, 2, 1), (F.ETH_PORTCFG_PFCEN, 2, 0xFF), (F.ETH_PORTCFG_PFCWD, 2, 1),
    (F.ETH_ADDR_W1_EN, 17, 1)] { on 3 with now := 12345678 }))

theorem witness_FabricPorts : (qpSt id).w.portOn 4 = true ∧ ((qpSt id).w.ethPort 4).up = true ∧ (qpSt id).w.worldActive 3 = true ∧ (qpSt id).w.entryOpen 4 1 = true ∧
    ((qpSt id).w.qp (qpKey 4 7)).isSome = true ∧ (qpSt id).w.recvHeld (qpKey 4 7) < 8 ∧ (qpSt id).w.qp (qpKey 4 8) = none ∧
    nbit (field (qpSt id) F.ETH_PORTCFG_PFCEN 2) 3 = true ∧
    (let s := wk (fun w => w.modEth 4 fun e => { e with paused := [(3, 0)] }) (qpSt id)
     field s F.ETH_PORTCFG_PFCWD 2 ≠ 0 ∧ Tab.find? (s.w.ethPort 4).paused 3 = some 0 ∧ 0 + field s F.ETH_PORTCFG_PFCWD 2 * 1000000 ≤ s.now) ∧
    (let s := qpSt fun x => { x with unacked := [{ psn := 20, n := 1, kind := 0 }], rnrWait := true }
     (s.w.qp (qpKey 4 7)).map (fun x => (x.unacked.length, x.rnrWait, x.up, x.byte 13 % 8, x.byte 13 / 16 % 8)) = some (1, true, true, 3, 2)) ∧
    (on 3).w.portOn 5 = false ∧ ((on 3).w.ethPort 4).up = false ∧ Reaches (on 3) src .ETH_QPCMD 0 ∧
    Tab.find? (busy [(regKey .ETH_QPCMD 0, 2)] (qpSt id)).dev.busy (regKey .ETH_QPCMD 0) = some 2 := by unfold Reaches; decide +kernel

/-- PCIe port 2, enabled, with link 0 and a command in flight. -/
def pciSt (c : NvmeCmd) (links : List Nat) : State :=
  wk (fun w => w.modPci 2 fun x => { x with perst := true, links := links, tags := [(5, c)], bifur := 1 }) (regs [(F.PCI_PORTCFG_EN, 2, 1), (F.PCI_CTRLMAP_RID, 67, 0x77)] (on 3))

theorem witness_PciePorts : Reaches (on 3) src .PCI_PORTCFG 2 ∧ field (on 3) F.PCI_PORTCFG_EN 2 = 0 ∧ (on 3).dev.nvmeq = [] ∧ (on 3).dev.txns = [] ∧
    (let s := regs [(F.PCI_PORTCFG_EN, 2, 1)] { on 3 with now := 10 ^ 9 }
     (s.w.pciPort 2).perst = false ∧ (s.w.pciPort 2).enAt + 100000000 ≤ s.now) ∧
    (((pciSt {} []).w.pciPort 2).links.contains 0 = false ∧ ((bifurLinks 1).any fun y => y.1 = 0) = true) ∧
    (let c : NvmeCmd := { kind := 2, ctrl := 3, len := 4096, pages := [9] }
     let s := pciSt c [0]
     (s.w.pciPort 2).links.contains 0 = true ∧ Tab.find? (s.w.pciPort 2).tags 5 = some c ∧ c.aborted = false ∧ 0x77 = field s F.PCI_CTRLMAP_RID (2 * 32 + 3) ∧
       c.admits 4092 4 true = true ∧ c.admits 0 4 false = false) ∧
    (let c : NvmeCmd := { kind := 1, ctrl := 3, len := 4096, pages := [9] }
     c.admits 4092 4 false = true) := by unfold Reaches; decide +kernel

theorem witness_Management : (on 3).w.mgmtUp = true ∧ (on 3).dev.mgmt.dynAddr = none ∧
    (let s := dev (fun d => { d with mgmt := { d.mgmt with smbus := true, daaWait := true } }) (on 3)
     s.w.mgmtUp = true ∧ s.dev.mgmt.smbus = true ∧ s.dev.mgmt.daaWait = true ∧ s.dev.mode.pwrgood = true) := by decide +kernel

/-- World 3 in slot 9 with counters, a dump period and a table whose ring page is mapped. -/
def pmuSt (b : Nat) : State :=
  let e : List Byte := leBytes 4 (OwnEntry.mk 3 true true true true 1 0).toNat
  cells (cellsAt 0x40000 (leBytes 8 0x41001) ++ cellsAt 0x41000 (leBytes 8 0x2D) ++ cellsAt (0x1000000 + 0x40 * 4) (e ++ e) ++ cellsAt (0x1000000 + 0x50 * 4) e)
    (base F.OWN_TBASE_BASE 0x1000000 (regs [(F.OWN_RGNA_EN, 0, 1), (F.OWN_RGNB_SIZE, 0, 1), (F.OWN_CTL_EN, 0, 1), (F.PMU_CMD_SLOT, 0, 9)]
      (busy [(regKey .PMU_CMD 0, b)] (dev (fun d => { d with
        pmu := [(9, { dumpk := 3, wink := 2, ringva := 0x50000, sels := [3 * 2 ^ 61, 0], cnt := [5, 6, 7], win := [9, 8], seq := 4, lost := 2 })]
        worlds := [(3, { slot := 9, flags := 1, root := 0x40000, state := 1 })] }) { on 3 with now := 16000001 }))))

theorem witness_Counters : Reaches (on 3) src .PMU_CMD 0 ∧ Tab.has (pmuSt 0).dev.pmu 9 = true ∧ Tab.has (on 3).dev.pmu 9 = false ∧
    ((on 3).w.snapRegs 0 0).isSome = true ∧ (on 3).w.snapRegs 0 1023 = none ∧
    (let s := pmuSt (pmuBusy 3 100)
     Tab.find? s.dev.busy (regKey .PMU_CMD 0) = some (pmuBusy 3 100) ∧ field s F.PMU_CMD_SLOT = 9 ∧ 100 ≤ s.now) ∧ pmuBusy 2 100 % 16 = 2 ∧ pmuBusy 1 100 % 16 = 1 ∧
    (∀ p ∈ (pmuSt 0).dev.pmu, p.2.winAt ≠ 16000000) ∧ (pmuSt 0).now % (2 ^ 3 * 1000) ≤ 1 ∧ ((pmuSt 0).w.worldAt 9).isSome = true ∧
    isOk ((pmuSt 0).w.xlate 3 (0x50000 + 5 * 64) .wr) = true ∧ isOk ((cells [] (pmuSt 0)).w.xlate 3 0x50000 .wr) = false := by unfold Reaches; decide +kernel

/-- A debug session over core 0, halted. -/
def dbgSt (f : Core → Core) : State :=
  dev (fun d => { d with
    dbg := { d.dbg with code := some 99, tenant := [(0, 100)] }
    cores := [(0, f { active := true, pc := 0x1000, g := [(5, iw 77)] })] })
  (regs [(F.DBG_EXPIRE_S, 0, 500), (F.DBG_GRANT_LEVEL, 0, 2), (F.DBG_STAT_SESSION, 0, 1)] (core 0 { on 3 with now := 2000000000 }))

theorem witness_DebugPort :
    (let s := dbgSt fun x => { x with halted := true }
     s.w.grantOn = true ∧ s.dev.dbg.code = some 99 ∧ s.w.dbgLevel = 2 ∧ field s F.DBG_STAT_LOCKOUT = 0 ∧ s.w.physCore 0 = some 0 ∧ (s.w.core c0).halted = true ∧
       s.w.dbgCoreReg c0 5 = some (iw 77) ∧ s.w.physOk { world := 0, src := source 23 1 } .wr 0x2000 = true ∧ s.w.pkind 0x2000 = .hbm ∧
       Tab.find? s.dev.dbg.tenant 0 = some 100 ∧ 100 + field s F.DBG_GRANT_HALTLIM * 1000000 ≤ s.now) ∧
    (let s := regs [(F.DBG_BP_EN, 2, 1), (F.DBG_BP_PC, 2, 0x400)] (dbgSt id)
     (s.w.core c0).active = true ∧ (s.w.core c0).halted = false ∧ s.w.tenantGrant = none ∧ (s.w.core c0).runs = true ∧ (s.w.bpHit 0).isSome = true) ∧
    (let s := { regs [(F.DBG_STAT_LOCKOUT, 0, 1)] (dbgSt id) with now := 10 ^ 12 }
     field s F.DBG_STAT_LOCKOUT = 1 ∧ s.dev.dbg.lockAt + 1000000000 ≤ s.now ∧ field s F.DBG_EXPIRE_S ≤ s.w.secs) ∧
    Reaches (on 3) src .DBG_GRANT 0 ∧ Reaches (on 3) src .DBG_HALT 31 ∧ field (regs [(F.DBG_STAT_LOCK, 0, 1)] (on 3)) F.DBG_STAT_LOCK = 1 := by
  unfold Reaches; decide +kernel

/-! ### Witnesses: the partner link, channels and engines -/

/-- Paired, the link up. -/
def paired (f : PlkSt → PlkSt) : State :=
  dev (fun d => { d with plk := f { d.plk with present := true } }) (base F.CHN_JMBASE_BASE 0x100000
    (regs [(F.PLK_CTL_EN, 0, 1), (F.PLK_CTL_VMAX, 0, 1), (F.PLK_STAT_PAIRED, 0, 1), (F.PLK_STAT_LINK, 0, 2)] { on 3 with now := 12345678 }))

/-- A message of the partner link. -/
def message (type slot key : Nat) (body : List Byte) : List Byte := leBytes 1 type ++ [0] ++ beBytes 2 slot ++ beBytes 4 body.length ++ beBytes 8 key ++ body

/-- The oldest message of channel `vc` is `m`. -/
def inbox (vc : Nat) (m : List Byte) (f : PlkSt → PlkSt) : State := paired fun p => f { p with inbox := p.inbox.set vc [(m, 1)] }

theorem witness_PartnerLink :
    (let s := paired id
     field s F.PLK_STAT_LINK = 2 ∧ s.w.cur ≠ mRESET ∧ s.w.paired = true ∧ field s F.PLK_STAT_RESYNC = 0 ∧ s.dev.plk.waiting = [[], [], [], []] ∧
       s.dev.txns.keysWhere (fun _ t => decide (t.wait = .link)) = [] ∧ s.dev.plk.nakSent = false ∧ s.dev.plk.expect = 0) ∧
    (∀ t ∈ [0, 1, 2, 0x11], let f := Flit.parse (flitBytes t 0xC 0 65535 1 9 [])
     f.ok = true ∧ f.ftype = t ∧ f.fseq = 0) ∧ (Flit.parse [1]).ok = false ∧
    (let s := regs [(F.PLK_STAT_PAIRED, 0, 0), (F.PLK_STAT_LINK, 0, 1)] (paired fun p => { p with fec := true })
     s.w.paired = false ∧ s.dev.plk.fec = true ∧ s.dev.plk.helloSeen = false ∧ s.w.pairFail (zeros 40) ≠ 0) ∧
    ((paired fun p => { p with replay := [⟨100, 0xC, [1]⟩] }).dev.plk.replay.dropWhile (fun g => decide (g.seq ≠ 100))) ≠ [] ∧
    (paired fun p => { p with sinceAck := 3 }).dev.plk.sinceAck ≠ 0 ∧
    (let m := message 2 4 3 [2]
     let s := inbox 0 m fun p => { p with mirror := [(3, (4, 1))] }
     s.dev.plk.inbox.getD 0 [] = [(m, 1)] ∧ leAt m 0 1 = 2 ∧ Tab.find? s.dev.plk.mirror 3 = some (4, 1) ∧
       s.w.rangeOk (cirqueWho (source 21 2)) .wr (s.w.base F.CHN_JMBASE_BASE + 4 * 4096) 256 = true) ∧
    (∀ t ∈ [0x10, 0x11, 0x12, 0x13, 0x14], leAt (message t 0 9 [0]) 0 1 = t) ∧
    (Tab.first? [(7, ({ jsn := 9, wait := .ack, slots := [3] } : Txn))] (fun _ t => decide (t.jsn = 9) && !t.slots.isEmpty && !t.intentOk)).isSome = true := by
  decide +kernel

theorem witness_PartnerLossAndReturn :
    (let s := regs [(F.PLK_STAT_LINK, 0, 1)] (paired fun p => { p with fec := true })
     s.w.linkOn = true ∧ field s F.PLK_STAT_LINK = 1 ∧ s.dev.plk.fec = true ∧ s.dev.plk.helloSeen = false) ∧
    (let s := paired fun p => { p with replay := [⟨100, 0xC, [1]⟩], replays := 7, lastHb := some 7 }
     s.dev.plk.replay ≠ [] ∧ 7 ≤ s.dev.plk.replays ∧ s.dev.plk.lastHb = some 7 ∧ 7 + 50000 ≤ s.now ∧ field s F.PLK_STAT_SILENT = 0) ∧
    (let s := regs [(F.PLK_STAT_SILENT, 0, 1), (F.PLK_CTL_WIT, 0, 4), (F.SAS_CTL_EN, 2, 1), (F.PLK_SEG_SERVE, 0, 1)]
       (paired fun p => { p with lastHb := some 7, judged := some true, heard := [2] })
     field s F.PLK_STAT_SILENT = 1 ∧ s.w.witBuses ≠ [] ∧ s.dev.plk.judged = some true ∧ s.dev.txns = [] ∧ s.w.shns = [] ∧ s.dev.plk.mirror = [] ∧
       s.dev.qps = [] ∧ s.dev.chans = [] ∧ s.dev.plk.returning = none ∧ s.w.weWin = true ∧ ∀ l < 32, field s F.CIO_LOOP_BUSY l = 0) ∧
    (let s := regs [(F.PLK_STAT_SILENT, 0, 1), (F.PLK_CLAIM_PARTNER, 0, 0x3006)] (paired fun p => { p with lastHb := some 7, known := true })
     s.w.witBuses = [] ∧ s.w.weWin = false ∧ s.dev.plk.judged ≠ some false) ∧
    (let s := regs [(F.PLK_SEG_SERVE, 0, 3), (F.PLK_RETCTL_HOLD, 0, 1)] { paired (fun p => { p with resyncSent := true }) with now := 2000000000 }
     s.w.mayReturn = true ∧ s.dev.plk.doneAt + field s F.PLK_RETCTL_HOLD * 1000000000 ≤ s.now) ∧
    (let s := paired fun p => { p with returning := some 1, lastRow := true }
     s.dev.plk.returning = some 1 ∧ s.dev.plk.handbackSent = false ∧ s.dev.plk.lastRow = true) ∧ Reaches (on 3) src .PLK_CMD 0 ∧
    Tab.find? (busy [(regKey .PLK_CMD 0, 3)] (paired id)).dev.busy (regKey .PLK_CMD 0) = some 3 := by unfold Reaches; decide +kernel

/-- Channel 5 of world 3 on queue pair 7 of port 4. -/
def chan5 (f : Chan → Chan) : Chan :=
  f { world := 3, state := 1, port := 4, qp := 7, inflight := 1, avail := 7, subcred := 8, progbase := 0x12000, proglen := 1, rdok := true, wrok := true
      tgtlimit := 1000, segshift := 12, lbaShift := 9 }

/-- Its queue pair, at protocol version `v`. -/
def qp5 (v : Nat) : Qp := { world := 3, chid := some 5, ver := v, state := 3, credmax := 8 }

/-- A transaction of it, past ACCEPT on engine 4. -/
def txn5 (f : Txn → Txn) : Txn :=
  f { chid := 5, world := 3, seq := 9, qp := qpKey 4 7, st := .accepted, acceptSent := true, intentOk := true, engine := some 4, length := 8192, prio := 1
      write := true }

/-- The device with them. -/
def chanDev (v : Nat) (c : Option Chan) (t : Option Txn) : State :=
  dev (fun d => { d with
    qps := [(qpKey 4 7, qp5 v)], chans := c.toList.map fun x => (5, x), txns := t.toList.map fun x => (3, x), worlds := [(3, { slot := 5, state := 1 })] })
  (wk (fun w => w.modEth 4 fun e => { e with up := true })
    (regs [(F.PLK_SEG_SERVE, 0, 3), (F.ETH_PORTCFG_EN, 2, 1), (F.CHN_KACTL_IDLE, 0, 5), (F.CHN_CRPCTL_VMAX, 0, 3), (F.SYS_READY_SUBSYS, 0, 0xFFF)]
      { on 3 with now := 12345678 }))

/-- A message of the client protocol. -/
def crp (ver type chid seq : Nat) (body : List Byte) : List Byte :=
  leBytes 1 ver ++ leBytes 1 type ++ beBytes 2 (16 + body.length) ++ beBytes 4 chid ++ beBytes 6 seq ++ [0, 0] ++ body

/-- The body of a SUBMIT: a read of 512 bytes. -/
def submit : List Byte := leBytes 1 1 ++ zeros 7 ++ beBytes 8 0 ++ beBytes 8 512 ++ beBytes 8 0x1000 ++ beBytes 4 77 ++ beBytes 4 88 ++ zeros 8

theorem witness_ClientMessages :
    (let s := chanDev 2 (some (chan5 id)) none
     (s.w.qp (qpKey 4 7)).isSome = true ∧ s.dev.jour.frozen = false ∧ s.w.gateFabric (s.w.chSeg 5) = true ∧ s.w.worldActive 3 = true ∧ (s.w.ethPort 4).up = true ∧
       Tab.has (s.w.ethPort 4).paused (field s F.ETH_PORTCFG_ROCEPRIO 2) = false ∧ s.w.chan 5 = some (chan5 id)) ∧
    (let m := Msg.parse (crp 1 1 5 0 ([1, 2] ++ zeros 14))
     m.type = 1 ∧ m.ver = 1 ∧ m.len = 32 ∧ m.chan = 5 ∧ m.be 16 1 ≠ 0 ∧ m.be 16 1 ≤ m.be 17 1) ∧
    (let m := Msg.parse (crp 2 0x10 5 7 submit)
     m.type = 0x10 ∧ m.ver = 2 ∧ m.len = 64 ∧ m.be 16 1 = 1 ∧ nbit (m.be 17 1) 0 = false ∧ (chan5 id).extentOk (m.be 24 8) (m.be 32 8) = true ∧
       (chanDev 2 (some (chan5 id)) none).w.bodyOk (chan5 id) m = true ∧ (chan5 id).seqhi ≤ m.seq + 1023 ∧ m.seq ≠ 2 ^ 48 - 1 ∧ (chan5 id).avail ≠ 0) ∧
    (∀ t ∈ [(0x13, 16), (0x20, 8), (0x21, 8)], (Msg.parse (crp 2 t.1 5 9 (zeros t.2))).type = t.1) ∧
    (let s := chanDev 2 (some (chan5 id)) (some (txn5 fun t => { t with st := .done, status := some 0 }))
     (s.w.seqTxn 5 9).isSome = true ∧ 0 + field s F.CHN_KACTL_IDLE * 1000000 ≤ s.now) ∧
    (let s := dev (fun d => { d with ctxq := [⟨qpKey 4 7, 0, 0, crp 2 0x21 5 9 (zeros 8)⟩] }) (chanDev 2 none none)
     s.w.chan 5 = none ∧ s.dev.ctxq.map (fun p => s.w.msgChan p) = [some 5] ∧ (s.w.ctxRoom 0).isSome = true) ∧ (on 3).now / 1000 ≠ 1 ∧
    (let s := chanDev 2 (some (chan5 id)) (some (txn5 fun t => { t with st := .queued, wait := .engine, engine := none }))
     s.w.admits (txn5 id) = true) := by decide +kernel

/-- A program of one command at index 0. -/
def prog (op fl a b c : Nat) (x : Chan) (t : Txn) : State :=
  base F.CHN_JBASE_BASE 0x200000 (regs [(F.CHN_JCTL_SLOTCAP, 0, 100), (F.CHN_JCTL_MIRTHR, 0, 4096)]
    (cells (cellsAt 0x12000 (leBytes 1 op ++ leBytes 1 fl ++ leBytes 2 a ++ leBytes 4 b ++ leBytes 8 c)) (chanDev 1 (some x) (some t))))

/-- Engine 4 picks the transaction, whose command is `op`. -/
def runsOp (op a : Nat) (x : Chan) (t : Txn) : Bool :=
  let s := prog op 0 a 0 0 x t
  ((s.w.enginePick 4).map Prod.fst == some 3) && (s.w.cmdAt x.progbase 0).map Cmd.op == some op && decide (s.w.txn 3 = some t) && decide (s.w.chan 5 = some x)

theorem witness_ChannelPrograms : (List.range 20).all (fun k => runsOp (k + 1) 0 (chan5 id) (txn5 id)) = true ∧
    runsOp 1 257 (chan5 id) (txn5 id) = true ∧ runsOp 4 0 (chan5 id) (txn5 fun t => { t with bufs := [10, 11] }) = true ∧
    runsOp 3 0 (chan5 id) (txn5 fun t => { t with acceptSent := false, st := .intent }) = true ∧
    runsOp 11 0 (chan5 id) (txn5 fun t => { t with segs := [(0, { chain := [10], len := 4096 })] }) = true ∧
    runsOp 11 0 (chan5 id) (txn5 fun t => { t with segs := [(0, { busy := true })] }) = true ∧
    (let s := prog 1 0 0 0 0 (chan5 id) (txn5 id)
     s.w.stopped 3 0 0 = false ∧ s.w.subReady 5 = true ∧ s.w.clientUp (txn5 id) = true ∧ (s.w.pickSlots (s.w.slotsFor (txn5 id))).length = s.w.slotsFor (txn5 id) ∧
       profBad 0 true = true ∧ cipOk 0x101 9 = true ∧ profBad (4 * 2 ^ 40 + 16 * 2 ^ 32 + 12 * 2 ^ 24 + 2) true = false) := by decide +kernel

/-- A spillable chain of one buffer that has waited. -/
def aged (f : NeveSt → NeveSt) (g : Seg → Seg) : State :=
  dev (fun d => { d with neve := f d.neve }) (base F.NEVE_SPILLBASE_BASE 0x400000 (regs [(F.NEVE_SPILLCTL_STALL, 0, 1000), (F.NEVE_SPILLSIZE_SLOTS, 0, 10)]
    (chanDev 1 (some (chan5 id)) (some (txn5 fun t => { t with segs := [(2, g { chain := [7], len := 4096, since := 12000000 })] })))))

theorem witness_ChannelEvents :
    (let s := aged id id
     (s.w.spillable.find? fun p => p.2.1 = 3 ∧ p.2.2 = 2) = some (12000000, 3, 2) ∧ field s F.NEVE_SPILLCTL_STALL * 4 ≤ (s.now - 12000000) * 5 ∧
       s.w.rangeOk (cirqueWho (source 21 1)) .wr (s.w.base F.NEVE_SPILLBASE_BASE) 4096 = true ∧ s.dev.neve.slots = [] ∧ s.dev.neve.stalls = []) ∧
    (aged (fun v => { v with spillOff := true }) id).dev.neve.spillOff = true ∧
    (let s := aged (fun v => { v with reqs := [⟨4, 1, 2, 3, .reserve 3⟩], refused := [⟨4, 1, 2, 3, .reserve 3⟩] })
       fun g => { g with ops := [.deliver], spilled := [(0, 0)] }
     s.dev.neve.reqs.map (fun r => grants r s.w.neveFree) = [true] ∧ field s F.NEVE_SPILLCTL_LOWWM + 258 ≤ s.w.neveFree ∧ s.dev.neve.refused[0]?.isSome = true ∧
       s.w.asking (.back 3 2) = false) ∧ grants ⟨4, 1, 2, 3, .reserve 3⟩ 257 = false ∧
    (let s := regs [(F.CHN_JCTL_SLOTCAP, 0, 0)] (chanDev 1 (some (chan5 id)) (some (txn5 fun t => { t with wait := .noslot, intentOk := false })))
     field s F.CHN_JCTL_SLOTCAP < s.dev.jslots.length + s.w.slotsFor (txn5 id)) ∧
    (let t := txn5 fun t => { t with deadline := 12000000, inWheel := true }
     (chanDev 1 (some (chan5 id)) (some t)).w.txn 3 = some t ∧ ceilDiv t.deadline 1000 * 1000 ≤ 12345678) ∧
    (let s := { chanDev 1 (some (chan5 fun c => { c with replayWait := some 5 })) none with now := 10 ^ 12 }
     5 + field s F.CHN_REPLAYCTL_WAIT * 1000000 ≤ s.now ∧ s.w.txnsOf 5 = []) ∧
    (let s := regs [(F.CHN_ENGMAP_VALID, 4, 1), (F.CHN_ENGMAP_PHYS, 4, 4)] (wk (fun w => w.setUnit (source 6 4) { svc := true }) (on 3))
     4 ∈ s.w.engines ∧ s.w.spareEngine = none) := by decide +kernel

/-- A segment whose stage runs. -/
def seg5 (op : SegOp) : Seg := { ops := [op], running := true, busy := true, chain := [7], outChain := [8], len := 4096 }

/-- The device with it, as its only transaction. -/
def stage5 (op : SegOp) (f : Dev → Dev) : State :=
  dev f (cells (cellsAt 0x12000 [0x0F]) (chanDev 1 (some (chan5 id)) (some (txn5 fun t => { t with segs := [(1, seg5 op)], outstanding := 1, issued := true }))))

/-- A compression job of it, on engine 2. -/
def job5 (f : CmpJob → CmpJob) : CmpJob :=
  f { ref := ⟨3, 1⟩, inflate := false, prio := 1, issuer := 4, job := 2, world := 3, profile := 4 * 2 ^ 40 + 16 * 2 ^ 32 + 12 * 2 ^ 24 + 2, inlen := 4096
      explen := 4096, chid := 5, inChain := [7], outChain := [8], form := 1, format := 2, engine := some 2 }

theorem witness_StorageAndCompression :
    (let s := stage5 (.stread 8) fun d => { d with pci := [(2, { tags := [(6, { txn := some 3, seg := 1, kind := 2, ctrl := 0, nsid := 1, len := 4096, mdata := zeros 64 })] })] }
     (Tab.find? (s.w.pciPort 2).tags 6).isSome = true ∧ s.dev.nvmeq = [] ∧ (s.w.txn 3).map Txn.segs = some [(1, seg5 (.stread 8))] ∧ s.w.chan 5 = some (chan5 id) ∧
       s.w.metaShort 2 { txn := some 3, seg := 1, kind := 2, ctrl := 0, nsid := 1, len := 4096, mdata := zeros 64 } = false) ∧
    (let s := stage5 (.compress 0) fun d => { d with cmp := { d.cmp with jobs := [(8, job5 id)] } }
     s.w.cmpOn 2 = some (8, job5 id) ∧ (job5 id).ref = ⟨3, 1⟩ ∧ (job5 id).count = 1) ∧
    (let s := wk (fun w => w.setUnit (source 7 2) { svc := true }) (stage5 (.compress 0) fun d => { d with
       cmp := { d.cmp with jobs := [(8, job5 fun j => { j with engine := none })], queue := [8] } })
     2 ∈ s.w.cmpEngines ∧ s.w.cmpOn 2 = none ∧ ((s.w.cmpReady 2).map fun b => b.1) = [8] ∧ s.dev.neve.stalls = []) ∧
    (let s := regs [(F.SYS_MODE_CUR, 0, 7)] (stage5 (.inflate 0) fun d => { d with
       cmp := { d.cmp with jobs := [(8, job5 fun j => { j with inflate := true })], saveSet := true } })
     s.w.draining = true ∧ s.w.rangeOk (cirqueWho (source 7 2)) .wr (s.w.saveAddr (job5 id)) 4096 = true) ∧
    (let s := regs [(F.PLK_SHNS_PORT, 0, 2), (F.PLK_SHNS_NSID, 0, 1), (F.PLK_SHNS_EN, 0, 1)] (on 3)
     s.w.isShared 2 1 = true) ∧
    ((stage5 (.compress 0) fun d => { d with scrubs := [{ ref := ⟨3, 1⟩, bufs := [8] }] }).dev.scrubs[0]?.map Scrub.ref) = some ⟨3, 1⟩ := by decide +kernel

/-- A SEAL job of it. -/
def cip5 (f : CipJob → CipJob) : CipJob :=
  f { ref := ⟨3, 1⟩, op := 1, prio := 1, issuer := 4, job := 2, world := 3, profile := 0x0101, chain := [7], len := 4096, lba := 8, nsid := 1, sdesc := 0 }

/-- The cipher block with it, the KDU in service. -/
def sealed (j : CipJob) (q : List Nat) (f : CipSt → CipSt) : State :=
  wk (fun w => (w.setUnit (source 8 25) { svc := true }).setUnit (source 8 0) { svc := true })
    (regs [(F.CIP_IVCTL_ARM, 0, 1)] (modeSt (fun m => { m with rootKey := some 5 }) (stage5 .seal fun d => { d with
      cip := f { d.cip with jobs := [(8, j)], queue := q, next := 9 } })))

/-- A segment at the Floe loader. -/
def kseg5 (c : Option Nat) : KSeg :=
  { ref := ⟨3, 1⟩, chid := 5, att := 0, word := 2 * 2 ^ 52 + 64 * 2 ^ 40 + 64 * 2 ^ 32 + 2 * 2 ^ 30 + 5, world := 3, prio := 1, param := 77, inChain := [7]
    inLen := 4096, outChain := [8], core := c }

theorem witness_CiphersAndKernels :
    (let s := sealed (cip5 id) [8] id
     s.w.cipOn 0 = none ∧ s.dev.neve.stalls = [] ∧ ((s.w.cipReady.filter fun a => s.w.cipFor 0 a.2 && !s.w.armWait a.2).map fun a => a.1) = [8]) ∧
    (regs [(F.CIP_IVCTL_ARM, 0, 0)] (sealed (cip5 id) [8] id)).w.armWait (cip5 id) = true ∧
    (let j := cip5 fun j => { j with core := some 0 }
     let s := sealed j [] fun c => { c with sweep := [3] }
     s.w.cipOn 0 = some (8, j) ∧ s.w.canDerive = true ∧ Tab.find? s.dev.cip.jobs 8 = some j ∧ j.key = none ∧ j.asked = false ∧ j.modeBad = false ∧ s.dev.cip.sweep = [3]) ∧
    (let s := sealed (cip5 fun j => { j with core := some 0, asked := true }) [] fun c => { c with derivs := [⟨5, 1, 3, false, [8]⟩] }
     s.dev.cip.derivs[0]? = some ⟨5, 1, 3, false, [8]⟩) ∧
    (let s := regs [(F.FLO_MAP_VALID, 0, 1)] (wk (fun w => w.setUnit (coreSrc (.flo 0)) { svc := true }) (base F.FLO_KTBASE_BASE 0x20000 (stage5 (.kernel 0 77) fun d => { d with
       flo := { d.flo with segs := [(8, kseg5 none)], next := 9 } })))
     s.w.kstate 2 ≠ 2 ∧ (s.w.place 8 (kseg5 none)).isSome = true) ∧
    (stage5 (.kernel 0 77) fun d => { d with flo := { d.flo with segs := [(8, kseg5 (some 3))], next := 9 } }).w.segOn 3 = some (8, kseg5 (some 3)) ∧
    Reaches (on 7) src .FLO_XCHG 0 ∧ Reaches (on 3) src .CRN_UCLOAD 0 := by unfold Reaches; decide +kernel

/-- A queue pair of world `wd` without a channel, and channel 5. -/
def svcSt (wd : Nat) (f : Dev → Dev) : State := dev (fun d => f { d with qps := [(qpKey 4 7, { qp5 0 with world := wd, chid := none })] }) (chanDev 1 (some (chan5 id)) none)

/-- A request of operation `op`. -/
def request (op : Nat) (body : List Byte) : List Byte := [1, BitVec.ofNat 8 op] ++ beBytes 2 (16 + body.length) ++ zeros 12 ++ body

theorem witness_TenantServices :
    (let s := svcSt 3 id
     (s.w.qp (qpKey 4 7)).map (fun x => (x.chid, x.up, x.world)) = some (none, true, 3) ∧ s.w.gateFabric (s.w.qpSeg (qpKey 4 7)) = true ∧ s.dev.svc = [] ∧
       field s F.KPR_RSTCTL_RUN = 0 ∧ s.w.freeRetired.chanAny 5 = some (chan5 id) ∧ s.w.freeRetired.loads < 256 ∧ field s F.WLD_LOADCMD_BUSY = 0) ∧
    (∀ op ∈ [(1, 0), (2, 16), (3, 2), (4, 32), (0x40, 0), (0x7F, 0)], let b := request op.1 (zeros op.2)
     leAt b 1 1 = op.1 ∧ ofBE ((b.drop 2).take 2) = b.length ∧ ofBE (b.take 1) = 1 ∧ ofBE ((b.drop 8).take 8) = 0) ∧
    (let z : Svc := ⟨qpKey 4 7, 0, zeros 40, none, none⟩
     let s := svcSt 3 fun d => { d with svc := [z] }
     s.dev.svc[0]? = some z ∧ 0 + field s F.WLD_SVCCTL_HOLD * 1000 ≤ s.now ∧ s.w.shut = false) ∧
    (let s := cells (cellsAt 0x30000 (leBytes 4 5 ++ leBytes 2 3 ++ [1, 0] ++ leBytes 8 0 ++ leBytes 8 4096)) (svcSt 3 id)
     s.w.loadDesc 0x30000 = some ⟨5, 3, 1, 0, 4096, 0, 0, 0⟩ ∧ s.w.loadDesc 0x31000 = none ∧ 0 % (chan5 id).segSize = 0 ∧
       s.w.loadBad (chan5 id) ⟨5, 3, 1, 0, 4096, 0, 0, 0⟩ = false ∧ isOk (s.w.destPages ⟨5, 3, 1, 0, 4096, 0, 0, 0⟩) = false) ∧
    (let t := txn5 fun t => { t with load := some 0x30000, status := some 1, dest := (0, [0x60000], 77, true) }
     let s := svcSt 3 fun d => { d with txns := [(3, t)] }
     s.w.txn 3 = some t ∧ t.anyBusy = false) ∧
    ((on 3).w.memUnit 0x40040).isSome = true ∧
    (let s := dev (fun d => { d with cxl := [(0, 0x1000000)] }) (on 3)
     s.w.memUnit 0x200000000040 = none ∧ s.w.pkind 0x200000000040 = .cxl 0) := by decide +kernel

/-- Core 0 with line 6 pending and a vector. -/
def irqSt (f : Core → Core) : State :=
  coreSt (fun x => f { x with psw := 1, iena := 0x7FF, ipend := 64, vbase := BitVec.ofNat 64 (pc0 + 0x8000), g := [(30, iw (pc0 + 0x1F020))] })
    [(tcmAddr 0 (0x8000 + 0x16 * 8) / 8, tINT)] (cellsAt (tcmAddr 0 (0x8000 + 0x16 * 8)) (leBytes 8 (pc0 + 0x400)))

/-- A pair of cores 0 and 1. -/
def pairSt (st : Nat) (f : ModeSt → ModeSt) : State :=
  core 1 (core 0 (modeSt (fun m => f { m with strapPair := true }) (regs [(F.CRN_PAIRSTAT_TRAIL, 0, 1), (F.CRN_PAIRSTAT_STATE, 0, st)]
    (dev (fun d => { d with cores := [(0, { active := true }), (1, { active := true })] }) { on 3 with now := 1000000 }))))

theorem witness_CoreEvents :
    (let s := irqSt id
     let lines := s.w.ipend 0 &&& bits (s.w.core c0).iena 15 0
     (s.w.core c0).runs = true ∧ nbit lines 6 = true ∧ (∀ l < 6, nbit lines l = false) ∧
       (match (s.w.checkpoint c0).frameCheck c0 (gpr s c0 30) with | (w3, 0, _) => (w3.vector c0 0x16).2.isSome | _ => false) = true) ∧
    (let s := { irqSt (fun x => { x with ndead := 77 }) with now := 77 }
     (s.w.core c0).ndead ≠ 0 ∧ (s.w.core c0).ndead.toNat ≤ s.now) ∧
    (irqSt fun x => { x with dl1 := [(36, { line := 9, dirty := true, world := 0, wgrant := false, used := false })] }).w.dl1Dirty c0 9 = true ∧
    (let s := pairSt 0 id
     s.dev.mode.strapPair = true ∧ 0 < s.w.crnLogs / 2 ∧ field s F.CRN_PAIRSTAT_STATE 0 = 0 ∧ (s.w.core c0).frozen = false) ∧
    (let s := pairSt 2 fun m => { m with pairTests := [0], pairRetry := [0] }
     0 ∈ s.dev.mode.pairTests ∧ field s F.CRN_PAIRSTAT_STATE 0 = 2 ∧ field s F.CRN_PAIRSTAT_LEAD 0 ≠ field s F.CRN_PAIRSTAT_TRAIL 0 ∧ 0 ∈ s.dev.mode.pairRetry) ∧
    (let s := wk (fun w => w.setUnit (coreSrc (.crn 32)) { spare := true }) (pairSt 1 fun m => { m with soloAt := [(0, 7)] })
     Tab.find? s.dev.mode.soloAt 0 = some 7 ∧ 7 + 10000 ≤ s.now ∧ (s.w.core c0).since = 0 ∧ s.w.crnSpare = some 32) ∧ (pairSt 1 id).w.crnSpare = none ∧
    (let s := { regs [(F.PWR_LPCTL_DOZE, 0, 3)] (irqSt fun x => { x with waiting := true }) with now := 999999 }
     (s.w.core c0).waiting = true ∧ (s.w.core c0).doze = false ∧ (s.w.core c0).corectl.getLsbD 5 = false ∧ s.w.ipend 0 ≠ 0 ∧
       (s.w.core c0).napAt + field s F.PWR_LPCTL_DOZE * 1000 ≤ s.now) := by decide +kernel

/-- Line 64 as L2s and the directory have it. -/
def lineSt (l : List (Nat × LineSt)) (d : Option DirEntry) (f : Dev → Dev) : State :=
  dev (fun x => f { x with coh := { x.coh with l2 := l.map (fun p => (l2Key p.1 64 2, { line := 64, st := p.2, age := 1 })), dir := d.toList.map fun e => (64, e) } })
    (regs [(F.CRN_L2CTL_EN, 0, 1), (F.CRN_L2CTL_EN, 1, 1)] (on 3))

theorem witness_Coherence :
    (let s := lineSt [] none id
     s.w.l2Id 0 = true ∧ s.w.l2En 0 = true ∧ s.w.l2WayOk 0 3 15 = true ∧ s.w.l2St 0 64 = none ∧ s.w.dirOf 64 = none ∧ s.w.mtype 0x1000 = 0 ∧
       s.w.rangeOk { world := 0, src := src, dma := true } .wr 0x1000 64 = true ∧ s.w.physOk (s.w.coreWho c0 0) .wr 0x1000 = true) ∧
    (let s := lineSt [(1, .M)] (some ⟨some 1, false, [], false⟩) id
     s.w.l2St 1 64 = some .M ∧ s.w.dirOf 64 = some ⟨some 1, false, [], false⟩) ∧
    (lineSt [(1, .E)] (some ⟨some 1, false, [], false⟩) id).w.l2St 1 64 = some .E ∧ (lineSt [(0, .S), (1, .S)] (some ⟨none, false, [0, 1], false⟩) id).w.l2St 0 64 = some .S ∧
    (let s := lineSt [(0, .M)] (some ⟨some 0, false, [], false⟩) fun d => { d with cores := [(0, { active := true, resv := some ⟨false, 64⟩ })], coh := { d.coh with deferred := [(64, 0)] } }
     s.w.holdsOff 0 64 = some c0 ∧ (64, coreKey c0) ∈ s.dev.coh.deferred) ∧
    (∃ z, atomicOp 3 false ⟨tINT, 1⟩ ⟨tINT, 5⟩ ⟨tINT, 0⟩ = .ok (some z)) := by
  refine ⟨?_, ?_, ?_, ?_, ?_, ⟨_, rfl⟩⟩ <;> decide +kernel

/-! ### Witnesses: every command and every state -/

theorem witness_StepRunsFrontCommand : ({ State.reset with pending := [.trefLoss] } : State).pending = .trefLoss :: [] := rfl

/-- A record in the Moraine FIFO. -/
def logSt (en at_ : Nat) : State :=
  base F.MOR_LOGBASE_BASE at_ (regs [(F.MOR_CTL_LOGEN, 0, en), (F.MOR_LOGCTL_SIZE, 0, 12)] (dev (fun d => { d with mor := { d.mor with fifo := [⟨5, 6, 0x10, 3, 4, 0, 3, 0, 9⟩] } }) (on 3)))

theorem witness_IdleCycle : (on 0).w.cur = mRESET ∧ (on 0).pending = [] ∧ (logSt 0 0x4000).dev.trc.buf = [] ∧ field (logSt 0 0x4000) F.MOR_CTL_LOGEN = 0 ∧
    (let s := logSt 1 0x4000
     s.w.logFull = false ∧ s.w.rangeOk (cirqueWho (source 0 0)) .wr (s.w.base F.MOR_LOGBASE_BASE + field s F.MOR_LOGHEAD_IDX * 32) 32 = true) ∧
    (let s := logSt 1 (2 ^ 45)
     s.w.rangeOk (cirqueWho (source 0 0)) .wr (s.w.base F.MOR_LOGBASE_BASE + field s F.MOR_LOGHEAD_IDX * 32) 32 = false) := by decide +kernel

theorem witness_CommandFrames : (on 3).dev.neve.stalls = [] ∧ coreKey f0 ≠ coreKey c0 := by decide +kernel

theorem witness_MemoryStaysCanonical : MemOk sM ∧ MemOk (on 3) := by unfold MemOk; decide +kernel

/-! ### Well-formedness: each check refuses an ill-formed term -/

theorem test_wellFormed_refuses :
    ([ -- a core the largest part does not have (R221, R147)
      .add (.crn 36) 1 2 3 false, .add (.flo 288) 1 2 3 false,
      -- register numbers, for each operand place
      .add c0 32 2 3 false, .add c0 1 32 3 false, .add c0 1 2 32 false, .fma c0 1 1 2 3 32,
      -- shift amounts, conditions, immediates, halfword numbers, tags, offsets
      .slli c0 1 2 64 false, .pick c0 15 1 2 3, .bc c0 15 0, .addi c0 1 2 0x10000, .seth c0 1 4 0, .li48 c0 1 (2 ^ 48), .orh c0 1 0x10000,
      .retag c0 1 2 16, .bc c0 0 (2 ^ 22), .cb c0 1 4 0 0, .cb c0 1 0 16 0, .cb c0 1 0 0 (2 ^ 14),
      -- SX with an 8-byte load, the base as destination in MODE 2, displacements and index registers, MODE and SZ
      .ld c0 0 true 3 1 2 0, .ld c0 2 false 3 2 2 0, .ld c0 0 false 3 1 2 2048, .ld c0 1 false 3 1 2 32, .ld c0 4 false 3 1 2 0, .st c0 0 4 1 2 0,
      -- formats, rounding modes and conversions
      .fadd c0 0 0 1 2 3, .fadd c0 5 0 1 2 3, .fadd c0 1 5 1 2 3, .fcvtFf c0 1 3 0 1 2 3, .fcvtFf c0 3 3 0 1 2 3,
      -- system operands
      .svc c0 1024, .mfsr c0 1 1024, .fence c0 4, .crc c0 1 2 3 3, .tagset c0 1 16,
      -- vector masks, indices and formats
      .vadd c0 8 1 2 3, .vsel c0 0 0 1 2 3, .vins c0 0 0 1 2 8, .vext c0 1 2 8, .vfadd c0 0 0 1 2 3, .vbcast c0 5 0 1 2, .vld c0 1 0 1 2 32 ] : List Instr).all
      (fun i => !wellFormed i) = true := by decide +kernel

theorem test_wellFormed_accepts :
    ([.add (.crn 35) 31 31 31 true, .add (.flo 287) 0 0 0 false, .ld c0 3 true 2 1 2 31, .fcvtFf c0 2 3 7 1 2 3, .vsel c0 4 7 1 2 3, .bc c0 14 (2 ^ 22 - 1)] : List Instr).all
      wellFormed = true := by decide +kernel

/-! ### Words written out from R193, R194 and R219 -/

theorem test_tableWord (n w : Nat) : decodeTableWord n w = none := rfl

theorem test_decode_words :
    -- R format: ADD r3, r1, r2 with F; SLLI by 33 (FN[9] holds bit 5); JR r7
    decodeTsh c0 0b000001_00011_00001_00010_10000000000 = some (.add c0 3 1 2 true) ∧
    decodeTsh c0 0b000001_00011_00001_00001_01000001100 = some (.slli c0 3 1 33 false) ∧
    decodeTsh c0 0b100011_00000_00111_00000_00000000000 = some (.jr c0 7) ∧
    -- I format: ADDI r4, r5, 0xFFFF; CMPI; SETH
    decodeTsh c0 0b000010_00100_00101_1111111111111111 = some (.addi c0 4 5 0xFFFF) ∧
    decodeTsh c0 0b000110_00000_00101_0000000000000111 = some (.cmpi c0 5 7) ∧
    decodeTsh c0 0b000111_00100_00011_0000000000000001 = some (.seth c0 4 3 1) ∧
    -- M format: LD sign-extended 4 bytes, MODE 0; ST of 8 bytes, MODE 1 with RB 9
    decodeTsh c0 0b010000_00100_00101_00_1_10_00000001000 = some (.ld c0 0 true 2 4 5 8) ∧
    decodeTsh c0 0b010001_00100_00101_01_0_11_01001_000000 = some (.st c0 1 3 4 5 9) ∧
    -- B and C formats
    decodeTsh c0 0b100000_1110_0000000000000000000100 = some (.bc c0 14 4) ∧
    decodeTsh c0 0b100010_00101_010_0110_00000000000011 = some (.cb c0 5 2 6 3) ∧
    -- V and VM formats
    decodeTsh c0 0b101000_00001_00010_00011_000_001_00000 = some (.vadd c0 1 1 2 3) ∧
    decodeTsh c0 0b101100_00001_00010_00_111_00001000000 = some (.vld c0 0 7 1 2 64) ∧
    -- FMA: FN[10:6] RC, FN[5:3] FMT, FN[2:1] OP
    decodeTsh c0 0b011001_00001_00010_00011_00100_001_00_0 = some (.fma c0 1 1 2 3 4) ∧
    -- L format: the second half is the upper half of the code word
    decodeTsh c0 (0x12345678 * 2 ^ 32 + 0b111111_00110_00000_1010101111001101) = some (.li48 c0 6 0xABCD12345678) := by decide +kernel

theorem test_decode_illegal :
    [0, -- an all-zero instruction (R192)
     0b111110_00000000000000000000000000, -- another MAJ (R194)
     0b000110_00001_00101_0000000000000111, -- CMPI with RD not 0
     0b010000_00100_00101_00_1_11_00000001000, -- SX with an 8-byte load (R193)
     0b010000_00101_00101_10_0_11_00000001000, -- MODE 2 with RD equal to RA (R195)
     0b010000_00100_00101_01_0_11_01001_000001, -- a nonzero 0-field
     0b100000_1111_0000000000000000000100].all (fun w => decodeTsh c0 w = none) = true := by decide +kernel

/-! ### Commands with the spec's values -/

theorem test_saturating_counts : satAdd 8 0xFF 1 = 0xFF ∧ satAdd 8 0xFE 1 = 0xFF := by decide +kernel

theorem test_crc64_check : crc64 ("123456789".toList.map fun ch => BitVec.ofNat 8 ch.toNat) = 0x995DC9BBDF1939FA := by decide +kernel

theorem test_reset_mode : State.reset.w.cur = 1 ∧ State.reset.pending = [] := by decide +kernel

theorem test_empty_queue_ticks : (match step (on 3) with | .next t => decide (t.now = (on 3).now + 1) | _ => false) = true := by decide +kernel
end Sys2Proof.Tests
end

section
/-! The vector compares (R214, R215): what one of them reads and checks, the word that its lanes' bits make, and the flags of its active lanes. -/

namespace Sys2Proof.Machine

open Sys2Proof Sys2Proof.Safety

/-! ### What a vector instruction reads after its fetch -/

theorem W.vget_of_arch {w v : W} {c : CoreId} (h : arch (w.core c) = arch (v.core c)) (r e : Nat) : w.vget c r e = v.vget c r e := by
  simp only [arch, Arch.mk.injEq] at h
  obtain ⟨-, -, hv, -⟩ := h
  simp only [W.vget, hv]

/-- A vector instruction reads the elements that the state before it holds. -/
theorem vget_fetched (s : State) (c : CoreId) (r e : Nat) : (fetched s.w c).1.vget c r e = elem s c r e :=
  W.vget_of_arch (W.arch_of_keptF (keptF_fetched s.w c) c) r e

theorem maskReg_fetched (s : State) (c : CoreId) (msel : Nat) :
    (fetched s.w c).1.maskReg c msel = if msel = 0 then none else some (gpr s c (24 + msel)) := by
  simp only [W.maskReg, gr_fetched, gpr]

theorem laneOn_fetched (s : State) (c : CoreId) (msel j : Nat) :
    laneOn ((fetched s.w c).1.maskReg c msel) j = active s c msel j := by
  rw [maskReg_fetched]
  by_cases h : msel = 0 <;> simp [laneOn, active, val, h]

theorem elemOn_fetched (s : State) (c : CoreId) (msel k e : Nat) :
    elemOn ((fetched s.w c).1.maskReg c msel) k e = someActive s c msel k e := by
  simp only [elemOn, someActive, laneOn_fetched]

/-! ### Operand checks that raise nothing (R197, R198, R218) -/

theorem tagTrap_eq_none {xs : List (TWord × (Tag → Bool))} (h : ∀ x ∈ xs, x.1.tag ≠ tPOISON ∧ x.2 x.1.tag = true) : tagTrap xs = none := by
  have hp : (xs.any fun x => decide (x.1.tag = tPOISON)) = false := by simpa using fun a p hx => (h (a, p) hx).1
  have ht : (xs.any fun x => !x.2 x.1.tag) = false := by simpa using fun a p hx => (h (a, p) hx).2
  rw [tagTrap, hp, ht]; rfl

theorem firstOf_eq_none {l : List (Option Trap)} (h : ∀ t ∈ l, t = none) : firstOf l = none := by
  induction l with
  | nil => rfl
  | cons t l ih =>
    rw [h t List.mem_cons_self]
    exact ih fun u hu => h u (List.mem_cons_of_mem _ hu)

/-- An INT mask passes its check. -/
theorem tagTrap_maskCheck_fetched {s : State} {c : CoreId} {msel : Nat} (hm : MaskOk s c msel) :
    tagTrap (maskCheck ((fetched s.w c).1.maskReg c msel)) = none := by
  rw [maskReg_fetched]
  by_cases h : msel = 0
  · rw [if_pos h]; rfl
  · rw [if_neg h]
    refine tagTrap_eq_none fun x hx => ?_
    rw [List.mem_singleton.mp hx]
    simp [hm h, isInt, tINT, tPOISON]

/-- With an INT mask and accepted operands in the active elements, a vector instruction raises nothing. -/
theorem vecTrap_fetched_eq_none {s : State} {c : CoreId} {msel k : Nat} {ops : Nat → List (TWord × (Tag → Bool))} (hm : MaskOk s c msel)
    (ho : ∀ e < 8, someActive s c msel k e = true → ∀ x ∈ ops e, x.1.tag ≠ tPOISON ∧ x.2 x.1.tag = true) :
    vecTrap ((fetched s.w c).1.maskReg c msel) k [] ops = none := by
  have he : firstOf ((List.range 8).map fun e => if elemOn ((fetched s.w c).1.maskReg c msel) k e then tagTrap (ops e) else none) = none := by
    refine firstOf_eq_none fun t ht => ?_
    obtain ⟨e, he, rfl⟩ := List.mem_map.mp ht
    rw [elemOn_fetched]
    split
    · exact tagTrap_eq_none (ho e (List.mem_range.mp he) ‹_›)
    · rfl
  rw [vecTrap, List.append_nil, tagTrap_maskCheck_fetched hm, he]; rfl

/-! ### A result with flags -/

/-- Two changes of one core in a row keep what their composition keeps. -/
theorem W.kept_modCore_modCore (w : W) (c : CoreId) (f g : Core → Core) : ((w.modCore c f).modCore c g).kept = (w.modCore c fun x => g (f x)).kept := by
  simp only [W.kept, W.modCore_now, W.modCore_fuse, W.modCore_mem, W.modCore_dev, W.core_modCore_self]
  congr 1
  funext k
  by_cases hk : k = coreKey c
  · subst hk; simp only [Tab.getD_putD_self]
  · simp only [Tab.getD_putD_ne _ _ _ _ hk]

theorem W.kept_putF (w : W) (c : CoreId) (rd : Nat) (r : TWord × FFlags) : (w.putF c rd r).kept = (w.modCore c (putsF rd r)).kept := by
  refine (W.kept_modCore_modCore w c _ _).trans (W.kept_modCore_eq rfl c ?_)
  simp only [putsF, fpswMerge, Core.setG]
  split <;> rfl

theorem calm_putF {u w : W} (h : Calm u w) (c : CoreId) (rd : Nat) (r : TWord × FFlags) : Calm u (w.putF c rd r) :=
  calm_core (calm_core h fun _ hx => quiet_setG hx rd r.1) fun _ hx => hx

theorem arch_putsF {x y : Core} (h : arch x = arch y) (rd : Nat) (r : TWord × FFlags) : arch (putsF rd r x) = arch (putsF rd r y) := by
  have hg := arch_setG h rd r.1
  simp only [arch, Arch.mk.injEq] at h hg
  simp only [arch, putsF, Arch.mk.injEq]
  simp only [h, hg, and_self]

/-- An instruction whose effect is one general register and flags completes with them. -/
theorem next_of_putF {s : State} {c : CoreId} {i : Instr} {g : Group} {body : Body} {rd : Nat} {r : TWord × FFlags}
    (he : exec i s = liftNow (fun w => w.run c i g body) s) (h : Ready s c i g)
    (hb : body (fetched s.w c).1 = done ((fetched s.w c).1.putF c rd r)) : Next s i c (putsF rd r) :=
  next_of_body he h hb (W.keptF_of_kept (W.kept_putF _ c rd r)) (fun _ _ ha => arch_putsF ha rd r)
    fun hq => calm_putF (calm_fetched _ c hq) c rd r

/-! ### Lane results as a word of bits, and their flags -/

/-- The sum of what the lanes add to the result, as `vecCompare` takes it. -/
def laneSum (rs : List (Nat × FFlags)) : Nat := rs.foldl (fun a x => a + x.1) 0

section
variable {r : Nat → Nat × FFlags} {p : Nat → Bool} (h : ∀ j, (r j).1 = b2n (p j) * 2 ^ j)
include h

theorem laneSum_range_succ (n : Nat) : laneSum ((List.range (n + 1)).map r) = 2 ^ n * b2n (p n) + laneSum ((List.range n).map r) := by
  simp only [laneSum, List.range_succ, List.map_append, List.map_cons, List.map_nil, List.foldl_append, List.foldl_cons, List.foldl_nil, h]
  ring

/-- Bits placed by their index stay below the next one. -/
theorem laneSum_lt (n : Nat) : laneSum ((List.range n).map r) < 2 ^ n := by
  induction n with
  | zero => exact Nat.one_pos
  | succ n ih =>
    have hb : b2n (p n) ≤ 1 := by cases p n <;> simp [b2n]
    have hm := Nat.mul_le_mul_left (2 ^ n) hb
    rw [laneSum_range_succ h, pow_succ]
    omega

/-- A sum of bits placed by their index reads back bit by bit. -/
theorem testBit_laneSum (n j : Nat) : (laneSum ((List.range n).map r)).testBit j = (decide (j < n) && p j) := by
  induction n with
  | zero => simp [laneSum]
  | succ n ih =>
    rw [laneSum_range_succ h, Nat.testBit_two_pow_mul_add _ (laneSum_lt h n), ih]
    rcases Nat.lt_trichotomy j n with hj | rfl | hj
    · simp [hj, Nat.lt_succ_of_lt hj]
    · cases p j <;> simp [b2n]
    · have hne : j - n ≠ 0 := by omega
      have hone : Nat.testBit 1 (j - n) = false := Nat.testBit_lt_two_pow (Nat.one_lt_two_pow hne)
      cases p n <;> simp [b2n, hone, hj.not_gt, show ¬j < n + 1 by omega]

end

/-- Lanes without flags add none: the flags of all lanes are those of the chosen ones. -/
theorem foldl_fOr_filter {β : Type} {r : Nat → β × FFlags} {p : Nat → Bool} {fl : Nat → FFlags} (h : ∀ j, (r j).2 = if p j then fl j else 0)
    (l : List Nat) : (l.map r).foldl (fun a x => fOr a x.2) 0 = (l.filter p).foldl (fun a j => fOr a (fl j)) 0 := by
  rw [List.foldl_map, List.foldl_filter]
  congr 1
  funext a j
  rw [h]
  split <;> simp [fOr]

/-! ### The compares -/

/-- The comparison of lane `j` of two vector registers. -/
def compareAt (s : State) (c : CoreId) (fmt va vb j : Nat) : FRel × FFlags :=
  cmpLane fmt (lane (vWidth fmt) (elem s c va (j / vLanes fmt)).val (j % vLanes fmt)) (lane (vWidth fmt) (elem s c vb (j / vLanes fmt)).val (j % vLanes fmt))

/-- What lane `j` adds to the result of a compare: its bit and its flags where it is active. -/
def compareResult (s : State) (c : CoreId) (kind fmt msel va vb j : Nat) : Nat × FFlags :=
  if active s c msel j then (b2n (vecRel kind (compareAt s c fmt va vb j).1) * 2 ^ j, (compareAt s c fmt va vb j).2) else (0, 0)

theorem compareResult_bit (s : State) (c : CoreId) (kind fmt msel va vb j : Nat) :
    (compareResult s c kind fmt msel va vb j).1 = b2n (active s c msel j && vecRel kind (compareAt s c fmt va vb j).1) * 2 ^ j := by
  unfold compareResult
  cases active s c msel j <;> simp [b2n]

theorem compareResult_flags (s : State) (c : CoreId) (kind fmt msel va vb j : Nat) :
    (compareResult s c kind fmt msel va vb j).2 = if active s c msel j then (compareAt s c fmt va vb j).2 else 0 := by
  unfold compareResult
  split <;> rfl

/-- No operand format has the tag POISON. -/
theorem fTag_ne_poison {fmt : Nat} (h : fmt < 5) : fTag fmt ≠ tPOISON := by
  interval_cases fmt <;> decide

/-- The effect of a compare whose operands raise nothing: the word of its lanes' bits, tagged INT, and their flags. -/
theorem vecCompare_fetched {s : State} {c : CoreId} {fmt msel va vb : Nat} (kind vd : Nat) (hf : fmt < 5) (hm : MaskOk s c msel)
    (ho : ElemsOk s c msel (vLanes fmt) [va, vb] (· = fTag fmt)) :
    vecCompare c kind fmt msel vd va vb (fetched s.w c).1 =
      let rs := (List.range (8 * vLanes fmt)).map (compareResult s c kind fmt msel va vb)
      done ((fetched s.w c).1.putF c vd (int (laneSum rs), rs.foldl (fun a x => fOr a x.2) 0)) := by
  have hok : ∀ r ∈ [va, vb], ∀ e < 8, someActive s c msel (vLanes fmt) e = true →
      (elem s c r e).tag ≠ tPOISON ∧ isTag (vTag fmt) (elem s c r e).tag = true := fun r hr e he ha =>
    ⟨ho r hr e he ha ▸ fTag_ne_poison hf, decide_eq_true (ho r hr e he ha)⟩
  have ht : vecTrap ((fetched s.w c).1.maskReg c msel) (vLanes fmt) []
      (fun e => [((fetched s.w c).1.vget c va e, isTag (vTag fmt)), ((fetched s.w c).1.vget c vb e, isTag (vTag fmt))]) = none := by
    refine vecTrap_fetched_eq_none hm fun e he ha => ?_
    simpa [vget_fetched] using And.intro (hok va (by simp) e he ha) (hok vb (by simp) e he ha)
  unfold vecCompare
  dsimp only
  rw [ht]
  simp only [laneOn_fetched, vget_fetched]
  rfl

/-- The flags of a compare are those of its active lanes. -/
theorem compareResult_foldl_flags (s : State) (c : CoreId) (kind fmt msel va vb : Nat) :
    ((List.range (8 * vLanes fmt)).map (compareResult s c kind fmt msel va vb)).foldl (fun a x => fOr a x.2) 0 =
      laneFlags s c fmt msel fun e i => (compareAt s c fmt va vb (e * vLanes fmt + i)).2 := by
  simp only [foldl_fOr_filter (compareResult_flags s c kind fmt msel va vb), laneFlags, Nat.div_add_mod']

/-- INT lanes in the relation of a compare (R215). -/
def intRel (kind : Nat) (x y : Int) : Bool :=
  match kind with
  | 0 => decide (x = y)
  | 1 => decide (x ≠ y)
  | 2 => decide (x < y)
  | _ => decide (x ≤ y)

/-- INT lanes compare signed. -/
theorem vecRel_cmpLane_int (kind a b : Nat) : vecRel kind (cmpLane 0 a b).1 = intRel kind (sext 64 a) (sext 64 b) := by
  simp only [cmpLane, if_true]
  generalize sext 64 a = x
  generalize sext 64 b = y
  unfold vecRel intRel
  rcases lt_trichotomy x y with h | rfl | h
  · split <;> simp [h, h.ne, h.le]
  · split <;> simp
  · split <;> simp [h.not_gt, h.ne', h.not_ge]

/-- The relation of lane `j`: on INT that of signed numbers, in floating point that of the outcome of `fCmp`. -/
theorem vecRel_compareAt (kind : Nat) (s : State) (c : CoreId) (fmt va vb j : Nat) :
    let z (r : Nat) : Nat := lane (vWidth fmt) (elem s c r (j / vLanes fmt)).val (j % vLanes fmt)
    vecRel kind (compareAt s c fmt va vb j).1 =
      if fmt = 0 then intRel kind (sext 64 (z va)) (sext 64 (z vb)) else vecRel kind (fCmp (fFmt fmt) (z va) (z vb)).1 := by
  unfold compareAt
  by_cases h : fmt = 0
  · subst h; simp only [vecRel_cmpLane_int, if_true]
  · simp only [cmpLane, if_neg h]

/-- INT compares raise no flag; floating-point compares raise those of `fCmp` (R211). -/
theorem laneFlags_compareAt (s : State) (c : CoreId) (fmt msel va vb : Nat) :
    let k := vLanes fmt
    let z (r j : Nat) : Nat := lane (vWidth fmt) (elem s c r (j / k)).val (j % k)
    (laneFlags s c fmt msel fun e i => (compareAt s c fmt va vb (e * k + i)).2) =
      if fmt = 0 then 0 else laneFlags s c fmt msel fun e i => (fCmp (fFmt fmt) (z va (e * k + i)) (z vb (e * k + i))).2 := by
  by_cases h : fmt = 0
  · have h0 : ∀ j, (compareAt s c fmt va vb j).2 = 0 := fun j => by simp only [compareAt, cmpLane, if_pos h]
    simp only [h0, laneFlags, fOr, Nat.or_zero, if_pos h]
    exact List.foldl_fixed' (fun _ => rfl) _
  · simp only [compareAt, cmpLane, if_neg h]

/-- A ready compare completes with its relation in the bits of the active lanes below the lane count. -/
theorem next_vecCompare {s : State} {c : CoreId} {i : Instr} {kind fmt msel vd va vb : Nat}
    (he : exec i s = liftNow (fun w => w.run c i .V (vecCompare c kind fmt msel vd va vb)) s) (hr : Ready s c i .V) (hf : fmt < 5)
    (hm : MaskOk s c msel) (ho : ElemsOk s c msel (vLanes fmt) [va, vb] (· = fTag fmt)) :
    ∃ v : Word, Next s i c (putsF vd (⟨tINT, v⟩, laneFlags s c fmt msel fun e i => (compareAt s c fmt va vb (e * vLanes fmt + i)).2)) ∧
      ∀ j < 64, v.getLsbD j = (decide (j < 8 * vLanes fmt) && active s c msel j && vecRel kind (compareAt s c fmt va vb j).1) := by
  refine ⟨_, compareResult_foldl_flags s c kind fmt msel va vb ▸ next_of_putF he hr (vecCompare_fetched kind vd hf hm ho), fun j hj => ?_⟩
  have hbit := testBit_laneSum (compareResult_bit s c kind fmt msel va vb) (8 * vLanes fmt) j
  rw [BitVec.getLsbD_ofNat, hbit, decide_eq_true hj, Bool.true_and, Bool.and_assoc]

/-- The operands of a ready instruction fit its encoding. -/
theorem tshOk_of_ready {s : State} {c : CoreId} {i : Instr} {g : Group} (h : Ready s c i g) : tshOk i = true := by
  obtain ⟨-, -, -, -, hl⟩ := h
  exact (Bool.and_eq_true_iff.mp hl).2

/-- Settles O10: a compare adds, lane by lane, one bit at the lane's own index, so the bits of its result are the lanes' relations; FPSW takes the
flags of the active lanes. -/
theorem vectorCompare : Obligations.VectorCompare := by
  unfold Obligations.VectorCompare
  intro s c fmt msel vd va vb hm ho k z cmp fl done
  have compares (i : Instr) (kind : Nat) (he : exec i s = liftNow (fun w => w.run c i .V (vecCompare c kind fmt msel vd va vb)) s)
      (hi : tshOk i = (decide (fmt < 5) && decide (msel < 8) && decide (vd < 32) && decide (va < 32) && decide (vb < 32))) :
      done i (intRel kind) (vecRel kind) := by
    intro hr
    have hf : fmt < 5 := by
      have ht := hi.symm.trans (tshOk_of_ready hr)
      simp only [Bool.and_eq_true, decide_eq_true_eq] at ht
      omega
    obtain ⟨v, hv, hbits⟩ := next_vecCompare he hr hf hm ho
    rw [laneFlags_compareAt] at hv
    exact ⟨v, hv, fun j hj => (hbits j hj).trans (by rw [vecRel_compareAt])⟩
  exact ⟨compares _ 0 rfl rfl, compares _ 1 rfl rfl, compares _ 2 rfl rfl, compares _ 3 rfl rfl⟩

end Sys2Proof.Machine
end

section
/-! What a register field reads after a write of another field, and what a command leaves: the state at its end as its working state had it. -/

namespace Sys2Proof.Machine

open Sys2Proof Sys2Proof.Safety

/-! ### Fields after a write -/

/-- The number of bits of a field. -/
def Fld.width (f : Fld) : Nat := f.hi + 1 - f.lo

/-- The bits of a field lie within a register of 64 bits. -/
def Fld.inWord (f : Fld) : Bool := decide (f.lo ≤ f.hi) && decide (f.hi < 64)

/-- Two fields lie in different registers, or share no bit of one. -/
def Fld.apart (f g : Fld) : Bool :=
  Fld.inWord f && Fld.inWord g && (decide (f.reg.code ≠ g.reg.code) || decide (f.reg = g.reg) && (decide (f.hi < g.lo) || decide (g.hi < f.lo)))

theorem inWord_of_apart {f g : Fld} (h : Fld.apart f g = true) : Fld.inWord g = true := by
  simp only [Fld.apart, Bool.and_eq_true] at h
  obtain ⟨⟨-, hg⟩, -⟩ := h
  exact hg

/-- A field reads as written, modulo its width. -/
theorem W.get_set_self (w : W) {f : Fld} (v i : Nat) (h : Fld.inWord f = true) : (w.set f v i).get f i = v % 2 ^ Fld.width f := by
  simp only [Fld.inWord, Bool.and_eq_true, decide_eq_true_eq] at h
  simp only [W.get, W.set, W.reg_setReg_self, bits_setBits_self _ _ h.1 h.2, Fld.width]

/-- A field reads as written where the value fits. -/
theorem W.get_set_fit (w : W) {f : Fld} {v : Nat} (i : Nat) (h : Fld.inWord f = true) (hv : v < 2 ^ Fld.width f) : (w.set f v i).get f i = v :=
  (W.get_set_self w v i h).trans (Nat.mod_eq_of_lt hv)

/-- A field is unchanged by a write of one apart from it. -/
theorem W.get_set_apart {i j : Nat} (hi : i < 65536) (hj : j < 65536) (w : W) {f g : Fld} (v : Nat) (h : Fld.apart f g = true) :
    (w.set f v i).get g j = w.get g j := by
  simp only [Fld.apart, Fld.inWord, Bool.and_eq_true, Bool.or_eq_true, decide_eq_true_eq] at h
  obtain ⟨⟨⟨hf, hf64⟩, hg, -⟩, hcode | ⟨hreg, hbits⟩⟩ := h
  · exact W.get_set_ne w v fun hk => hcode (regKey_inj hj hi hk).1.symm
  · by_cases hij : j = i
    · subst hij
      simp only [W.get, W.set, ← hreg, W.reg_setReg_self]
      rcases hbits with hb | hb
      · exact bits_setBits_above _ _ hf hf64 hb
      · exact bits_setBits_below _ _ hf hf64 hg hb
    · exact W.get_set_ne w v fun hk => hij (regKey_inj hj hi hk).2

/-- A count reads as what was added makes it, up to its all-ones value (R483). -/
theorem W.get_bump_self (w : W) {f : Fld} (k i : Nat) (h : Fld.inWord f = true) : (w.bump f k i).get f i = satAdd (Fld.width f) (w.get f i) k := by
  have hlt : satAdd (Fld.width f) (w.get f i) k < 2 ^ Fld.width f := by
    have := Nat.two_pow_pos (Fld.width f)
    simp only [satAdd]
    omega
  exact W.get_set_fit w i h hlt

/-- A field holds no more than its bits do. -/
theorem W.get_lt (w : W) (f : Fld) (i : Nat) : w.get f i < 2 ^ Fld.width f := Nat.mod_lt _ (Nat.two_pow_pos _)

/-- A register's reset value rests on the order code for one register alone (R52). -/
theorem W.get_of_regs {w v : W} (h : w.dev.regs = v.dev.regs) {f : Fld} (hf : f.reg ≠ .NEVE_ALLOCSTAT) (i : Nat) : w.get f i = v.get f i := by
  simp only [W.get, W.reg, W.regRst, h, hf, false_and, if_false]

/-! ### The state at a command's end -/

/-- What a command that ends in the working state `w` leaves of the state `s`. -/
def after (s : State) (w : W) : State := { s with mem := s.mem.apply w.ws.reverse, dev := w.dev }

theorem does_of_lift {s : State} {i : Instr} {f : W → W} {P : State → Prop} (he : exec i s = lift f s) (hP : P (after s (f s.w))) : Does s i P :=
  ⟨_, he, rfl, rfl, rfl, hP⟩

theorem acts_of_lift {s : State} {i : Instr} {f : W → W} {P : State → Prop} (he : exec i s = lift f s) (hw : (f s.w).ws = [])
    (hP : P (after s (f s.w))) : Acts s i P :=
  does_of_lift he ⟨by simp only [after, hw, List.reverse_nil, Mem.apply_nil], hP⟩

theorem field_after (s : State) (w : W) {f : Fld} (i : Nat) (hf : f.reg ≠ .NEVE_ALLOCSTAT) : field (after s w) f i = w.get f i :=
  W.get_of_regs (w := (after s w).w) (v := w) rfl hf i

@[simp] theorem ch_after (s : State) (w : W) (n : Nat) : (after s w).w.ch n = w.ch n := rfl

@[simp] theorem loop_after (s : State) (w : W) (l : Nat) : (after s w).w.loop l = w.loop l := rfl

/-- Memory at the end of a command holds what the command itself read there last. -/
theorem le_after {s : State} {w : W} (h : w.mem = s.mem) (a n : Nat) : (after s w).w.le a n = w.le a n := by
  have hb : ∀ b, (after s w).w.byte b = w.byte b := fun b => by
    simp only [W.byte, h, State.w_ws, State.w_mem, after, List.findSome?_nil, Option.getD_none, Mem.byte_apply_reverse]
  simp only [W.le, W.bytes, funext hb]

/-- The physical core that serves a logical index rests on the straps and on two registers (R221, R337). -/
theorem W.physCore_congr {w v : W} {l : Nat} (hm : w.dev.mode.strapPair = v.dev.mode.strapPair)
    (hr : ∀ f ∈ [F.CRN_PAIRSTAT_STATE, F.CRN_PAIRSTAT_LEAD, F.CRN_MAP_VALID, F.CRN_MAP_PHYS], ∀ i ≤ l, w.get f i = v.get f i) :
    w.physCore l = v.physCore l := by
  have hd : l / 2 ≤ l := Nat.div_le_self l 2
  unfold W.physCore W.flag
  rw [hm, hr F.CRN_PAIRSTAT_STATE (by simp) _ hd, hr F.CRN_PAIRSTAT_LEAD (by simp) _ hd, hr F.CRN_MAP_VALID (by simp) _ le_rfl,
    hr F.CRN_MAP_PHYS (by simp) _ le_rfl]

theorem W.physCore_of_dev {w v : W} (hm : w.dev.mode = v.dev.mode) (hr : w.dev.regs = v.dev.regs) (l : Nat) : w.physCore l = v.physCore l :=
  W.physCore_congr (by rw [hm]) fun f hf i _ => W.get_of_regs hr (by simp at hf; rcases hf with rfl | rfl | rfl | rfl <;> decide) i

end Sys2Proof.Machine
end

section
/-! Writes to a core's TCM by a unit of world 0x0000 (R223): what they leave of the device, and that the written bytes read back. -/

namespace Sys2Proof.Machine

open Sys2Proof Sys2Proof.Safety

/-! ### Little-endian numbers -/

theorem ofLE_leBytes (n v : Nat) : ofLE (leBytes n v) = v % 256 ^ n := by
  induction n generalizing v with
  | zero => simp only [leBytes, ofLE, pow_zero, Nat.mod_one]
  | succ n ih => rw [leBytes, ofLE, ih, pow_succ', Nat.mod_mul, BitVec.toNat_ofNat]

theorem ofLE_lt (bs : List Byte) : ofLE bs < 256 ^ bs.length := by
  induction bs with
  | nil => exact Nat.one_pos
  | cons b bs ih =>
    rw [ofLE, List.length_cons, pow_succ]
    have hb := b.isLt
    omega

theorem ofLE_zeros (n : Nat) : ofLE (zeros n) = 0 := by
  induction n with
  | zero => rfl
  | succ n ih => rw [zeros, List.replicate_succ, ofLE, ← zeros, ih]; rfl

@[simp] theorem length_leBytes (n v : Nat) : (leBytes n v).length = n := by
  induction n generalizing v with
  | zero => rfl
  | succ n ih => rw [leBytes, List.length_cons, ih]

theorem W.tcmLe_lt (w : W) (l off n : Nat) : w.tcmLe l off n < 256 ^ n := by
  unfold W.tcmLe
  split
  · exact Nat.pow_pos (by decide)
  · simpa [W.le, W.bytes, upto] using ofLE_lt (w.bytes (tcmAddr _ off) n)

/-! ### What a TCM write leaves -/

/-- The device without its cores: a TCM write ends reservations and undo entries of cores and changes nothing else of it. -/
def W.offCores (w : W) : Dev := { w.dev with cores := [] }

@[simp] theorem W.offCores_putBytes (w : W) (a : Nat) (bs : List Byte) : (w.putBytes a bs).offCores = w.offCores := by
  induction bs generalizing w a with
  | nil => rfl
  | cons b bs ih => rw [W.putBytes, ih]; rfl

@[simp] theorem W.offCores_putTag (w : W) (i : Nat) (t : Tag) : (w.putTag i t).offCores = w.offCores := rfl

@[simp] theorem W.offCores_breakResv (w : W) (who : Option CoreId) (tcm : Option Nat) (line : Nat) :
    (w.breakResv who tcm line).offCores = w.offCores := rfl

/-- What every step of a fold leaves, the fold leaves. -/
theorem foldl_keeps {α β γ : Type} {f : α → β → α} (g : α → γ) (l : List β) (h : ∀ a, ∀ b ∈ l, g (f a b) = g a) (a : α) :
    g (l.foldl f a) = g a := by
  induction l generalizing a with
  | nil => rfl
  | cons b l ih => rw [List.foldl_cons, ih fun a c hc => h a c (List.mem_cons_of_mem b hc), h a b List.mem_cons_self]

@[simp] theorem W.offCores_dmaWrite (w : W) (a : Nat) (bs : List Byte) : (w.dmaWrite a bs).offCores = w.offCores := by
  unfold W.dmaWrite W.tagRange
  split
  · exact W.offCores_putBytes w a bs
  · exact (foldl_keeps W.offCores _ (fun v i _ => v.offCores_putTag i 0) _).trans (W.offCores_putBytes w a bs)

@[simp] theorem W.kept_dmaWrite (w : W) (a : Nat) (bs : List Byte) : (w.dmaWrite a bs).kept = w.kept := by
  unfold W.dmaWrite W.tagRange
  split
  · exact W.kept_putBytes w a bs
  · exact (kept_foldl _ _ _ fun v i => v.kept_putTag i 0).trans (W.kept_putBytes w a bs)

@[simp] theorem W.offCores_tcmPut (w : W) (l off : Nat) (bs : List Byte) : (w.tcmPut l off bs).offCores = w.offCores := by
  have undone (v : W) (p : Nat) : (v.undoDrop p off bs.length).offCores = v.offCores := by unfold W.undoDrop; split <;> rfl
  unfold W.tcmPut
  split
  · rfl
  · rw [foldl_keeps W.offCores _ fun v q _ => v.offCores_dmaWrite _ bs, undone]
    exact foldl_keeps W.offCores _ (fun v ln _ => v.offCores_breakResv _ _ ln) w

@[simp] theorem W.kept_tcmPut (w : W) (l off : Nat) (bs : List Byte) : (w.tcmPut l off bs).kept = w.kept := by
  unfold W.tcmPut
  split
  · rfl
  · rw [kept_foldl _ _ _ fun v q => v.kept_dmaWrite _ bs, W.kept_undoDrop]
    exact kept_foldl _ _ _ fun v ln => v.kept_breakResv _ _ ln

@[simp] theorem W.mem_tcmPut (w : W) (l off : Nat) (bs : List Byte) : (w.tcmPut l off bs).mem = w.mem := congrArg Kept.mem (w.kept_tcmPut l off bs)

@[simp] theorem W.fuse_tcmPut (w : W) (l off : Nat) (bs : List Byte) : (w.tcmPut l off bs).fuse = w.fuse := congrArg Kept.fuse (w.kept_tcmPut l off bs)

@[simp] theorem W.regs_tcmPut (w : W) (l off : Nat) (bs : List Byte) : (w.tcmPut l off bs).dev.regs = w.dev.regs :=
  (congrArg Dev.regs (w.offCores_tcmPut l off bs) :)

@[simp] theorem W.mode_tcmPut (w : W) (l off : Nat) (bs : List Byte) : (w.tcmPut l off bs).dev.mode = w.dev.mode :=
  (congrArg Dev.mode (w.offCores_tcmPut l off bs) :)

@[simp] theorem W.get_tcmPut (w : W) (l off : Nat) (bs : List Byte) (f : Fld) (i : Nat) : (w.tcmPut l off bs).get f i = w.get f i := by
  unfold W.get W.reg W.regRst W.isM
  rw [W.regs_tcmPut, W.fuse_tcmPut]

@[simp] theorem W.ch_tcmPut (w : W) (l off : Nat) (bs : List Byte) (n : Nat) : (w.tcmPut l off bs).ch n = w.ch n :=
  (congrArg (fun d : Dev => Tab.getD d.cio n {}) (w.offCores_tcmPut l off bs) :)

@[simp] theorem W.loop_tcmPut (w : W) (l off : Nat) (bs : List Byte) (k : Nat) : (w.tcmPut l off bs).loop k = w.loop k :=
  (congrArg (fun d : Dev => Tab.getD d.loops k {}) (w.offCores_tcmPut l off bs) :)

/-! ### Reading back -/

/-- Tags are no bytes. -/
theorem W.byte_dmaWrite (w : W) (a : Nat) (bs : List Byte) (b : Nat) : (w.dmaWrite a bs).byte b = (w.putBytes a bs).byte b := by
  unfold W.dmaWrite W.tagRange
  split
  · rfl
  · exact foldl_keeps (W.byte · b) _ (fun w wi _ => w.byte_putTag wi 0 b) _

/-- Bytes that one of several equal writes gives read so, where each of the others gives the same bytes or lies elsewhere. -/
theorem W.byte_foldl_dmaWrite {at_ : Nat → Nat} {bs : List Byte} {q : Nat} {i : Nat} (hi : i < bs.length) (ps : List Nat)
    (hout : ∀ p ∈ ps, p = q ∨ at_ q + i < at_ p ∨ at_ p + bs.length ≤ at_ q + i) (w : W)
    (hw : q ∈ ps ∨ w.byte (at_ q + i) = bs[i]) : (ps.foldl (fun (w : W) p => w.dmaWrite (at_ p) bs) w).byte (at_ q + i) = bs[i] := by
  induction ps generalizing w with
  | nil => simpa using hw
  | cons p ps ih =>
    refine ih (fun r hr => hout r (List.mem_cons_of_mem _ hr)) _ ?_
    rw [W.byte_dmaWrite]
    by_cases hp : p = q
    · exact .inr (hp ▸ W.byte_putBytes_in w (at_ p) bs hi)
    · rw [W.byte_putBytes_out w _ bs ((hout p List.mem_cons_self).resolve_left hp)]
      exact hw.imp_left fun hq => (List.mem_cons.mp hq).resolve_left (Ne.symm hp)

/-- Bytes written within a TCM read back: the copy in a trailer's TCM lies elsewhere, or is the same. -/
theorem W.tcmLe_tcmPut (w : W) {l off : Nat} {bs : List Byte} (hl : w.physCore l ≠ none) (hoff : off + bs.length ≤ 0x20000) :
    (w.tcmPut l off bs).tcmLe l off bs.length = ofLE bs := by
  obtain ⟨p, hp⟩ := Option.ne_none_iff_exists'.mp hl
  have hp' : (w.tcmPut l off bs).physCore l = some p := (W.physCore_of_dev (w.mode_tcmPut ..) (w.regs_tcmPut ..) l).trans hp
  have hbyte : ∀ (i : Nat) (hi : i < bs.length), (w.tcmPut l off bs).byte (tcmAddr p off + i) = bs[i] := fun i hi => by
    simp only [W.tcmPut, hp]
    refine W.byte_foldl_dmaWrite (at_ := fun q => tcmAddr q off) hi _ (fun r _ => ?_) _ (.inl List.mem_cons_self)
    simp only [tcmAddr]
    omega
  simp only [W.tcmLe, hp', W.le]
  congr 1
  refine List.ext_getElem (by simp [W.bytes, upto]) fun i hi hi' => ?_
  simpa [W.bytes, upto] using hbyte i hi'

/-- What the program of a core reads at a command's end is what the command left in its TCM. -/
theorem tcmLe_after {s : State} {w : W} (h : w.mem = s.mem) (l off n : Nat) : (after s w).w.tcmLe l off n = w.tcmLe l off n := by
  have hp : (after s w).w.physCore l = w.physCore l := W.physCore_of_dev rfl rfl l
  simp only [W.tcmLe, hp, le_after h]

end Sys2Proof.Machine
end

section
/-! The control channels (R380 to R387): what the mirrored fields and the channel record leave, and what each event of a channel does. -/

namespace Sys2Proof.Machine

open Sys2Proof Sys2Proof.Safety

/-! ### Updates of a channel -/

@[simp] theorem W.ch_modCh_self (w : W) (n : Nat) (f : CioSt → CioSt) : (w.modCh n f).ch n = f (w.ch n) := by
  simp only [W.modCh, W.ch, W.setCh_dev, Tab.getD_putD_self]

@[simp] theorem W.get_modCh (w : W) (n : Nat) (f : CioSt → CioSt) (g : Fld) (i : Nat) : (w.modCh n f).get g i = w.get g i := rfl
@[simp] theorem W.get_pinShow (w : W) (n : Nat) (g : Fld) (i : Nat) : (w.pinShow n).get g i = w.get g i := rfl
@[simp] theorem W.ch_pinShow (w : W) (n m : Nat) : (w.pinShow n).ch m = w.ch m := rfl
@[simp] theorem W.ch_set (w : W) (f : Fld) (v i n : Nat) : (w.set f v i).ch n = w.ch n := rfl
@[simp] theorem W.ch_bump (w : W) (f : Fld) (k i n : Nat) : (w.bump f k i).ch n = w.ch n := rfl

theorem b2n_lt (b : Bool) : b2n b < 2 := by cases b <;> decide

/-! ### The channel record (R386) -/

/-- The register fields that mirror a channel's FIFO and pin. -/
def mirrored : List Fld := [F.CIO_STAT_EDGEP, F.CIO_STAT_PIN, F.CIO_CAP_TS, F.CIO_CAPINFO_DIR, F.CIO_CAPINFO_COUNT]

/-- A field that is apart from every mirrored one. -/
def unmirrored (g : Fld) : Bool := mirrored.all (Fld.apart · g)

@[simp] theorem W.ch_chSync (w : W) (n m : Nat) : (w.chSync n).ch m = w.ch m := by
  simp only [W.chSync, W.ch_set]

theorem W.get_chSync {n j : Nat} (hn : n < 65536) (hj : j < 65536) (w : W) {g : Fld} (hg : unmirrored g = true) :
    (w.chSync n).get g j = w.get g j := by
  simp only [unmirrored, mirrored, List.all_cons, List.all_nil, Bool.and_eq_true] at hg
  obtain ⟨hedge, hpin, hts, hdir, hcount, -⟩ := hg
  simp only [W.chSync, W.get_set_apart hn hj _ _ hcount, W.get_set_apart hn hj _ _ hdir, W.get_set_apart hn hj _ _ hts,
    W.get_set_apart hn hj _ _ hpin, W.get_set_apart hn hj _ _ hedge]

/-- STAT.PIN shows the channel's filtered level. -/
theorem W.get_pin_chSync {n : Nat} (hn : n < 65536) (w : W) : (w.chSync n).get F.CIO_STAT_PIN n = b2n (w.ch n).pin := by
  simp (disch := decide) only [W.chSync, W.get_set_apart hn hn]
  exact W.get_set_fit _ n (by decide) (b2n_lt _)

/-- The record's write to the core's TCM changes no register. -/
theorem W.get_chRecord_chSync (w : W) (n : Nat) (g : Fld) (j : Nat) : (w.chRecord n).get g j = (w.chSync n).get g j := by
  unfold W.chRecord
  extract_lets v
  split
  · rfl
  · exact (W.get_tcmPut ..).trans (v.get_modCh n _ g j)

theorem W.get_chRecord {n j : Nat} (hn : n < 65536) (hj : j < 65536) (w : W) {g : Fld} (hg : unmirrored g = true) :
    (w.chRecord n).get g j = w.get g j := (w.get_chRecord_chSync n g j).trans (W.get_chSync hn hj w hg)

theorem W.get_pin_chRecord {n : Nat} (hn : n < 65536) (w : W) : (w.chRecord n).get F.CIO_STAT_PIN n = b2n (w.ch n).pin :=
  (w.get_chRecord_chSync n _ n).trans (W.get_pin_chSync hn w)

/-- Of the channel's own state a record advances SEQ alone. -/
theorem W.ch_chRecord (w : W) (n : Nat) : ∃ k, (w.chRecord n).ch n = { w.ch n with seq := k } := by
  unfold W.chRecord
  extract_lets v
  split
  · exact ⟨_, w.ch_chSync n n⟩
  · exact ⟨_, (W.ch_tcmPut ..).trans ((v.ch_modCh_self n _).trans (by rw [w.ch_chSync n n]))⟩

@[simp] theorem W.fifo_chRecord (w : W) (n : Nat) : ((w.chRecord n).ch n).fifo = (w.ch n).fifo := by
  obtain ⟨k, hk⟩ := w.ch_chRecord n; rw [hk]

@[simp] theorem W.pin_chRecord (w : W) (n : Nat) : ((w.chRecord n).ch n).pin = (w.ch n).pin := by
  obtain ⟨k, hk⟩ := w.ch_chRecord n; rw [hk]

@[simp] theorem W.level_chRecord (w : W) (n : Nat) : ((w.chRecord n).ch n).level = (w.ch n).level := by
  obtain ⟨k, hk⟩ := w.ch_chRecord n; rw [hk]

@[simp] theorem W.pwmNext_chRecord (w : W) (n : Nat) : ((w.chRecord n).ch n).pwmNext = (w.ch n).pwmNext := by
  obtain ⟨k, hk⟩ := w.ch_chRecord n; rw [hk]

/-! ### Whether a channel is held (R390, R391) -/

/-- A write of a field apart from BIND and LOOP leaves a channel held, or free, as it was. -/
theorem W.chHeld_set {n : Nat} (hn : n < 65536) (w : W) {f : Fld} (v : Nat)
    (hf : [F.CIO_BIND_EN, F.CIO_BIND_CORE, F.CIO_LOOP_ACKED].all (Fld.apart f) = true) : (w.set f v n).chHeld n = w.chHeld n := by
  simp only [List.all_cons, List.all_nil, Bool.and_eq_true] at hf
  obtain ⟨hen, hcore, hacked, -⟩ := hf
  have hl : w.get F.CIO_BIND_CORE n < 65536 := (w.get_lt F.CIO_BIND_CORE n).trans (by decide)
  simp only [W.chHeld, W.loopHeld, W.flag, W.get_set_apart hn hn _ _ hen, W.get_set_apart hn hn _ _ hcore, W.get_set_apart hn hl _ _ hacked]

/-- CMPF waits for the release of the loop. -/
def holdCmp (c : CioSt) : CioSt := { c with heldCmp := true }

/-- TMRF waits for the release of the loop. -/
def holdTmr (c : CioSt) : CioSt := { c with heldTmr := true }

/-- How a channel's event ends: its flag is set and shown in the record, or waits while the loop of its core is held (R391). -/
def W.flagOrHold (w : W) (n : Nat) (f : Fld) (wait : CioSt → CioSt) : W :=
  if w.chHeld n then w.modCh n wait else (w.set f 1 n).chRecord n

theorem W.flagOrHold_shows {n : Nat} (hn : n < 65536) (w : W) {f : Fld} (hf : unmirrored f = true) (hw : Fld.width f = 1) {wait : CioSt → CioSt}
    {waits : CioSt → Bool} (hwait : ∀ c, waits (wait c) = true) :
    if w.chHeld n = true then waits ((w.flagOrHold n f wait).ch n) = true else (w.flagOrHold n f wait).get f n = 1 := by
  have hin : Fld.inWord f = true := inWord_of_apart (List.all_eq_true.mp hf F.CIO_CAP_TS (by decide))
  unfold W.flagOrHold
  split
  · rw [W.ch_modCh_self, hwait]
  · rw [W.get_chRecord hn hn _ hf]
    exact W.get_set_fit _ n hin (by rw [hw]; decide)

theorem W.get_flagOrHold {n : Nat} (hn : n < 65536) (w : W) {f g : Fld} (hg : unmirrored g = true) (hfg : Fld.apart f g = true)
    (wait : CioSt → CioSt) : (w.flagOrHold n f wait).get g n = w.get g n := by
  unfold W.flagOrHold
  split
  · rfl
  · rw [W.get_chRecord hn hn _ hg, W.get_set_apart hn hn _ _ hfg]

theorem W.level_flagOrHold (w : W) (n : Nat) (f : Fld) {wait : CioSt → CioSt} (hw : ∀ c, (wait c).level = c.level) :
    ((w.flagOrHold n f wait).ch n).level = (w.ch n).level := by
  unfold W.flagOrHold
  split
  · rw [W.ch_modCh_self, hw]
  · rw [W.level_chRecord, W.ch_set]

/-! ### Edges (R381) -/

section
variable {w : W} {n : Nat} {up : Bool}

/-- The channel with its pin at a new level. -/
def W.pinAt (w : W) (n : Nat) (up : Bool) : W := w.modCh n fun c => { c with pin := up }

omit w n up in
@[simp] theorem W.get_pinAt (w : W) (n : Nat) (up : Bool) (g : Fld) (i : Nat) : (w.pinAt n up).get g i = w.get g i := rfl

omit w n up in
@[simp] theorem W.ch_pinAt (w : W) (n : Nat) (up : Bool) : (w.pinAt n up).ch n = { w.ch n with pin := up } := w.ch_modCh_self n _

/-- CFG.EDGE selects edges in this direction. -/
def W.selects (w : W) (n : Nat) (up : Bool) : Bool := nbit (w.get F.CIO_CFG_EDGE n) (if up then 0 else 1)

theorem W.pinEdge_unselected (hp : (w.ch n).pin ≠ up) (he : w.selects n up = false) : w.pinEdge n up = (w.pinAt n up).chRecord n := by
  have he' : (if up then nbit (w.get F.CIO_CFG_EDGE n) 0 else nbit (w.get F.CIO_CFG_EDGE n) 1) = false := by cases up <;> exact he
  simp only [W.pinEdge, if_neg hp, W.get_modCh, he', Bool.not_false, if_true, W.pinAt]

theorem W.pinEdge_room (hp : (w.ch n).pin ≠ up) (he : w.selects n up = true) (hroom : (w.ch n).fifo.length < 4) :
    w.pinEdge n up = ((w.pinAt n up).modCh n fun c =>
      { c with fifo := c.fifo ++ [(w.now - w.get F.CIO_CFG_FILT n, if up then 1 else 2)] }).chRecord n := by
  have he' : (if up then nbit (w.get F.CIO_CFG_EDGE n) 0 else nbit (w.get F.CIO_CFG_EDGE n) 1) = true := by cases up <;> exact he
  simp only [W.pinEdge, if_neg hp, W.get_modCh, he', Bool.not_true, Bool.false_eq_true, if_false, W.ch_modCh_self, if_pos hroom, W.pinAt]
  rfl

theorem W.pinEdge_full (hp : (w.ch n).pin ≠ up) (he : w.selects n up = true) (hfull : 4 ≤ (w.ch n).fifo.length) :
    w.pinEdge n up = (((w.pinAt n up).bump F.CIO_STAT_LOST 1 n).set F.CIO_STAT_OVF 1 n).chRecord n := by
  have he' : (if up then nbit (w.get F.CIO_CFG_EDGE n) 0 else nbit (w.get F.CIO_CFG_EDGE n) 1) = true := by cases up <;> exact he
  simp only [W.pinEdge, if_neg hp, W.get_modCh, he', Bool.not_true, Bool.false_eq_true, if_false, W.ch_modCh_self, if_neg hfull.not_gt, W.pinAt]

end

/-! ### The compare unit (R382) -/

@[simp] theorem W.get_cmpAct (w : W) (n : Nat) (g : Fld) (i : Nat) : (w.cmpAct n).get g i = w.get g i := by
  unfold W.cmpAct
  split
  · rfl
  · extract_lets v
    show v.get g i = w.get g i
    simp only [v]
    split <;> rfl

/-- CMPACT drives the pin high or low, turns it over, or leaves it. -/
theorem W.level_cmpAct {w : W} {n : Nat} (h : w.get F.CIO_CFG_MODE n = 3) :
    ((w.cmpAct n).ch n).level =
      if w.get F.CIO_CFG_CMPACT n = 1 then true else if w.get F.CIO_CFG_CMPACT n = 2 then false
      else if w.get F.CIO_CFG_CMPACT n = 3 then !(w.ch n).level else (w.ch n).level := by
  unfold W.cmpAct
  rw [if_neg (by simp [h])]
  extract_lets v
  show (v.ch n).level = _
  simp only [v]
  split
  next hact => simp [hact]
  next hact => simp [hact]
  next hact => simp [hact]
  next h1 h2 h3 => rw [if_neg h1, if_neg h2, if_neg h3]

/-- CMP after a firing: off without a period, else the time one period on. -/
def W.cmpNext (w : W) (n : Nat) : Nat :=
  if w.get F.CIO_CMPPER_NS n = 0 then 0 else (w.get F.CIO_CMP_TIME n + w.get F.CIO_CMPPER_NS n) % 2 ^ 64

theorem W.cmpNext_lt (w : W) (n : Nat) : w.cmpNext n < 2 ^ 64 := by
  unfold W.cmpNext
  split
  · decide
  · exact Nat.mod_lt _ (by decide)

theorem W.compareFire_due {w : W} {n : Nat} (h0 : w.get F.CIO_CMP_TIME n ≠ 0) (h : w.get F.CIO_CMP_TIME n ≤ w.now) :
    w.compareFire n = ((w.cmpAct n).set F.CIO_CMP_TIME (w.cmpNext n) n).flagOrHold n F.CIO_STAT_CMPF holdCmp := by
  unfold W.compareFire
  rw [if_neg (by omega)]
  rfl

theorem W.chHeld_cmpAct_set {n : Nat} (hn : n < 65536) (w : W) (v : Nat) : ((w.cmpAct n).set F.CIO_CMP_TIME v n).chHeld n = w.chHeld n :=
  (W.chHeld_set hn _ v (by decide)).trans (by simp only [W.chHeld, W.loopHeld, W.flag, W.get_cmpAct])

/-! ### The level timer (R384) -/

/-- What a firing leaves to be counted next: nothing without a period, else the first multiple of it past the count. -/
def W.timerNext (w : W) (n : Nat) : W :=
  let due := w.get F.CIO_TMRNEXT_COUNT n
  let per := w.get F.CIO_TMRCTL_PER n
  let k := (levelCount (w.get F.CIO_TMRCTL_LEVEL n) w.now - due) / per
  if per = 0 then w.set F.CIO_TMRCTL_LEVEL 0 n
  else (w.set F.CIO_TMRNEXT_COUNT ((due + (k + 1) * per) % 2 ^ 64) n).bump F.CIO_TMRCTL_MISSED k n

theorem W.levelFire_idle {w : W} {n : Nat}
    (h : w.get F.CIO_TMRCTL_LEVEL n = 0 ∨ levelCount (w.get F.CIO_TMRCTL_LEVEL n) w.now < w.get F.CIO_TMRNEXT_COUNT n) : w.levelFire n = w :=
  if_pos h

theorem W.levelFire_due {w : W} {n : Nat} (h0 : w.get F.CIO_TMRCTL_LEVEL n ≠ 0)
    (h : w.get F.CIO_TMRNEXT_COUNT n ≤ levelCount (w.get F.CIO_TMRCTL_LEVEL n) w.now) :
    w.levelFire n = (w.timerNext n).flagOrHold n F.CIO_STAT_TMRF holdTmr := by
  unfold W.levelFire
  rw [if_neg (by omega)]
  rfl

theorem W.chHeld_timerNext {n : Nat} (hn : n < 65536) (w : W) : (w.timerNext n).chHeld n = w.chHeld n := by
  unfold W.timerNext
  extract_lets due per k
  split
  · exact W.chHeld_set hn w 0 (by decide)
  · rw [W.bump, W.chHeld_set hn _ _ (by decide), W.chHeld_set hn w _ (by decide)]

theorem W.timerNext_once {w : W} {n : Nat} (h : w.get F.CIO_TMRCTL_PER n = 0) : (w.timerNext n).get F.CIO_TMRCTL_LEVEL n = 0 := by
  rw [W.timerNext, if_pos h]
  exact W.get_set_fit w n (by decide) (by decide)

theorem W.timerNext_periodic {w : W} {n : Nat} (hn : n < 65536) (h : w.get F.CIO_TMRCTL_PER n ≠ 0) :
    let due := w.get F.CIO_TMRNEXT_COUNT n
    let per := w.get F.CIO_TMRCTL_PER n
    let k := (levelCount (w.get F.CIO_TMRCTL_LEVEL n) w.now - due) / per
    (w.timerNext n).get F.CIO_TMRNEXT_COUNT n = (due + (k + 1) * per) % 2 ^ 64 ∧
      (w.timerNext n).get F.CIO_TMRCTL_MISSED n = satAdd 16 (w.get F.CIO_TMRCTL_MISSED n) k := by
  intro due per k
  rw [W.timerNext, if_neg h]
  refine ⟨(W.get_set_apart hn hn _ _ (by decide)).trans (W.get_set_fit w n (by decide) (Nat.mod_lt _ (by decide))), ?_⟩
  rw [W.get_bump_self _ _ _ (by decide), W.get_set_apart hn hn _ _ (by decide)]
  rfl

end Sys2Proof.Machine
end

section
/-! Reports of level 0 (R349, R350), and the requests of bound channels at a whole µs (R387). -/

namespace Sys2Proof.Machine

open Sys2Proof Sys2Proof.Safety

/-! ### What a record changes -/

/-- The register fields that a fault record writes. -/
def recorded : List Fld :=
  [F.MOR_CLS_OVERFLOW, F.MOR_CLS_ESC, F.MOR_CLS_LEVEL, F.MOR_CLS_SOURCE, F.MOR_CLS_SUBCODE, F.MOR_CLSTS_TS, F.MOR_CLS_COUNT, F.MOR_DROPCNT_COUNT,
    F.MOR_SUMMARY_PEND]

/-- A field that is apart from those of a record other than PEND. -/
def unrecorded (g : Fld) : Bool := recorded.all (Fld.apart · g)

theorem W.get_logPush {j : Nat} (hj : j < 65536) (w : W) (l : LogRec) {g : Fld} (hg : Fld.apart F.MOR_DROPCNT_COUNT g = true) :
    (w.logPush l).get g j = w.get g j := by
  unfold W.logPush
  extract_lets d m v
  split
  · exact W.get_set_apart (by decide) hj v _ hg
  · rfl

/-- Beside the fields of the latch that go with it, a record changes PEND of its class, from 0 to 1 (R349). -/
theorem W.get_record {j : Nat} (hj : j < 65536) (w : W) {r : Report} (hr : r.cls < 65536) {g : Fld} (hg : unrecorded g = true) :
    (w.record r).1.get g j = if w.flag F.MOR_CLS_PEND r.cls then w.get g j else (w.set F.MOR_CLS_PEND 1 r.cls).get g j := by
  simp only [unrecorded, recorded, List.all_cons, List.all_nil, Bool.and_eq_true] at hg
  obtain ⟨hovf, hesc, hlevel, hsrc, hsub, hts, hcount, hdrop, hsum, -⟩ := hg
  have apart {f : Fld} (h : Fld.apart f g = true) (v : W) (x : Nat) : (v.set f x r.cls).get g j = v.get g j := W.get_set_apart hr hj v x h
  unfold W.record
  extract_lets c pend esc lv w1 w2 w3 w4 w5 w6 fl l w7
  have h4 : w4.get g j = (w.set F.MOR_CLS_PEND 1 c).get g j := by
    simp only [w4, w3, c, apart hovf, apart hesc, apart hlevel, apart hsrc, apart hsub]
  have h2 : w2.get g j = w.get g j := by
    simp only [w2, w1, c]
    split <;> simp only [apart hovf, apart hesc]
  have h5 : w5.get g j = if pend then w.get g j else (w.set F.MOR_CLS_PEND 1 c).get g j := by
    simp only [w5]
    split
    · rw [← h2]; exact apart hlevel w2 _
    · rw [← h4]; exact apart hts w4 _
  calc (w7.set F.MOR_SUMMARY_PEND w7.summary).get g j
    _ = w7.get g j := W.get_set_apart (by decide) hj _ _ hsum
    _ = w6.get g j := W.get_logPush hj _ _ hdrop
    _ = w5.get g j := apart hcount w5 _
    _ = _ := h5

/-- A record leaves its class latched (R349). -/
theorem W.pend_record (w : W) {r : Report} (hr : r.cls < 65536) : (w.record r).1.get F.MOR_CLS_PEND r.cls = 1 := by
  rw [W.get_record hr w hr (by decide)]
  split
  · exact of_decide_eq_true ‹_›
  · exact W.get_set_fit w _ (by decide) (by decide)

/-- A report of level 0 whose class does not escalate makes its record and nothing else; in Reset it makes none (R348, R350). -/
theorem W.report_mild (w : W) {r : Report} (hlevel : r.level = 0) (hesc : escalates r.cls = false) :
    w.report r = if w.cur = mRESET then w else (w.record r).1 := by
  have hl : (w.record r).2.1 = 0 := by simp only [W.record, hesc, hlevel, Bool.and_false, Bool.false_and, Bool.false_eq_true, if_false]
  simp only [W.report, W.reportNow, hl, show ¬ (0 : Nat) = 2 by decide, show ¬ (0 : Nat) = 3 by decide, decide_false, Bool.false_and,
    Bool.false_eq_true, if_false]

theorem W.get_report_mild {j : Nat} (hj : j < 65536) (w : W) {r : Report} (hlevel : r.level = 0) (hesc : escalates r.cls = false)
    (hr : r.cls < 65536) {g : Fld} (hg : unrecorded g = true) (hp : Fld.apart F.MOR_CLS_PEND g = true) : (w.report r).get g j = w.get g j := by
  rw [W.report_mild w hlevel hesc]
  split
  · rfl
  · rw [W.get_record hj w hr hg, W.get_set_apart hr hj w 1 hp, ite_self]

/-! ### A CTRL request (R387) -/

/-- The report of a request for which the channel's owner lacks the right (assumption 34). -/
def W.noRight (w : W) (n : Nat) : W := w.report { cls := 0x3B, level := 0, src := source 19 n, world := w.get F.OWN_PINOWN_WORLD n }

/-- Whether the channel's owner has the right that a request asks for: SENSE for a pop of captures, else DRIVE (assumption 34). -/
def W.mayAsk (w : W) (n kind : Nat) : Bool := if kind = 4 then w.flag F.OWN_PINOWN_SENSE n else w.flag F.OWN_PINOWN_DRIVE n

theorem W.ctrlRequest_denied {w : W} {n kind : Nat} (v : Nat) (hk : kind ∈ [1, 2, 3, 4]) (h : w.mayAsk n kind = false) :
    w.ctrlRequest n kind v = w.noRight n := by
  simp only [List.mem_cons, List.not_mem_nil, or_false] at hk
  rcases hk with rfl | rfl | rfl | rfl <;> exact if_neg (by simpa [W.mayAsk] using h)

section
variable {w : W} {n : Nat} (v : Nat)

theorem W.ctrlRequest_output (h : w.mayAsk n 1 = true) : w.ctrlRequest n 1 v = (w.set F.CIO_CFG_OUTVAL (v % 2) n).pinShow n := if_pos h

theorem W.ctrlRequest_pwm (h : w.mayAsk n 2 = true) :
    w.ctrlRequest n 2 v = (w.set F.CIO_PWM_HIGH (nbits v 31 0) n).modCh n fun c =>
      { c with pwmNext := some ((w.set F.CIO_PWM_HIGH (nbits v 31 0) n).get F.CIO_PWM_PERIOD n, nbits v 31 0) } := if_pos h

theorem W.ctrlRequest_compare (h : w.mayAsk n 3 = true) : w.ctrlRequest n 3 v = w.set F.CIO_CMP_TIME v n := if_pos h

/-- A field cleared where a bit of the request asks for it. -/
def W.clearIf (w : W) (b : Bool) (f : Fld) (n : Nat) : W := if b then w.set f 0 n else w

theorem W.ctrlRequest_pop (h : w.mayAsk n 4 = true) :
    w.ctrlRequest n 4 v = ((w.modCh n fun c => { c with fifo := c.fifo.drop (v % 8) }).clearIf (nbit v 8) F.CIO_STAT_CMPF n).clearIf
      (nbit v 9) F.CIO_STAT_TMRF n := if_pos h

end

@[simp] theorem W.ch_clearIf (w : W) (b : Bool) (f : Fld) (n m : Nat) : (w.clearIf b f n).ch m = w.ch m := by
  unfold W.clearIf; split <;> rfl

theorem W.get_clearIf_self (w : W) (b : Bool) {f : Fld} (n : Nat) (h : Fld.inWord f = true) :
    (w.clearIf b f n).get f n = if b then 0 else w.get f n := by
  unfold W.clearIf
  split
  · exact W.get_set_fit w n h (Nat.two_pow_pos _)
  · rfl

theorem W.get_clearIf_apart {n j : Nat} (hn : n < 65536) (hj : j < 65536) (w : W) (b : Bool) {f g : Fld} (h : Fld.apart f g = true) :
    (w.clearIf b f n).get g j = w.get g j := by
  unfold W.clearIf
  split
  · exact W.get_set_apart hn hj w 0 h
  · rfl

theorem W.get_noRight {n j : Nat} (hj : j < 65536) (w : W) {g : Fld} (hg : unrecorded g = true) (hp : Fld.apart F.MOR_CLS_PEND g = true) :
    (w.noRight n).get g j = w.get g j := 
  W.get_report_mild hj w rfl rfl (show 0x3B < 65536 by decide) hg hp

theorem W.pend_noRight {w : W} (n : Nat) (h : w.cur ≠ mRESET) : (w.noRight n).get F.MOR_CLS_PEND 0x3B = 1 := by
  rw [W.noRight, W.report_mild _ rfl rfl, if_neg h]
  exact W.pend_record w (show 0x3B < 65536 by decide)

/-- No request binds or unbinds a channel. -/
theorem W.bind_ctrlRequest {n j : Nat} (hn : n < 65536) (hj : j < 65536) (w : W) (kind v : Nat) :
    (w.ctrlRequest n kind v).get F.CIO_BIND_EN j = w.get F.CIO_BIND_EN j := by
  by_cases hk : kind ∈ [1, 2, 3, 4]
  · cases h : w.mayAsk n kind with
    | false => rw [W.ctrlRequest_denied v hk h]; exact W.get_noRight hj w (by decide) (by decide)
    | true =>
      simp only [List.mem_cons, List.not_mem_nil, or_false] at hk
      rcases hk with rfl | rfl | rfl | rfl
      · rw [W.ctrlRequest_output v h]; exact W.get_set_apart hn hj w _ (by decide)
      · rw [W.ctrlRequest_pwm v h]; exact W.get_set_apart hn hj w _ (by decide)
      · rw [W.ctrlRequest_compare v h]; exact W.get_set_apart hn hj w _ (by decide)
      · rw [W.ctrlRequest_pop v h, W.get_clearIf_apart hn hj _ _ (by decide), W.get_clearIf_apart hn hj _ _ (by decide)]; rfl
  · simp only [List.mem_cons, List.not_mem_nil, or_false, not_or] at hk
    obtain ⟨h1, h2, h3, h4⟩ := hk
    unfold W.ctrlRequest
    split
    · exact absurd rfl h1
    · exact absurd rfl h2
    · exact absurd rfl h3
    · exact absurd rfl h4
    · rfl

/-! ### One poll of every channel -/

/-- CTRL of a channel's record. -/
def W.ctrlWord (w : W) (n : Nat) : Nat := w.tcmLe (w.get F.CIO_BIND_CORE n) (w.get F.CIO_BIND_OFF n * 64 + 0x30) 8

/-- VALUE of a channel's record. -/
def W.ctrlValue (w : W) (n : Nat) : Nat := w.tcmLe (w.get F.CIO_BIND_CORE n) (w.get F.CIO_BIND_OFF n * 64 + 0x38) 8

/-- The record of a bound channel whose loop is not held asks for something. -/
def W.requests (w : W) (n : Nat) : Bool := w.flag F.CIO_BIND_EN n && !w.chHeld n && nbit (w.ctrlWord n) 63

/-- A pending request is applied, its bit cleared, and the record rewritten. -/
theorem W.ctrlPoll_pending {w : W} {n : Nat} (h : w.requests n = true) :
    w.ctrlPoll n = ((w.ctrlRequest n (nbits (w.ctrlWord n) 62 60) (w.ctrlValue n)).tcmPut (w.get F.CIO_BIND_CORE n) (w.get F.CIO_BIND_OFF n * 64 + 0x30)
      (leBytes 8 (w.ctrlWord n - 2 ^ 63))).chRecord n := by
  simp only [W.requests, Bool.and_eq_true, Bool.not_eq_true'] at h
  obtain ⟨⟨hen, hheld⟩, hbit⟩ := h
  rw [W.ctrlWord] at hbit
  simp only [W.ctrlPoll, hen, hheld, hbit, Bool.not_true, Bool.or_false, Bool.false_eq_true, if_false, W.ctrlWord, W.ctrlValue]

theorem W.ctrlPoll_idle {w : W} {n : Nat} (h : w.requests n = false) : w.ctrlPoll n = w := by
  unfold W.ctrlPoll
  extract_lets l off c
  split
  · rfl
  · rename_i hb
    simp only [Bool.or_eq_true, Bool.not_eq_true', not_or, Bool.not_eq_false, Bool.not_eq_true] at hb
    obtain ⟨hen, hheld⟩ := hb
    have hbit : nbit c 63 = false := (by simpa [W.requests, hen, hheld] using h : nbit (w.ctrlWord n) 63 = false)
    rw [if_pos (by rw [hbit]; rfl)]

theorem W.requests_unbound {w : W} {n : Nat} (h : w.get F.CIO_BIND_EN n = 0) : w.requests n = false := by
  simp only [W.requests, W.flag, h, Nat.zero_ne_one, decide_false, Bool.false_and]

theorem W.bind_ctrlPoll {n j : Nat} (hn : n < 65536) (hj : j < 65536) (w : W) : (w.ctrlPoll n).get F.CIO_BIND_EN j = w.get F.CIO_BIND_EN j := by
  cases h : w.requests n with
  | false => rw [W.ctrlPoll_idle h]
  | true => rw [W.ctrlPoll_pending h, W.get_chRecord hn hj _ (by decide), W.get_tcmPut, W.bind_ctrlRequest hn hj]

/-- With one bound channel, the poll of all of them is the poll of that one. -/
theorem foldl_ctrlPoll {n : Nat} (hn : n < 65536) {ks : List Nat} (hks : ∀ k ∈ ks, k < 65536) (hnd : ks.Nodup) (w : W)
    (h : ∀ k ∈ ks, k ≠ n → w.get F.CIO_BIND_EN k = 0) : ks.foldl W.ctrlPoll w = if n ∈ ks then w.ctrlPoll n else w := by
  induction ks generalizing w with
  | nil => rfl
  | cons k ks ih =>
    obtain ⟨hk, hks⟩ := List.forall_mem_cons.mp hks
    obtain ⟨hnot, hnd⟩ := List.nodup_cons.mp hnd
    obtain ⟨hek, hes⟩ := List.forall_mem_cons.mp h
    rw [List.foldl_cons, ih hks hnd _ fun m hm hne => (W.bind_ctrlPoll hk (hks m hm) w).trans (hes m hm hne)]
    by_cases hkn : k = n
    · subst hkn
      rw [if_neg hnot, if_pos List.mem_cons_self]
    · rw [W.ctrlPoll_idle (W.requests_unbound (hek hkn))]
      simp only [List.mem_cons, Ne.symm hkn, false_or]

end Sys2Proof.Machine
end

section
/-! The loop handshake (R389 to R391): a write of CIO.LOOP, what it starts or ends, and what the events of a handshake do. -/

namespace Sys2Proof.Machine

open Sys2Proof Sys2Proof.Safety

@[simp] theorem W.loop_setLoop_self (w : W) (l : Nat) (x : LoopSt) : (w.setLoop l x).loop l = x := by
  simp only [W.loop, W.setLoop_dev, Tab.getD_putD_self]

@[simp] theorem W.get_setLoop (w : W) (l : Nat) (x : LoopSt) (g : Fld) (i : Nat) : (w.setLoop l x).get g i = w.get g i := rfl
@[simp] theorem W.loop_set (w : W) (f : Fld) (v i l : Nat) : (w.set f v i).loop l = w.loop l := rfl

/-- The handshake block lies within the TCM (R389). -/
theorem W.hsOff_le (w : W) (l : Nat) : w.hsOff l + 8 ≤ 0x20000 := by
  have h : w.get F.CIO_LOOP_HSOFF l < 2 ^ 13 := w.get_lt F.CIO_LOOP_HSOFF l
  simp only [W.hsOff]
  omega

/-- The first word of the block reads back as written. -/
theorem W.tcmLe_hsOff {w : W} {l : Nat} {bs : List Byte} (hl : w.physCore l ≠ none) (h8 : bs.length = 8) :
    (w.tcmPut l (w.hsOff l) bs).tcmLe l (w.hsOff l) 8 = ofLE bs := by
  have h := W.tcmLe_tcmPut w (off := w.hsOff l) hl (h8.symm ▸ w.hsOff_le l)
  rwa [h8] at h

/-! ### Writes that leave the logical cores as they are -/

/-- The registers that name the physical cores (R221, R337). -/
def coreMap : List Fld := [F.CRN_PAIRSTAT_STATE, F.CRN_PAIRSTAT_LEAD, F.CRN_MAP_VALID, F.CRN_MAP_PHYS]

theorem W.physCore_set {i l : Nat} (hi : i < 65536) (hl : l < 65536) (w : W) {f : Fld} (v : Nat) (hf : coreMap.all (Fld.apart f) = true) :
    (w.set f v i).physCore l = w.physCore l :=
  W.physCore_congr rfl fun g hg _ hj => W.get_set_apart hi (hj.trans_lt hl) w v (List.all_eq_true.mp hf g hg)

@[simp] theorem W.physCore_setLoop (w : W) (l : Nat) (x : LoopSt) (k : Nat) : (w.setLoop l x).physCore k = w.physCore k :=
  W.physCore_of_dev (w := w.setLoop l x) (v := w) rfl (w.setLoop_regs l x) k

theorem W.tcmLe_set {i l : Nat} (hi : i < 65536) (hl : l < 65536) (w : W) {f : Fld} (v off n : Nat) (hf : coreMap.all (Fld.apart f) = true) :
    (w.set f v i).tcmLe l off n = w.tcmLe l off n := by
  simp only [W.tcmLe, W.physCore_set hi hl w v hf]; rfl

theorem W.cur_set {i : Nat} (hi : i < 65536) (w : W) {f : Fld} (v : Nat) (hf : Fld.apart f F.SYS_MODE_CUR = true) : (w.set f v i).cur = w.cur := by
  simp only [W.cur, W.get_set_apart hi (by decide : 0 < 65536) w v hf]; rfl

/-! ### A register write of world 0x0000 -/

/-- A write of a whole register that reaches it is its register write (R11, R477). -/
theorem fwWrite_reaches {s : State} {src e : Nat} {r : RegName} (h : Reaches s src r e) (hr : fullSlot r = true) (v : Nat) :
    s.w.fwWrite src r e v = s.w.regWrite src 0 (regOff r e) r e (v % 2 ^ 64) (2 ^ 64 - 1) := by
  obtain ⟨hcur, hphys, hspot, -⟩ := h
  simp only [hr, if_true] at hspot
  simp only [W.fwWrite, if_neg hcur, hr, if_true, W.devWrite, hphys, Bool.not_true, Bool.false_eq_true, if_false, hspot, pow_zero, mul_one]

/-- The value that a number holds in the bits of a field. -/
def Fld.of (f : Fld) (v : Nat) : Nat := nbits v f.hi f.lo

/-- What a write of `v` to a whole register makes of one field (R8, R11), with whether some field received a reserved encoding. -/
def W.takeField (w : W) (r : RegName) (e v : Nat) (a : W × Bool) (f : Fld) : W × Bool :=
  let old := (w.reg r e).toNat
  if Fld.mask f &&& (2 ^ 64 - 1) = 0 then a
  else
    let x := Fld.of f v
    match f.acc with
    | .rw => if a.1.reservedEnc f e x v then (a.1, true) else (a.1.set f x e, a.2)
    | .w1c => (a.1.set f (Fld.of f old - (Fld.of f old &&& x)) e, a.2)
    | .w1s => (a.1.set f (Fld.of f old ||| x) e, a.2)
    | .wo => if r = .KPR_EXTDATA || r = .KDF_RKDATA then (a.1.set f x e, a.2) else (a.1, a.2 || a.1.reservedEnc f e x v)
    | _ => a

/-- A write of every bit of a register goes field by field. -/
theorem W.merge_whole (w : W) {r : RegName} {e v : Nat} (hr : w.codeRsv r e = 0) (hv : v < 2 ^ 64) :
    w.merge r e v (2 ^ 64 - 1) = r.fields.foldl (w.takeField r e v) (w, false) := by
  have hfull : v % 2 ^ 64 &&& (2 ^ 64 - 1) = v := by
    rw [Nat.and_two_pow_sub_one_eq_mod, Nat.mod_mod, Nat.mod_eq_of_lt hv]
  have hold : (w.reg r e).toNat - ((w.reg r e).toNat &&& (2 ^ 64 - 1)) = 0 := by
    rw [Nat.and_two_pow_sub_one_eq_mod, Nat.mod_eq_of_lt (w.reg r e).isLt, Nat.sub_self]
  simp only [W.merge, hr, Nat.and_zero, Nat.sub_zero, hfull, hold, Nat.zero_add]
  rfl

section
variable {r : RegName} {e v : Nat} {f : Fld} (w : W) (a : W × Bool) (hm : ¬ (Fld.mask f &&& (2 ^ 64 - 1) = 0))
include hm

theorem W.takeField_ro (h : f.acc = .ro) : w.takeField r e v a f = a := by
  simp only [W.takeField, if_neg hm, h]

theorem W.takeField_rw (h : f.acc = .rw) (hres : a.1.reservedEnc f e (Fld.of f v) v = false) :
    w.takeField r e v a f = (a.1.set f (Fld.of f v) e, a.2) := by
  simp only [W.takeField, if_neg hm, h, hres, Bool.false_eq_true, if_false]

/-- A bit written 0 clears nothing. -/
theorem W.takeField_w1c (h : f.acc = .w1c) (h0 : Fld.of f v = 0) : w.takeField r e v a f = (a.1.set f (Fld.of f (w.reg r e).toNat) e, a.2) := by
  simp only [W.takeField, if_neg hm, h, h0, Nat.and_zero, Nat.sub_zero]

/-- What is written to a WO field of a command register shows in what follows the write. -/
theorem W.takeField_wo (h : f.acc = .wo) (hr : (decide (r = .KPR_EXTDATA) || decide (r = .KDF_RKDATA)) = false)
    (hres : a.1.reservedEnc f e (Fld.of f v) v = false) : w.takeField r e v a f = a := by
  simp only [W.takeField, if_neg hm, h, hr, hres, Bool.false_eq_true, if_false, Bool.or_false]

end

/-- CIO.LOOP after a write with LIMIT and HSOFF: ERR and DONE stand, since a write of 0 clears neither. -/
def W.loopSet (w : W) (l limit h : Nat) : W :=
  (((w.set F.CIO_LOOP_ERR (w.get F.CIO_LOOP_ERR l) l).set F.CIO_LOOP_DONE (w.get F.CIO_LOOP_DONE l) l).set F.CIO_LOOP_LIMIT limit l).set
    F.CIO_LOOP_HSOFF h l

/-- What a loop operation writes. -/
def loopWord (op limit h : Nat) : Nat := fv F.CIO_LOOP_OP op + fv F.CIO_LOOP_LIMIT limit + fv F.CIO_LOOP_HSOFF h

section
variable {op limit h : Nat} (hop : op < 2 ^ 2) (hlim : limit < 2 ^ 8) (hh : h < 2 ^ 13)
include hop hlim hh

theorem loopWord_eq : loopWord op limit h = op * 2 ^ 56 + limit * 2 ^ 48 + h * 2 ^ 4 := by
  show op % 2 ^ 2 * 2 ^ 56 + limit % 2 ^ 8 * 2 ^ 48 + h % 2 ^ 13 * 2 ^ 4 = _
  rw [Nat.mod_eq_of_lt hop, Nat.mod_eq_of_lt hlim, Nat.mod_eq_of_lt hh]

theorem loopWord_lt : loopWord op limit h < 2 ^ 64 := by
  rw [loopWord_eq hop hlim hh]; omega

theorem loopWord_fields : Fld.of F.CIO_LOOP_ERR (loopWord op limit h) = 0 ∧ Fld.of F.CIO_LOOP_DONE (loopWord op limit h) = 0 ∧
    Fld.of F.CIO_LOOP_OP (loopWord op limit h) = op ∧ Fld.of F.CIO_LOOP_LIMIT (loopWord op limit h) = limit ∧
    Fld.of F.CIO_LOOP_HSOFF (loopWord op limit h) = h := by
  rw [loopWord_eq hop hlim hh]
  simp only [Fld.of, nbits, Nat.shiftRight_eq_div_pow, F.CIO_LOOP_ERR, F.CIO_LOOP_DONE, F.CIO_LOOP_OP, F.CIO_LOOP_LIMIT, F.CIO_LOOP_HSOFF]
  omega

omit hop hlim hh in
theorem W.reservedEnc_loopOp (w : W) (l v m : Nat) : w.reservedEnc F.CIO_LOOP_OP l v m = false := rfl

omit hop hlim hh in
theorem W.reservedEnc_loopHsoff (w : W) (l v m : Nat) : w.reservedEnc F.CIO_LOOP_HSOFF l v m = false := rfl

omit hop hlim hh in
/-- LIMIT 0 is the one reserved encoding of CIO.LOOP (R11, R389). -/
theorem W.reservedEnc_loopLimit (w : W) (l m : Nat) {v : Nat} (h0 : 0 < v) : w.reservedEnc F.CIO_LOOP_LIMIT l v m = false := by
  show (decide (0 ≤ v) && decide (v ≤ 0) || false || false) = false
  simp only [Nat.not_le.mpr h0, decide_false, Bool.and_false, Bool.or_false]

/-- The write sets LIMIT and HSOFF; no field receives a reserved encoding. -/
theorem W.merge_loop (w : W) (l : Nat) (h0 : 0 < limit) :
    w.merge .CIO_LOOP l (loopWord op limit h) (2 ^ 64 - 1) = (w.loopSet l limit h, false) := by
  obtain ⟨herr, hdone, -, hlimf, hoff⟩ := loopWord_fields hop hlim hh
  rw [W.merge_whole w rfl (loopWord_lt hop hlim hh), show RegName.fields .CIO_LOOP = [F.CIO_LOOP_BUSY, F.CIO_LOOP_ERR, F.CIO_LOOP_DONE,
    F.CIO_LOOP_ACKED, F.CIO_LOOP_OP, F.CIO_LOOP_LIMIT, F.CIO_LOOP_HSOFF] from rfl]
  simp only [List.foldl_cons, List.foldl_nil]
  rw [W.takeField_ro (f := F.CIO_LOOP_BUSY) _ _ (by decide) rfl, W.takeField_w1c (f := F.CIO_LOOP_ERR) _ _ (by decide) rfl herr,
    W.takeField_w1c (f := F.CIO_LOOP_DONE) _ _ (by decide) rfl hdone, W.takeField_ro (f := F.CIO_LOOP_ACKED) _ _ (by decide) rfl,
    W.takeField_wo (f := F.CIO_LOOP_OP) _ _ (by decide) rfl rfl (W.reservedEnc_loopOp ..),
    W.takeField_rw (f := F.CIO_LOOP_LIMIT) _ _ (by decide) rfl (W.reservedEnc_loopLimit _ _ _ (hlimf.symm ▸ h0)),
    W.takeField_rw (f := F.CIO_LOOP_HSOFF) _ _ (by decide) rfl (W.reservedEnc_loopHsoff ..), hlimf, hoff]
  rfl

omit hop hlim hh in
theorem W.writeIgnored_loop (w : W) (l v : Nat) : w.writeIgnored .CIO_LOOP l v = false := rfl

omit hop hlim hh in
theorem W.writeBad_loop (w : W) (l v new : Nat) : w.writeBad .CIO_LOOP l v new = false := rfl

omit hop hlim hh in
/-- A write of OP starts its operation (R389, R390). -/
theorem W.written_loop (w old : W) (src world l v : Nat) : w.written old src world .CIO_LOOP l v =
    if nbits v 57 56 = 1 || nbits v 57 56 = 2 then w.loopStart l (nbits v 57 56) else if nbits v 57 56 = 3 then w.loopGo l else w := rfl

theorem W.regWrite_loop (w : W) (src world off l : Nat) (h0 : 0 < limit) :
    w.regWrite src world off .CIO_LOOP l (loopWord op limit h) (2 ^ 64 - 1) =
      (w.loopSet l limit h).written w src world .CIO_LOOP l (loopWord op limit h) := by
  have hlt := loopWord_lt hop hlim hh
  have hand : loopWord op limit h &&& (2 ^ 64 - 1) = loopWord op limit h := by rw [Nat.and_two_pow_sub_one_eq_mod, Nat.mod_eq_of_lt hlt]
  unfold W.regWrite
  extract_lets new v
  have hv : v = loopWord op limit h := hand
  rw [if_neg (by decide), W.writeIgnored_loop, W.writeBad_loop, Bool.false_and, if_neg Bool.false_ne_true, if_neg Bool.false_ne_true, hv,
    W.merge_loop hop hlim hh w l h0]
  exact congrArg (W.written · w src world .CIO_LOOP l (loopWord op limit h)) (if_neg Bool.false_ne_true)

/-- A loop operation that reaches its register starts with LIMIT and HSOFF written (R390). -/
theorem fwWrite_loop {s : State} {src l : Nat} (hl : Reaches s src .CIO_LOOP l) (h0 : 0 < limit) :
    s.w.fwWrite src .CIO_LOOP l (loopWord op limit h) =
      if op = 1 || op = 2 then (s.w.loopSet l limit h).loopStart l op else if op = 3 then (s.w.loopSet l limit h).loopGo l
      else s.w.loopSet l limit h := by
  obtain ⟨-, -, hop', -, -⟩ := loopWord_fields hop hlim hh
  have hwo : nbits (loopWord op limit h) 57 56 = op := hop'
  rw [fwWrite_reaches hl rfl, Nat.mod_eq_of_lt (loopWord_lt hop hlim hh), W.regWrite_loop hop hlim hh s.w src 0 _ l h0, W.written_loop, hwo]

end

/-! ### CIO.LOOP as a write leaves it -/

/-- A field that the write of LIMIT and HSOFF leaves. -/
def besideLoopSet (g : Fld) : Bool := [F.CIO_LOOP_ERR, F.CIO_LOOP_DONE, F.CIO_LOOP_LIMIT, F.CIO_LOOP_HSOFF].all (Fld.apart · g)

section
variable {l : Nat} (w : W) (limit : Nat) {h : Nat}

theorem W.loopSet_hsoff (hh : h < 2 ^ 13) : (w.loopSet l limit h).get F.CIO_LOOP_HSOFF l = h := W.get_set_fit _ l (by decide) hh

variable (h) (hl : l < 65536)
include hl

theorem W.get_loopSet {j : Nat} (hj : j < 65536) {g : Fld} (hg : besideLoopSet g = true) : (w.loopSet l limit h).get g j = w.get g j := by
  simp only [besideLoopSet, List.all_cons, List.all_nil, Bool.and_eq_true] at hg
  obtain ⟨herr, hdone, hlimit, hoff, -⟩ := hg
  simp only [W.loopSet, W.get_set_apart hl hj _ _ hoff, W.get_set_apart hl hj _ _ hlimit, W.get_set_apart hl hj _ _ hdone,
    W.get_set_apart hl hj _ _ herr]

theorem W.loopSet_limit (hlim : limit < 2 ^ 8) : (w.loopSet l limit h).get F.CIO_LOOP_LIMIT l = limit := by
  rw [W.loopSet, W.get_set_apart hl hl _ _ (by decide)]
  exact W.get_set_fit _ l (by decide) hlim

theorem W.physCore_loopSet : (w.loopSet l limit h).physCore l = w.physCore l := by
  simp (disch := decide) only [W.loopSet, W.physCore_set hl hl]

theorem W.cur_loopSet : (w.loopSet l limit h).cur = w.cur := by
  simp (disch := decide) only [W.loopSet, W.cur_set hl]

end

@[simp] theorem W.loop_loopSet (w : W) (l limit h k : Nat) : (w.loopSet l limit h).loop k = w.loop k := by
  simp only [W.loopSet, W.loop_set]

@[simp] theorem W.ws_set (w : W) (f : Fld) (v i : Nat) : (w.set f v i).ws = w.ws := rfl

@[simp] theorem W.mem_set (w : W) (f : Fld) (v i : Nat) : (w.set f v i).mem = w.mem := rfl

@[simp] theorem W.now_set (w : W) (f : Fld) (v i : Nat) : (w.set f v i).now = w.now := rfl

/-! ### EXCHANGE and HOLD (R390) -/

/-- Whether EXCHANGE (1) or HOLD (2) is taken: no handshake runs, the mode allows it and the core is there (assumption 35). -/
def W.takesOp (w : W) (l op : Nat) : Bool :=
  !w.flag F.CIO_LOOP_BUSY l && (if op = 1 then decide (w.cur = mMAINT) else isService w.cur) && (w.physCore l).isSome

theorem W.takesOp_loopSet {l : Nat} (hl : l < 65536) (w : W) (limit h op : Nat) : (w.loopSet l limit h).takesOp l op = w.takesOp l op := by
  simp only [W.takesOp, W.flag, W.get_loopSet w limit h hl hl (by decide : besideLoopSet F.CIO_LOOP_BUSY = true), W.cur_loopSet w limit h hl,
    W.physCore_loopSet w limit h hl]

theorem W.not_takesOp (w : W) (l op : Nat) : (!w.takesOp l op) =
    (w.flag F.CIO_LOOP_BUSY l || !(if op = 1 then decide (w.cur = mMAINT) else isService w.cur) || (w.physCore l).isNone) := by
  simp only [W.takesOp, Bool.not_and, Bool.not_not, Option.not_isSome]

theorem W.loopStart_refused {w : W} {l op : Nat} (h : w.takesOp l op = false) : w.loopStart l op = w.set F.CIO_LOOP_ERR 1 l :=
  if_pos (by rw [← W.not_takesOp, h]; rfl)

/-- The number of the next request. -/
def W.nextReq (w : W) (l : Nat) : Nat := ((w.loop l).req + 1) % 2 ^ 32

@[simp] theorem W.nextReq_loopSet (w : W) (l limit h k : Nat) : (w.loopSet l limit h).nextReq k = w.nextReq k := by
  simp only [W.nextReq, W.loop_loopSet]

@[simp] theorem W.now_loopSet (w : W) (l limit h : Nat) : (w.loopSet l limit h).now = w.now := by
  simp only [W.loopSet, W.now_set]

@[simp] theorem W.mem_loopSet (w : W) (l limit h : Nat) : (w.loopSet l limit h).mem = w.mem := by
  simp only [W.loopSet, W.mem_set]

@[simp] theorem W.ws_loopSet (w : W) (l limit h : Nat) : (w.loopSet l limit h).ws = w.ws := by
  simp only [W.loopSet, W.ws_set]

/-- The handshake that a taken operation begins, before its request stands in the core's TCM. -/
def W.beginLoop (w : W) (l op : Nat) : W := (w.set F.CIO_LOOP_BUSY 1 l).setLoop l { req := w.nextReq l, op := op, since := w.now }

theorem W.loopStart_taken {w : W} {l op : Nat} (h : w.takesOp l op = true) :
    w.loopStart l op = (w.beginLoop l op).tcmPut l ((w.beginLoop l op).hsOff l) (leBytes 8 (w.nextReq l * 2 ^ 32 + op)) :=
  if_neg (by rw [← W.not_takesOp, h]; decide)

theorem W.get_beginLoop {l j : Nat} (hl : l < 65536) (hj : j < 65536) (w : W) (op : Nat) {g : Fld} (hg : Fld.apart F.CIO_LOOP_BUSY g = true) :
    (w.beginLoop l op).get g j = w.get g j := by
  rw [W.beginLoop, W.get_setLoop, W.get_set_apart hl hj w 1 hg]

theorem W.busy_beginLoop (w : W) (l op : Nat) : (w.beginLoop l op).get F.CIO_LOOP_BUSY l = 1 := by
  rw [W.beginLoop, W.get_setLoop, W.get_set_fit w l (by decide) (by decide)]

theorem W.physCore_beginLoop {l : Nat} (hl : l < 65536) (w : W) (op : Nat) : (w.beginLoop l op).physCore l = w.physCore l := by
  rw [W.beginLoop, W.physCore_setLoop, W.physCore_set hl hl w 1 (by decide)]

@[simp] theorem W.loop_beginLoop (w : W) (l op : Nat) : (w.beginLoop l op).loop l = { req := w.nextReq l, op := op, since := w.now } := by
  rw [W.beginLoop, W.loop_setLoop_self]

@[simp] theorem W.mem_beginLoop (w : W) (l op : Nat) : (w.beginLoop l op).mem = w.mem := by
  rw [W.beginLoop, W.setLoop_mem, W.mem_set]

/-! ### GO (R390, R391) -/

@[simp] theorem W.get_recordTcm (w : W) (n : Nat) (r : List Byte) (g : Fld) (j : Nat) : (w.recordTcm n r).get g j = w.get g j := by
  unfold W.recordTcm
  split
  · rfl
  · extract_lets l
    split
    · rfl
    · exact W.get_tcmPut ..

/-- Held events that go to the records touch no field apart from the flags and the mirrored ones. -/
theorem W.get_releaseHeld {j : Nat} (hj : j < 65536) (w : W) (l : Nat) {g : Fld} (hg : unmirrored g = true) (hcmp : Fld.apart F.CIO_STAT_CMPF g = true)
    (htmr : Fld.apart F.CIO_STAT_TMRF g = true) : (w.releaseHeld l).get g j = w.get g j := by
  unfold W.releaseHeld
  extract_lets v
  have hv : v.get g j = w.get g j := by
    refine foldl_keeps (W.get · g j) _ (fun u n _ => ?_) w
    split
    · split
      · exact W.get_recordTcm ..
      · rfl
    · rfl
  rw [← hv]
  refine foldl_keeps (W.get · g j) _ (fun u n hn => ?_) v
  have hn : n < 65536 := by
    have := List.mem_range.mp (List.mem_of_mem_filter hn)
    omega
  dsimp only
  rw [W.get_chRecord hn hj _ hg]
  split <;> split <;> simp only [W.get_set_apart hn hj _ _ hcmp, W.get_set_apart hn hj _ _ htmr, W.get_modCh]

theorem W.loopGo_early {w : W} {l : Nat} (h : w.get F.CIO_LOOP_ACKED l = 0) : w.loopGo l = w.set F.CIO_LOOP_ERR 1 l :=
  if_pos (by simp [W.flag, h])

/-- GO ends an acknowledged handshake. -/
theorem W.loopGo_ends {w : W} {l : Nat} (hl : l < 65536) (h : w.get F.CIO_LOOP_ACKED l = 1) :
    (w.loopGo l).get F.CIO_LOOP_ACKED l = 0 ∧ (w.loopGo l).get F.CIO_LOOP_BUSY l = 0 ∧ (w.loopGo l).get F.CIO_LOOP_DONE l = 1 := by
  have hack : w.flag F.CIO_LOOP_ACKED l = true := by simp [W.flag, h]
  unfold W.loopGo
  rw [if_neg (by simp [hack])]
  refine ⟨?_, W.get_set_fit _ l (by decide) (by decide), ?_⟩
  · rw [W.get_set_apart hl hl _ _ (by decide), W.get_set_apart hl hl _ _ (by decide), W.get_tcmPut,
      W.get_releaseHeld hl _ _ (by decide) (by decide) (by decide)]
    exact W.get_set_fit w l (by decide) (by decide)
  · rw [W.get_set_apart hl hl _ _ (by decide)]
    exact W.get_set_fit _ l (by decide) (by decide)

/-! ### The acknowledgement and its limit (R390) -/

theorem W.loopAcked_seen {w : W} {l : Nat} (hbusy : w.get F.CIO_LOOP_BUSY l = 1) (hack : w.get F.CIO_LOOP_ACKED l = 0) (hnow : w.now % 1000 ≤ 1)
    (h : w.tcmLe l (w.hsOff l + 8) 8 = (w.loop l).req * 2 ^ 32 + (w.loop l).op) : w.loopAcked l = w.set F.CIO_LOOP_ACKED 1 l :=
  if_pos ⟨by simp [W.flag, hbusy], by simp [W.flag, hack], hnow, h⟩

theorem W.loopTimeout_late {w : W} {l : Nat} (hbusy : w.get F.CIO_LOOP_BUSY l = 1) (hack : w.get F.CIO_LOOP_ACKED l = 0)
    (h : (w.loop l).since + w.get F.CIO_LOOP_LIMIT l * 1000000 ≤ w.now) :
    w.loopTimeout l = ((w.tcmPut l (w.hsOff l) (zeros 8)).set F.CIO_LOOP_ERR 1 l).set F.CIO_LOOP_BUSY 0 l :=
  if_pos ⟨by simp [W.flag, hbusy], by simp [W.flag, hack], h⟩

end Sys2Proof.Machine
end

section
/-! Control pins, timers and loop handshakes (R380 to R391): each command of the family, and the statement they make together. -/

namespace Sys2Proof.Machine

open Sys2Proof Sys2Proof.Safety

/-! ### Pins and timers -/

section
variable {s : State} {n : Nat} (hn : n < 48)
include hn

theorem does_pinEdge {up : Bool} (hp : (s.w.ch n).pin ≠ up) :
    let sel : Prop := nbit (field s F.CIO_CFG_EDGE n) (if up then 0 else 1) = true
    let fifo := (s.w.ch n).fifo
    Does s (.pinEdge n up) fun t => (t.w.ch n).pin = up ∧ field t F.CIO_STAT_PIN n = b2n up ∧
      (¬ sel → (t.w.ch n).fifo = fifo) ∧
      (sel → fifo.length < 4 → (t.w.ch n).fifo = fifo ++ [(s.now - field s F.CIO_CFG_FILT n, if up then 1 else 2)]) ∧
      (sel → 4 ≤ fifo.length → (t.w.ch n).fifo = fifo ∧ field t F.CIO_STAT_OVF n = 1 ∧
        field t F.CIO_STAT_LOST n = satAdd 16 (field s F.CIO_STAT_LOST n) 1) := by
  intro sel fifo
  have hb : n < 65536 := by omega
  refine does_of_lift (f := fun w => if n < 48 then w.pinEdge n up else w) rfl ?_
  simp (disch := decide) only [if_pos hn, ch_after, field_after]
  by_cases hsel : sel
  · simp only [hsel, not_true_eq_false, false_imp_iff, true_imp_iff, true_and]
    by_cases hroom : fifo.length < 4
    · rw [W.pinEdge_room hp hsel hroom, W.pin_chRecord, W.get_pin_chRecord hb, W.fifo_chRecord, W.ch_modCh_self, W.ch_pinAt]
      exact ⟨rfl, rfl, fun _ => rfl, fun h => absurd hroom h.not_gt⟩
    · rw [W.pinEdge_full hp hsel (not_lt.mp hroom), W.pin_chRecord, W.get_pin_chRecord hb, W.fifo_chRecord, W.get_chRecord hb hb _ (by decide),
        W.get_chRecord hb hb _ (by decide), W.ch_set, W.ch_bump, W.ch_pinAt]
      refine ⟨rfl, rfl, fun h => absurd h hroom, fun _ => ⟨rfl, W.get_set_fit _ n (by decide) (by decide), ?_⟩⟩
      rw [W.get_set_apart hb hb _ _ (by decide), W.get_bump_self _ _ _ (by decide), W.get_pinAt]
      rfl
  · rw [W.pinEdge_unselected hp (Bool.not_eq_true _ ▸ hsel), W.pin_chRecord, W.get_pin_chRecord hb, W.fifo_chRecord, W.ch_pinAt]
    exact ⟨rfl, rfl, fun _ => rfl, fun h => absurd h hsel, fun h => absurd h hsel⟩

theorem does_compareFire (h0 : field s F.CIO_CMP_TIME n ≠ 0) (h : field s F.CIO_CMP_TIME n ≤ s.now) :
    let cmp := field s F.CIO_CMP_TIME n
    let per := field s F.CIO_CMPPER_NS n
    let act := field s F.CIO_CFG_CMPACT n
    Does s (.compareFire n) fun t => field t F.CIO_CMP_TIME n = (if per = 0 then 0 else (cmp + per) % 2 ^ 64) ∧
      (if s.w.chHeld n = true then (t.w.ch n).heldCmp = true else field t F.CIO_STAT_CMPF n = 1) ∧
      (field s F.CIO_CFG_MODE n = 3 → (t.w.ch n).level =
        if act = 1 then true else if act = 2 then false else if act = 3 then !(s.w.ch n).level else (s.w.ch n).level) := by
  intro cmp per act
  have hb : n < 65536 := by omega
  refine does_of_lift (f := fun w => if n < 48 then w.compareFire n else w) rfl ?_
  simp (disch := decide) only [if_pos hn, ch_after, field_after]
  rw [W.compareFire_due h0 h, W.get_flagOrHold hb _ (by decide) (by decide), W.level_flagOrHold _ _ _ (wait := holdCmp) fun _ => rfl, W.ch_set,
    ← W.chHeld_cmpAct_set hb]
  exact ⟨W.get_set_fit _ n (by decide) (s.w.cmpNext_lt n), W.flagOrHold_shows hb _ (by decide) rfl (wait := holdCmp) fun _ => rfl, W.level_cmpAct⟩

theorem acts_pwmPeriodStart (hmode : field s F.CIO_CFG_MODE n = 4) :
    let c := s.w.ch n
    let p := if c.pwmNow.1 = 0 then (c.pwmNext.getD c.pwmNow).1 else c.pwmNow.1
    p ≠ 0 → s.now % p = 0 → Acts s (.pwmPeriodStart n) fun t => (t.w.ch n).pwmNow = c.pwmNext.getD c.pwmNow ∧ (t.w.ch n).pwmNext = none := by
  intro c p hp hnow
  have heq : s.w.pwmStart n = (s.w.modCh n fun c => { c with pwmNow := (s.w.ch n).pwmNext.getD (s.w.ch n).pwmNow, pwmNext := none }).pinShow n :=
    if_neg fun h => h.elim hp fun h => h.elim (absurd hnow) (absurd hmode)
  refine acts_of_lift (f := fun w => if n < 48 then w.pwmStart n else w) rfl ?_ ?_
  · simp only [if_pos hn, heq]; rfl
  · simp only [if_pos hn, heq, ch_after, W.ch_pinShow, W.ch_modCh_self, c, and_self]

theorem acts_levelTimerFire_idle (h : field s F.CIO_TMRCTL_LEVEL n = 0 ∨
    levelCount (field s F.CIO_TMRCTL_LEVEL n) s.now < field s F.CIO_TMRNEXT_COUNT n) : Acts s (.levelTimerFire n) fun t => t.dev = s.dev := by
  have heq : s.w.levelFire n = s.w := W.levelFire_idle h
  refine acts_of_lift (f := fun w => if n < 48 then w.levelFire n else w) rfl ?_ ?_ <;> rw [if_pos hn, heq] <;> rfl

theorem does_levelTimerFire (h0 : field s F.CIO_TMRCTL_LEVEL n ≠ 0)
    (h : field s F.CIO_TMRNEXT_COUNT n ≤ levelCount (field s F.CIO_TMRCTL_LEVEL n) s.now) :
    let cnt := levelCount (field s F.CIO_TMRCTL_LEVEL n) s.now
    let due := field s F.CIO_TMRNEXT_COUNT n
    let per := field s F.CIO_TMRCTL_PER n
    Does s (.levelTimerFire n) fun t => (if s.w.chHeld n = true then (t.w.ch n).heldTmr = true else field t F.CIO_STAT_TMRF n = 1) ∧
      if per = 0 then field t F.CIO_TMRCTL_LEVEL n = 0
      else field t F.CIO_TMRNEXT_COUNT n = (due + ((cnt - due) / per + 1) * per) % 2 ^ 64 ∧
        field t F.CIO_TMRCTL_MISSED n = satAdd 16 (field s F.CIO_TMRCTL_MISSED n) ((cnt - due) / per) := by
  intro cnt due per
  have hb : n < 65536 := by omega
  refine does_of_lift (f := fun w => if n < 48 then w.levelFire n else w) rfl ?_
  simp (disch := decide) only [if_pos hn, ch_after, field_after]
  rw [W.levelFire_due h0 h, ← W.chHeld_timerNext hb]
  refine ⟨W.flagOrHold_shows hb _ (by decide) rfl (wait := holdTmr) fun _ => rfl, ?_⟩
  split
  · rw [W.get_flagOrHold hb _ (by decide) (by decide)]
    exact W.timerNext_once ‹_›
  · rw [W.get_flagOrHold hb _ (by decide) (by decide), W.get_flagOrHold hb _ (by decide) (by decide)]
    exact W.timerNext_periodic hb ‹_›

end

/-! ### Requests of a bound channel -/

/-- At a whole µs channel `n`, its loop not held and no other channel bound, asks for a request of a kind (R387). -/
def Asks (s : State) (n kind : Nat) : Prop :=
  s.now % 1000 ≤ 1 ∧ field s F.CIO_BIND_EN n = 1 ∧ s.w.chHeld n = false ∧ nbit (s.w.ctrlWord n) 63 = true ∧ nbits (s.w.ctrlWord n) 62 60 = kind ∧
    ∀ m < 48, m ≠ n → field s F.CIO_BIND_EN m = 0

theorem requests_of_asks {s : State} {n kind : Nat} (h : Asks s n kind) : s.w.requests n = true := by
  obtain ⟨-, hen, hheld, hbit, -⟩ := h
  have hflag : s.w.flag F.CIO_BIND_EN n = true := decide_eq_true hen
  simp only [W.requests, hflag, hheld, hbit, Bool.not_false, Bool.and_self]

section
variable {s : State} {n kind : Nat} (hn : n < 48) (h : Asks s n kind)
include hn h

/-- The poll of every channel is the request of the one that asks. -/
theorem does_poll {P : State → Prop} (hP : P (after s (s.w.ctrlPoll n))) : Does s .ctrlRequestPoll P := by
  obtain ⟨hnow, -, -, -, -, hother⟩ := h
  refine does_of_lift (f := fun w => if w.now % 1000 ≤ 1 then (List.range 48).foldl W.ctrlPoll w else w) rfl ?_
  have hone := foldl_ctrlPoll (n := n) (by omega) (fun k hk => (List.mem_range.mp hk).trans (by decide)) List.nodup_range s.w
    fun k hk hne => hother k (List.mem_range.mp hk) hne
  rwa [State.w_now, if_pos hnow, hone, if_pos (List.mem_range.mpr hn)]

omit hn in
theorem ctrlPoll_asked : s.w.ctrlPoll n =
    ((s.w.ctrlRequest n kind (s.w.ctrlValue n)).tcmPut (s.w.get F.CIO_BIND_CORE n) (s.w.get F.CIO_BIND_OFF n * 64 + 0x30)
      (leBytes 8 (s.w.ctrlWord n - 2 ^ 63))).chRecord n := by
  have hreq := requests_of_asks h
  obtain ⟨-, -, -, -, hkind, -⟩ := h
  rw [W.ctrlPoll_pending hreq, hkind]

theorem get_ctrlPoll {j : Nat} (hj : j < 65536) {g : Fld} (hg : unmirrored g = true) :
    (s.w.ctrlPoll n).get g j = (s.w.ctrlRequest n kind (s.w.ctrlValue n)).get g j := by
  rw [ctrlPoll_asked h, W.get_chRecord (by omega) hj _ hg, W.get_tcmPut]

omit hn in
theorem fifo_ctrlPoll : ((s.w.ctrlPoll n).ch n).fifo = ((s.w.ctrlRequest n kind (s.w.ctrlValue n)).ch n).fifo := by
  rw [ctrlPoll_asked h, W.fifo_chRecord, W.ch_tcmPut]

omit hn in
theorem pwmNext_ctrlPoll : ((s.w.ctrlPoll n).ch n).pwmNext = ((s.w.ctrlRequest n kind (s.w.ctrlValue n)).ch n).pwmNext := by
  rw [ctrlPoll_asked h, W.pwmNext_chRecord, W.ch_tcmPut]

end

section
variable {s : State} {n : Nat} (hn : n < 48)
include hn

theorem does_poll_output (h : Asks s n 1) (hd : field s F.OWN_PINOWN_DRIVE n = 1) :
    Does s .ctrlRequestPoll fun t => field t F.CIO_CFG_OUTVAL n = s.w.ctrlValue n % 2 := by
  have hmay : s.w.mayAsk n 1 = true := decide_eq_true hd
  refine does_poll hn h ?_
  rw [field_after _ _ _ (by decide), get_ctrlPoll hn h (by omega) (by decide), W.ctrlRequest_output _ hmay, W.get_pinShow]
  exact W.get_set_fit _ n (by decide) (Nat.mod_lt _ (by decide))

theorem does_poll_pwm (h : Asks s n 2) (hd : field s F.OWN_PINOWN_DRIVE n = 1) :
    Does s .ctrlRequestPoll fun t => field t F.CIO_PWM_HIGH n = s.w.ctrlValue n % 2 ^ 32 ∧
      (t.w.ch n).pwmNext = some (field s F.CIO_PWM_PERIOD n, s.w.ctrlValue n % 2 ^ 32) := by
  have hb : n < 65536 := by omega
  have hmay : s.w.mayAsk n 2 = true := decide_eq_true hd
  have hv : nbits (s.w.ctrlValue n) 31 0 = s.w.ctrlValue n % 2 ^ 32 := rfl
  refine does_poll hn h ?_
  rw [field_after _ _ _ (by decide), get_ctrlPoll hn h hb (by decide), ch_after, pwmNext_ctrlPoll h, W.ctrlRequest_pwm _ hmay, W.get_modCh,
    W.ch_modCh_self, hv, W.get_set_apart hb hb _ (g := F.CIO_PWM_PERIOD) _ (by decide)]
  exact ⟨W.get_set_fit _ n (by decide) (Nat.mod_lt _ (by decide)), rfl⟩

theorem does_poll_compare (h : Asks s n 3) (hd : field s F.OWN_PINOWN_DRIVE n = 1) :
    Does s .ctrlRequestPoll fun t => field t F.CIO_CMP_TIME n = s.w.ctrlValue n := by
  have hmay : s.w.mayAsk n 3 = true := decide_eq_true hd
  refine does_poll hn h ?_
  rw [field_after _ _ _ (by decide), get_ctrlPoll hn h (by omega) (by decide), W.ctrlRequest_compare _ hmay]
  exact W.get_set_fit _ n (by decide) (s.w.tcmLe_lt _ _ 8)

theorem does_poll_pop (h : Asks s n 4) (hs : field s F.OWN_PINOWN_SENSE n = 1) :
    let v := s.w.ctrlValue n
    Does s .ctrlRequestPoll fun t => (t.w.ch n).fifo = (s.w.ch n).fifo.drop (v % 8) ∧
      field t F.CIO_STAT_CMPF n = (if nbit v 8 then 0 else field s F.CIO_STAT_CMPF n) ∧
      field t F.CIO_STAT_TMRF n = if nbit v 9 then 0 else field s F.CIO_STAT_TMRF n := by
  intro v
  have hb : n < 65536 := by omega
  have hmay : s.w.mayAsk n 4 = true := decide_eq_true hs
  refine does_poll hn h ?_
  rw [ch_after, fifo_ctrlPoll h, field_after _ _ _ (by decide), field_after _ _ _ (by decide), get_ctrlPoll hn h hb (by decide),
    get_ctrlPoll hn h hb (by decide), W.ctrlRequest_pop _ hmay, W.ch_clearIf, W.ch_clearIf, W.ch_modCh_self,
    W.get_clearIf_apart hb hb _ _ (by decide), W.get_clearIf_self _ _ _ (by decide), W.get_clearIf_self _ _ _ (by decide),
    W.get_clearIf_apart hb hb _ _ (by decide)]
  exact ⟨rfl, rfl, rfl⟩

theorem does_poll_denied {kind : Nat} (hk : kind ∈ [1, 2, 3, 4]) (h : Asks s n kind) (hmay : s.w.mayAsk n kind = false) (hcur : s.w.cur ≠ mRESET) :
    Does s .ctrlRequestPoll fun t => Latched t 0x3B := by
  refine does_poll hn h ?_
  rw [Latched, field_after _ _ _ (by decide), get_ctrlPoll hn h (by decide) (by decide), W.ctrlRequest_denied _ hk hmay]
  exact W.pend_noRight n hcur

theorem does_poll_noRight (hcur : s.w.cur ≠ mRESET)
    (h : ((Asks s n 1 ∨ Asks s n 2 ∨ Asks s n 3) ∧ ¬ field s F.OWN_PINOWN_DRIVE n = 1) ∨ (Asks s n 4 ∧ ¬ field s F.OWN_PINOWN_SENSE n = 1)) :
    Does s .ctrlRequestPoll fun t => Latched t 0x3B := by
  rcases h with ⟨hk, hd⟩ | ⟨h4, hs⟩
  · rcases hk with h1 | h2 | h3
    · exact does_poll_denied hn (by decide) h1 (decide_eq_false hd) hcur
    · exact does_poll_denied hn (by decide) h2 (decide_eq_false hd) hcur
    · exact does_poll_denied hn (by decide) h3 (decide_eq_false hd) hcur
  · exact does_poll_denied hn (by decide) h4 (decide_eq_false hs) hcur

end

/-! ### Loop handshakes -/

/-- No handshake runs for a core, and the core is there. -/
def MayPost (s : State) (l : Nat) : Prop := field s F.CIO_LOOP_BUSY l = 0 ∧ s.w.physCore l ≠ none

theorem takesOp_iff (s : State) (l op : Nat) :
    s.w.takesOp l op = true ↔ MayPost s l ∧ (if op = 1 then decide (s.w.cur = mMAINT) else isService s.w.cur) = true := by
  have hbusy : s.w.flag F.CIO_LOOP_BUSY l = false ↔ field s F.CIO_LOOP_BUSY l = 0 := by
    have hlt : s.w.get F.CIO_LOOP_BUSY l < 2 ^ 1 := s.w.get_lt F.CIO_LOOP_BUSY l
    simp only [W.flag, field, decide_eq_false_iff_not]
    omega
  simp only [W.takesOp, MayPost, Bool.and_eq_true, Bool.not_eq_true', hbusy, Option.isSome_iff_ne_none]
  tauto

/-- A loop operation whose only effect beside LIMIT and HSOFF is ERR writes nothing to the core. -/
theorem acts_of_err {s : State} {i : Instr} {f : W → W} {l limit h : Nat} (he : exec i s = lift f s)
    (heq : f s.w = (s.w.loopSet l limit h).set F.CIO_LOOP_ERR 1 l) : Acts s i fun t => field t F.CIO_LOOP_ERR l = 1 := by
  refine acts_of_lift he ?_ ?_
  · rw [heq, W.ws_set, W.ws_loopSet, State.w_ws]
  · rw [field_after _ _ _ (by decide), heq]
    exact W.get_set_fit _ l (by decide) (by decide)

section
variable {s : State} {src l limit hsoff : Nat} (hl : l < 32) (h0 : 0 < limit) (hlim : limit < 256) (hh : hsoff / 16 < 2 ^ 13)

section
variable (hr : Reaches s src .CIO_LOOP l)
include h0 hlim hh hr

/-- A write of EXCHANGE or HOLD is the start of a handshake on CIO.LOOP with its LIMIT and HSOFF. -/
theorem loopWrite_start {op : Nat} (hop : op = 1 ∨ op = 2) :
    s.w.loopWrite src op l limit hsoff = (s.w.loopSet l limit (hsoff / 16)).loopStart l op := by
  refine (fwWrite_loop (by omega) hlim hh hr h0).trans (if_pos ?_)
  simpa only [Bool.or_eq_true, decide_eq_true_eq] using hop

theorem loopWrite_go : s.w.loopWrite src 3 l limit hsoff = (s.w.loopSet l limit (hsoff / 16)).loopGo l :=
  fwWrite_loop (by decide) hlim hh hr h0

include hl

/-- What an operation that is taken posts (R390 step 1). -/
theorem does_start {i : Instr} {op : Nat} (he : exec i s = lift (fun w => w.loopWrite src op l limit hsoff) s) (hop : op = 1 ∨ op = 2)
    (ht : s.w.takesOp l op = true) :
    Does s i fun t => field t F.CIO_LOOP_BUSY l = 1 ∧ field t F.CIO_LOOP_LIMIT l = limit ∧ field t F.CIO_LOOP_HSOFF l = hsoff / 16 ∧
      t.w.loop l = { req := s.w.nextReq l, op := op, since := s.now } ∧ t.w.tcmLe l (hsoff / 16 * 16) 8 = s.w.nextReq l * 2 ^ 32 + op := by
  have hb : l < 65536 := by omega
  obtain ⟨hmay, -⟩ := (takesOp_iff s l op).mp ht
  let v := s.w.loopSet l limit (hsoff / 16)
  have hoff : (v.beginLoop l op).get F.CIO_LOOP_HSOFF l = hsoff / 16 := (W.get_beginLoop hb hb v op (by decide)).trans (W.loopSet_hsoff _ _ hh)
  have hcore : (v.beginLoop l op).physCore l ≠ none := by
    rw [W.physCore_beginLoop hb, W.physCore_loopSet _ _ _ hb]
    exact hmay.2
  have hnum : s.w.nextReq l * 2 ^ 32 + op < 256 ^ 8 := by
    have : s.w.nextReq l < 2 ^ 32 := Nat.mod_lt _ (by decide)
    omega
  have hback := W.tcmLe_hsOff hcore (length_leBytes 8 (s.w.nextReq l * 2 ^ 32 + op))
  rw [ofLE_leBytes, Nat.mod_eq_of_lt hnum, W.hsOff, hoff] at hback
  have hend : s.w.loopWrite src op l limit hsoff =
      (v.beginLoop l op).tcmPut l ((v.beginLoop l op).hsOff l) (leBytes 8 (s.w.nextReq l * 2 ^ 32 + op)) := by
    rw [loopWrite_start h0 hlim hh hr hop, W.loopStart_taken ((W.takesOp_loopSet hb ..).trans ht), W.nextReq_loopSet]
  refine does_of_lift he ?_
  simp (disch := decide) only [hend, field_after, loop_after, W.get_tcmPut, W.loop_tcmPut, W.loop_beginLoop, W.busy_beginLoop, hoff, true_and]
  refine ⟨?_, ?_, ?_⟩
  · exact (W.get_beginLoop hb hb v op (by decide)).trans (W.loopSet_limit _ _ _ hb hlim)
  · rw [W.nextReq_loopSet, W.now_loopSet, State.w_now]
  · rw [tcmLe_after (by rw [W.mem_tcmPut, W.mem_beginLoop, W.mem_loopSet, State.w_mem]), W.hsOff, hoff, hback]

theorem loopWrite_refused {op : Nat} (hop : op = 1 ∨ op = 2) (ht : s.w.takesOp l op = false) :
    s.w.loopWrite src op l limit hsoff = (s.w.loopSet l limit (hsoff / 16)).set F.CIO_LOOP_ERR 1 l := by
  rw [loopWrite_start h0 hlim hh hr hop]
  exact W.loopStart_refused ((W.takesOp_loopSet (by omega) ..).trans ht)

theorem acts_refused {i : Instr} {op : Nat} (he : exec i s = lift (fun w => w.loopWrite src op l limit hsoff) s) (hop : op = 1 ∨ op = 2)
    (ht : s.w.takesOp l op = false) : Acts s i fun t => field t F.CIO_LOOP_ERR l = 1 :=
  acts_of_err he (loopWrite_refused hl h0 hlim hh hr hop ht)

theorem acts_loopExchange_refused (h : ¬ MayPost s l ∨ s.w.cur ≠ mMAINT) :
    Acts s (.loopExchange src l limit hsoff) fun t => field t F.CIO_LOOP_ERR l = 1 := by
  refine acts_refused hl h0 hlim hh hr rfl (.inl rfl) (Bool.eq_false_iff.mpr fun ht => ?_)
  obtain ⟨hmay, hmode⟩ := (takesOp_iff s l 1).mp ht
  exact h.elim (absurd hmay) (absurd (of_decide_eq_true hmode))

theorem acts_loopHold_refused (h : ¬ MayPost s l ∨ isService s.w.cur = false) :
    Acts s (.loopHold src l limit hsoff) fun t => field t F.CIO_LOOP_ERR l = 1 := by
  refine acts_refused hl h0 hlim hh hr rfl (.inr rfl) (Bool.eq_false_iff.mpr fun ht => ?_)
  obtain ⟨hmay, hmode⟩ := (takesOp_iff s l 2).mp ht
  exact h.elim (absurd hmay) (Bool.eq_false_iff.mp · hmode)

theorem does_loopGo (h : field s F.CIO_LOOP_ACKED l = 1) : Does s (.loopGo src l limit hsoff) fun t =>
    field t F.CIO_LOOP_ACKED l = 0 ∧ field t F.CIO_LOOP_BUSY l = 0 ∧ field t F.CIO_LOOP_DONE l = 1 := by
  have hb : l < 65536 := by omega
  refine does_of_lift (f := fun w => w.loopWrite src 3 l limit hsoff) rfl ?_
  simp (disch := decide) only [field_after]
  rw [loopWrite_go h0 hlim hh hr]
  exact W.loopGo_ends hb ((W.get_loopSet _ _ _ hb hb (by decide)).trans h)

theorem acts_loopGo_early (h : field s F.CIO_LOOP_ACKED l = 0) :
    Acts s (.loopGo src l limit hsoff) fun t => field t F.CIO_LOOP_ERR l = 1 := by
  have hb : l < 65536 := by omega
  exact acts_of_err (f := fun w => w.loopWrite src 3 l limit hsoff) rfl ((loopWrite_go h0 hlim hh hr).trans
    (W.loopGo_early ((W.get_loopSet _ _ _ hb hb (by decide)).trans h)))

end

section
variable (hbusy : field s F.CIO_LOOP_BUSY l = 1) (hack : field s F.CIO_LOOP_ACKED l = 0)
include hl hbusy hack

theorem acts_loopAcked (hnow : s.now % 1000 ≤ 1) (h : s.w.tcmLe l (s.w.hsOff l + 8) 8 = (s.w.loop l).req * 2 ^ 32 + (s.w.loop l).op) :
    Acts s (.loopAcked l) fun t => field t F.CIO_LOOP_ACKED l = 1 := by
  have heq : s.w.loopAcked l = s.w.set F.CIO_LOOP_ACKED 1 l := W.loopAcked_seen hbusy hack hnow h
  refine acts_of_lift (f := fun w => if l < 32 then w.loopAcked l else w) rfl ?_ ?_
  · rw [if_pos hl, heq, W.ws_set, State.w_ws]
  · rw [field_after _ _ _ (by decide), if_pos hl, heq]
    exact W.get_set_fit _ l (by decide) (by decide)

theorem does_loopAckTimeout (h : (s.w.loop l).since + field s F.CIO_LOOP_LIMIT l * 1000000 ≤ s.now) :
    Does s (.loopAckTimeout l) fun t => field t F.CIO_LOOP_ERR l = 1 ∧ field t F.CIO_LOOP_BUSY l = 0 ∧
      (s.w.physCore l ≠ none → t.w.tcmLe l (s.w.hsOff l) 8 = 0) := by
  have hb : l < 65536 := by omega
  refine does_of_lift (f := fun w => if l < 32 then w.loopTimeout l else w) rfl ?_
  rw [if_pos hl, W.loopTimeout_late hbusy hack h, field_after _ _ _ (by decide), field_after _ _ _ (by decide),
    tcmLe_after (by rw [W.mem_set, W.mem_set, W.mem_tcmPut, State.w_mem])]
  refine ⟨?_, W.get_set_fit _ l (by decide) (by decide), fun hcore => ?_⟩
  · rw [W.get_set_apart hb hb _ _ (by decide)]
    exact W.get_set_fit _ l (by decide) (by decide)
  · rw [W.tcmLe_set hb hb _ _ _ _ (by decide), W.tcmLe_set hb hb _ _ _ _ (by decide), W.tcmLe_hsOff hcore rfl, ofLE_zeros]

end

end

/-- Settles O39, event by event: each has an equation for the case that the statement describes, and the TCM writes and mirrored fields that follow
it leave the fields that the statement reads. -/
theorem pinsAndLoops : Obligations.PinsAndLoops := by
  unfold Obligations.PinsAndLoops
  intro s src n l limit hsoff up hn hl h0 hlim hh
  refine ⟨does_pinEdge hn, does_compareFire hn, acts_pwmPeriodStart hn, acts_levelTimerFire_idle hn, does_levelTimerFire hn,
    does_poll_output hn, does_poll_pwm hn, does_poll_compare hn, does_poll_pop hn, does_poll_noRight hn, fun hr => ⟨?_, ?_,
    acts_loopExchange_refused hl h0 hlim hh hr, acts_loopHold_refused hl h0 hlim hh hr, does_loopGo hl h0 hlim hh hr,
    acts_loopGo_early hl h0 hlim hh hr⟩, fun ⟨hbusy, hack⟩ => acts_loopAcked hl hbusy hack, fun ⟨hbusy, hack⟩ => does_loopAckTimeout hl hbusy hack⟩
  · exact fun hmay hmode => does_start hl h0 hlim hh hr rfl (.inl rfl) ((takesOp_iff s l 1).mpr ⟨hmay, decide_eq_true hmode⟩)
  · exact fun hmay hmode => does_start hl h0 hlim hh hr rfl (.inr rfl) ((takesOp_iff s l 2).mpr ⟨hmay, hmode⟩)

end Sys2Proof.Machine
end
